-- ==== Sys2Proof/Word.lean ====
section
/-! DEFINITION. The word types of the module and their plainest arithmetic: a register is a 32-bit word (R5), memory
is bytes, a stream time is an unsigned 64-bit count of ticks that wraps (R25, R26). -/

namespace Sys2Proof

/-- A register, 32 bits wide (R5). -/
abbrev Word := BitVec 32

/-- A byte of memory. -/
abbrev Byte := BitVec 8

/-- A stream time: an unsigned 64-bit count of ticks (R25). -/
abbrev Tick := BitVec 64

/-- Signed 16-bit values: a sample code of R7 or a level of R8. -/
abbrev Code16 := BitVec 16

end Sys2Proof
end

