-- ==== Sys2Proof/Syntax.lean ====
section
/-! DEFINITION. The commands of the module: one constructor for each row of spec/opcode_table.json, with the operands that
the row's event brings from outside. What a command does stands in the machine alone. -/

namespace Sys2Proof

/-- How one attempt of a link training ended. -/
inductive TrainStep where
  | locked
  | crFail (lane : Fin 4)
  | eqFail
deriving DecidableEq, Repr
/-- What a re-plan measures of one lane (R575): the lane key, its eye height, and the equaliser setting found best, relative
to the one at start-up. Keys are 0 to 63 for ingest lanes and 64 + 4p + l for lane l of Byora port p. -/
structure PlanLane where
  lane : Nat
  eye : Nat
  setting : Int
deriving DecidableEq, Repr, Inhabited

/-- What the analogue measurements of a re-plan find (R575, R587): the lanes in use, the memory interface's margin and
whether its trims change, the self-test of CHS, and the compression engines that pass. -/
structure PlanIn where
  lanes : List PlanLane
  hbmMargin : Int
  trims : Bool
  chsOk : Bool
  enginesOk : List Nat
deriving DecidableEq, Repr, Inhabited

/-- The units that have a QUIESCENT bit (R21). -/
inductive UnitId where
  | asy | zb | spx | trg | hoop | den | gal | scr | wvr | tly | cyk | hif | ptr | hbm | byo | age | cfg
deriving DecidableEq, Repr

/-- The units that have a CNT_CLEAR register. -/
inductive CountUnit where
  | clk | trg | hoop | gal | scr | wvr | tly | cyk | hif | ptr | hbm | byo | cfg | age
deriving DecidableEq, Repr

/-- The units that have a SAT_CLEAR register. -/
inductive SatUnit where
  | asy | zb | spx | den
deriving DecidableEq, Repr

/-- The commands, in the order of the table; each docstring gives the rule and the table's summary. -/
inductive Instr where
  /-- REGISTER_WRITE (R12): A write to a register that has no row of its own takes effect under each field's access
  code, after clamping. -/
  | registerWrite (off : BitVec 26) (data : List Byte)
  /-- LOW_WORD_READ (R14): A read of the low word of a 64-bit pair returns it and latches the high word into the pair's
  shadow. -/
  | lowWordRead (off : BitVec 26)
  /-- LOW_WORD_WRITE (R16): A write of the low word of a writable pair is held in the write shadow. -/
  | lowWordWrite (off : BitVec 26) (value : Word)
  /-- HIGH_WORD_WRITE (R16): A write of the high word commits both words of the pair at once, with the low word held in
  the write shadow. -/
  | highWordWrite (off : BitVec 26) (value : Word)
  /-- CLAMP_CLEAR (R20): Any write to SYS.CLAMP_CLEAR clears SYS.CLAMP_COUNT. -/
  | clampClear
  /-- CNT_CLEAR (R232): Any write to a unit's CNT_CLEAR clears that unit's counters. -/
  | cntClear (unit : CountUnit)
  /-- SAT_CLEAR (R141): Any write to a unit's SAT_CLEAR clears its saturation counters. -/
  | satClear (unit : SatUnit)
  /-- UNIT_QUIESCENT (R21): A disabled unit finishes draining its accepted work and sets QUIESCENT. -/
  | unitQuiescent (unit : UnitId)
  /-- EPOCH_ARM (R29): A write of 1 to SYS.EPOCH_CTRL.ARM arms the epoch for the next valid SYSREF capture. -/
  | epochArm
  /-- EPOCH_STOP (R31): A write of 1 to SYS.EPOCH_CTRL.STOP stops stream time at the next landing. -/
  | epochStop
  /-- EPOCH_BROADCAST (R33): A write of 1 to SYS.EPOCH_CTRL.BROADCAST on the fabric root arms the root's own epoch and
  sends an epoch message to the fabric. -/
  | epochBroadcast
  /-- SYSREF_CAPTURE (R92): A low-to-high SYSREF transition is captured; it sets or checks the LEMC phase. -/
  | sysrefCapture
  /-- EPOCH_APPLIED (R29): T_REL ticks after the commit, the first sample leaves the elastic buffer; RUN sets and event
  0x0010 is raised. -/
  | epochApplied
  /-- FABRIC_EPOCH_MESSAGE (R34): A received epoch message is loaded at a later SYSREF capture, or is compared with the
  running stream time. -/
  | fabricEpochMessage (epoch : Tick) (hops : Nat) (elapsed : Nat)
  /-- PERIODIC_SYSREF_LOST (R37): Four expected periodic captures pass with none seen; SYSREF_OK clears and event 0x0014
  is raised. -/
  | periodicSysrefLost
  /-- DECISION_POINT (R39): At stream time L minus 1,024, the pending changes that arrived before it are taken for
  landing L. -/
  | decisionPoint
  /-- LANDING (R40): At a landing, the changes taken for it are applied in order and govern samples from L onward. -/
  | landing (diff : Option (Fin 4 × Tick))
  /-- HOLD_WRITE (R43): A write of SYS.LAND_CTRL.HOLD holds pending changes, or releases the accumulated set to land
  together. -/
  | holdWrite (hold : Bool)
  /-- STREAM_TIME_STOPPED (R31): RUN clears when the last unit reports QUIESCENT after a stop. -/
  | streamTimeStopped
  /-- VIN_ACCEPTED (R67): VIN rises through 8.7 V; the input is accepted and AUX_3V3 turns on. -/
  | vinAccepted
  /-- VIN_LOW (R67): VIN falls through 9.0 V; event 0x1204 is raised and operation continues. -/
  | vinLow
  /-- VIN_POWER_LOSS (R67): VIN falls through 8.3 V; PGOOD goes low and all rails and AUX_3V3 go off. -/
  | vinPowerLoss
  /-- VIN_OVERVOLTAGE (R71): VIN rises above 62 V; the surge stopper clamps it and the accumulator counts. -/
  | vinOvervoltage
  /-- VIN_BELOW_61V (R71): VIN falls below 61 V and event 0x1202 is raised with the accumulated count. -/
  | vinBelow61V (ms : Nat)
  /-- OV_SHUTDOWN (R71): The overvoltage accumulator reaches 80 ms; event 0x1203 is raised and the ordered shutdown
  begins. -/
  | ovShutdown
  /-- OV_DISCONNECT (R71): The accumulator reaches 100 ms and the surge stopper disconnects the input. -/
  | ovDisconnect
  /-- OV_ACCUM_CLEAR (R71): After 10 s without a break below 61 V, the accumulator is cleared. -/
  | ovAccumClear
  /-- MOD_EN_RISE (R66): MOD_EN goes high with VIN in the window, and the rails start. -/
  | modEnRise (lowMs : Nat)
  /-- MOD_EN_FALL (R66): MOD_EN goes low while the module runs, and the ordered shutdown begins. -/
  | modEnFall
  /-- PHASE_FAIL (R69): A power phase trips its limit, is taken out of service, and event 0x1220 is raised. -/
  | phaseFail (id : Fin 40) (level : Fin 8)
  /-- SENSE_CHECK (R72): The once-per-second continuity check of VIN_SNS and RTN_SNS switches measurement to local or
  back. -/
  | senseCheck (vinOpen : Bool) (rtnOpen : Bool)
  /-- PIN_TRIP (R73): A shorted output pin is current-limited and placed in high impedance, and event 0x1210 is raised.
  -/
  | pinTrip (pin : Fin 38)
  /-- PIN_RETRY (R73): With LATCH = 0, a tripped driver is re-enabled after RETRY_CFG.INTERVAL ms. -/
  | pinRetry (pin : Fin 38)
  /-- PIN_HELD (R73): A re-enabled pin holds for 10 ms without tripping, and event 0x1211 is raised. -/
  | pinHeld (pin : Fin 38)
  /-- PIN_SHORT_CLEAR (R73): A W1C write to a SHORT or PAT_SHORT bit clears it and, with LATCH = 1, re-enables the pin.
  -/
  | pinShortClear (pat : Bool) (data : Word)
  /-- HK_TIMER_SCAN (R77): An expiry of HK.TIMER.PERIOD starts a scan of the active timer slots, or is skipped if the
  previous scan is unfinished. -/
  | hkTimerScan (hold : Bool)
  /-- HK_PWM_CONVERSION (R77): DELAY ns after a qualifying gate-command edge, a PWM slot's conversion starts if the
  converter is idle. -/
  | hkPwmConversion (slot : Fin 24)
  /-- HK_CONVERSION_END (R81): A conversion ends; after the last of a set, the averaged result is written to HK.RESn. -/
  | hkConversionEnd (code : BitVec 12) (hold : Bool)
  /-- HK_REF_READY (R82): 500 µs after REF_EN rises, REF_RDY sets. -/
  | hkRefReady
  /-- COUNT_CLEAR (R79): Any write to HK.COUNT_CLEAR clears HK.COUNTS. -/
  | countClear
  /-- ING_ENABLE (R91): ING.CTRL.EN changes from 0 to 1; lanes power up and SYSREF polarity sampling begins. -/
  | ingEnable
  /-- SYSREF_POLARITY_DECISION (R91): After 4,096 ICLK periods of sampling, SYSREF is inverted or not and captures
  become possible. -/
  | sysrefPolarityDecision (high : Nat)
  /-- ING_DISABLE (R105): ING.CTRL.EN is cleared; every lane goes OFF and enabled channels release zeros with ING. -/
  | ingDisable
  /-- SR_SCAN (R93): A write of 1 to ING.CTRL.SR_SCAN starts a SYSREF phase scan, or is refused. -/
  | srScan
  /-- SR_SCAN_END (R93): After 1,024 SYSREF periods the scan sets EDGE and PHASE, or fails with reason 2. -/
  | srScanEnd (change : Option (Fin 256 × Fin 256))
  /-- SR_PHASE_STEP (R94): Every 64 ICLK periods the capture clock moves one step towards the written PHASE. -/
  | srPhaseStep
  /-- LANE_SYNC_HEADER_LOCK (R96): A lane in CDR recovers its clock and 64 valid sync headers, and enters SHLOCK. -/
  | laneSyncHeaderLock (lane : Fin 64)
  /-- LANE_PILOT_FOUND (R96): The CRC-12 pilot pattern is found in two consecutive multiblocks; the lane enters EMBLOCK,
  inverting if needed. -/
  | lanePilotFound (lane : Fin 64) (inverted : Bool) (arrival : Nat)
  /-- LANE_JOIN (R98): A lane in EMBLOCK whose arrival fits the bounds joins at an LEMC edge and enters ALIGNED. -/
  | laneJoin (lane : Fin 64) (arrival : Nat)
  /-- LANE_FAULT (R103): An ALIGNED lane meets a fault cause, enters FAULT, and its channel goes DOWN releasing zeros.
  -/
  | laneFault (lanes : List (Fin 64 × Fin 6))
  /-- LANE_FAULT_RECOVERY (R96): 1,024 ICLK periods after a fault the lane returns to CDR. -/
  | laneFaultRecovery (lane : Fin 64)
  /-- AUTO_RBD (R99): When every used lane has reached EMBLOCK, RBD is computed, or the channels enter ALIGN_FAIL. -/
  | autoRbd
  /-- AUTO_RBD_TIMEOUT (R99): After 2^20 ICLK periods, RBD is computed over the channels that have reached EMBLOCK. -/
  | autoRbdTimeout
  /-- MULTIBLOCK (R102): A multiblock's verdict arrives; a flagged multiblock is released with ING and counted. -/
  | multiblock (lane : Fin 64) (index : Nat) (flagged : Bool)
  /-- CHANNEL_ALIGN_FAIL (R104): An arrival stays outside the bounds for 64 consecutive EMBs and the channel enters
  ALIGN_FAIL. -/
  | channelAlignFail (ch : Fin 4)
  /-- ERR_CLEAR (R106): Any write to ING.ERR_CLEAR clears every ERRc. -/
  | errClear
  /-- BAR2_ACCESS (R449): A BAR2 access reaches device memory at BAR2_BASE plus the offset, subject to the target's own
  rules. -/
  | bar2Access (off : BitVec 28) (write : Option (List Byte)) (n : BitVec 12)
  /-- ASY_REQ (R126): A write of a channel's bit in ASY.CTRL.REQ requests an Assayer run of that channel. -/
  | asyReq (chans : BitVec 4)
  /-- ASY_ABORT (R133): A write of 1 to ASY.CTRL.ABORT aborts the current run as its phase allows. -/
  | asyAbort
  /-- ESTIMATION_ITERATION (R120): An estimation window has been processed; the trial coefficients are updated or the
  run converges. -/
  | estimationIteration (eyes : List (Fin 64 × Nat))
  /-- ASY_FLASH_RECORD_WRITE (R139): After step 64 the calibration record is written to flash, and event 0x030B is
  raised. -/
  | asyFlashRecordWrite
  /-- SPX_FRAME (R184): A frame's transform is complete and its bins go to the trigger, density and Cykin consumers. -/
  | spxFrame (ch : Fin 4)
  /-- TCTRL_CLEAR (R191): A write of 1 to TRt.TCTRL.CLEAR requests a clear of the trace accumulation at the next
  landing. -/
  | tctrlClear (ch : Fin 4) (tr : Fin 4)
  /-- UWIN_DATA (R180): An access to SPX.UWIN_DATA reads or writes a user window word, then increments UWIN_ADDR. -/
  | uwinData (data : Option Word)
  /-- TRIGGER_UNIT_STEP (R215): Once A, B and Q have reported through t, the trigger unit handles stream time t. -/
  | triggerUnitStep (tu : Fin 8) (t : Tick)
  /-- TRIG_IN_EDGE (R210): A selected TRIG_IN edge is sampled and stamped, unless it merges into a recent event. -/
  | trigInEdge (pin : Fin 4) (level : Bool) (ph : Fin 16)
  /-- FABRIC_TRIGGER_MESSAGE (R212): A fabric trigger message is placed on FABf at its origin time, or late with FAB and
  LATE. -/
  | fabricTriggerMessage (line : Fin 16) (t : Tick) (flags : BitVec 7)
  /-- CYK_TIMEOUT (R213): A Cykin line reports nothing new for CYK_TMO µs, and the waiting unit enters STALLED. -/
  | cykTimeout (tu : Fin 8)
  /-- FORCE (R220): A write of 1 to TUn.CTRL.FORCE records a force for the next landing. -/
  | force (tu : Fin 8)
  /-- ARM (R219): A write of 1 to TUn.CTRL.ARM records an arm of the trigger unit for the next landing. -/
  | arm (tu : Fin 8)
  /-- TRIG_OUT_EDGE (R228): A scheduled pulse end on stream time is released and the TRIG_OUT pin changes state. -/
  | trigOutEdge (pin : Fin 4)
  /-- MASK_DATA (R205): An access to TRG.MASK_DATA reads or writes a mask point, then increments MASK_ADDR. -/
  | maskData (data : Option Word)
  /-- HOOP_ARM (R240): A write of 1 to HWn.CTRL.ARM requests an arm of the Hoop writer at the next landing. -/
  | hoopArm (writer : Fin 8)
  /-- ELEMENT_COMMIT (R241): An element is committed once delivered and once every selected unit has reported through
  its stamp. -/
  | elementCommit (writer : Fin 8)
  /-- RECORD_HEADER_WRITE (R245): After every data write of a record has arrived, its header is written and RECORDS
  increments. -/
  | recordHeaderWrite (writer : Fin 8)
  /-- HOOP_GEOMETRY_WRITE (R249): A write to a Hoop geometry field takes effect at once, or is held pending with PENDING
  set. -/
  | hoopGeometryWrite (writer : Fin 8) (field : Fin 6) (value : Nat)
  /-- DENSITY_PASS (R266): At a pass stream time, the plane is copied to the snapshot, cleared or decayed. -/
  | densityPass (ch : Fin 4)
  /-- SNAPSHOT_COPY_END (R270): The snapshot copy ends; SNAP_SEQ increments and event 0x0802 is raised. -/
  | snapshotCopyEnd (ch : Fin 4)
  /-- DEN_CLEAR (R267): A write of 1 to DENc.CTRL.CLEAR requests a plane restart. -/
  | denClear (ch : Fin 4)
  /-- GAL_ENABLE (R279): GAL.CTRL.EN changes to 1; Gallery performs latch 0 and starts frame 1. -/
  | galEnable
  /-- GAL_DISABLE (R301): GAL.CTRL.EN is written 0; the current frame runs out and Gallery sends idle pattern. -/
  | galDisable
  /-- LATCH (R290): At line VACT minus LEAD, the armed pane sets become active. -/
  | latch
  /-- FRAME_RETIRE (R292): When every fetch of frame n has arrived, the frame retires and RETIRE_SEQ reads n. -/
  | frameRetire
  /-- LINE_START (R294): Scan-out of an active line begins. -/
  | lineStart (line : BitVec 12) (ready : Bool)
  /-- COMMIT (R289): A write to GAL.COMMIT copies the named panes' shadow sets to their armed sets. -/
  | commit (mask : BitVec 8)
  /-- PAL_DATA (R285): An access to GAL.PAL_DATA reads or writes a palette entry, then increments PAL_ADDR. -/
  | palData (data : Option Word)
  /-- HPD_CONNECT (R298): HPD stays high for 100 ms; the sink is connected and its DPCD and EDID are read. -/
  | hpdConnect (dpcd : List Byte) (edid : List Byte) (aux : Bool)
  /-- HPD_UNPLUG (R298): HPD stays low for 2 ms; the sink is unplugged and the main link is turned off. -/
  | hpdUnplug
  /-- IRQ_HPD (R298): A short HPD pulse makes Gallery read the link status, retraining if it is lost. -/
  | irqHpd (lost : Bool)
  /-- RETRAIN (R299): A write of 1 to GAL.CTRL.RETRAIN starts DisplayPort link training. -/
  | retrain
  /-- LINK_TRAINING_END (R299): Training succeeds with LINK_UP, or fails with TRAIN_FAIL or BW_SHORT. -/
  | linkTrainingEnd (sinkLanes : Fin 3) (sinkRate : Fin 4) (steps : List TrainStep)
  /-- RECORDING_CLOSED (R320): After the last folio, Scrivener flushes, writes closed labels and returns to IDLE. -/
  | recordingClosed
  /-- BLOCK_CLOSE (R307): A stream's block fills or ends and is handed to staging and compression. -/
  | blockClose (stream : Fin 16)
  /-- COMPRESSION_END (R308): An engine finishes compressing and verifying a block, handing it on coded or raw. -/
  | compressionEnd (engine : Fin 16) (coded : List Byte)
  /-- FOLIO_WRITE_END (R312): Every write of a folio has completed and its staging space is freed. -/
  | folioWriteEnd
  /-- CKPT_FLUSH (R319): Every CKPT ms, Flush is issued to every used drive. -/
  | ckptFlush
  /-- PLAYBACK_START (R322): A write of SCR.CTRL.PB = 1 starts a playback, or is refused. -/
  | playbackStart
  /-- PLAYBACK_EPOCH (R323): Once the read-ahead holds the first beats, epoch T_REC is applied without SYSREF. -/
  | playbackEpoch
  /-- PLAYBACK_FOLIO_READ (R326): A folio read for playback is validated, and a missing span is released as zeros with
  GAP. -/
  | playbackFolioRead (ok : Bool)
  /-- PLAYBACK_END (R327): Playback ends at the end of the log, at PB_STOP, or after PB = 0, and stream time stops. -/
  | playbackEnd
  /-- PLAYBACK_STOP_WRITE (R327): A write of PB = 0 during a playback ends it at the next landing. -/
  | playbackStopWrite
  /-- DRIVE_BRINGUP (R328): An enabled drive is brought up through NVMe and enters READY or REJECTED. -/
  | driveBringup (port : Fin 4) (width : Fin 3) (speed : Fin 6) (nlba : Nat) (vwc : Bool) (reason : Fin 4)
  /-- NVME_COMPLETION (R329): An NVMe command completes; an error is retried once and a second error fails the drive. -/
  | nvmeCompletion (port : Fin 4) (opcode : Byte) (status : BitVec 16)
  /-- NVME_TIMEOUT (R329): A command not completed within 2 s sets the drive FAILED. -/
  | nvmeTimeout (port : Fin 4) (opcode : Byte)
  /-- SMART_POLL (R328): Every 10 s the SMART / Health log page is read. -/
  | smartPoll (port : Fin 4) (temp : BitVec 16) (crit : Byte)
  /-- SCR_DISABLE (R330): SCR.CTRL.EN = 0 closes a recording at the next landing, or ends a playback. -/
  | scrDisable
  /-- START (R363): A Weaver CMD.START starts an IDLE engine's first pass at the clamped time T. -/
  | start (engine : Fin 2)
  /-- ARM_TRIG (R364): A Weaver CMD.ARM_TRIG puts an IDLE engine into ARMED. -/
  | armTrig (engine : Fin 2)
  /-- STOP (R365): A Weaver CMD.STOP ends the engine at a pass end. -/
  | stop (engine : Fin 2)
  /-- JUMP (R359): A Weaver CMD.JUMP makes a host jump request stamped at arrival plus JDELAY. -/
  | jump (engine : Fin 2)
  /-- PASS_BOUNDARY (R360): A pass ends; the engine repeats, jumps, takes NEXT or stops. -/
  | passBoundary (engine : Fin 2)
  /-- WEAVER_UNDERRUN (R369): A granule is not complete when due; the outputs hold idle values. -/
  | weaverUnderrun (engine : Fin 2)
  /-- UNDERRUN_RESYNC (R369): Data is again complete; the engine resynchronises and UNDERRUNS increments. -/
  | underrunResync (engine : Fin 2)
  /-- WEAVER_ENABLE (R371): WVR.CTRL.EN changes to 1 and far-end termination of the used lanes is sensed. -/
  | weaverEnable (openLanes : BitVec 16)
  /-- LINK_START (R371): At the next LEMC edge the transmit link starts and LINK_UP sets. -/
  | linkStart
  /-- WEAVER_DISABLE (R367): WVR.CTRL.EN = 0 stops both engines. -/
  | weaverDisable
  /-- LINK_STOP (R367): With both engines IDLE, the link stops at an LEMC edge and QUIESCENT sets. -/
  | linkStop
  /-- SEQ_DATA (R355): An access to WVR.SEQ_DATA reads or writes a table word, then increments SEQ_ADDR. -/
  | seqData (data : Option Word)
  /-- TALLIED_EDGE (R382): An input edge passes the prescaler, is stamped, queued and sent to the trigger engine and
  Weaver. -/
  | talliedEdge (input : Fin 8) (rising : Bool) (code : Fin 32)
  /-- GATE_EDGE (R395): A gate edge opens or closes a measurement window of an armed unit. -/
  | gateEdge (input : Fin 9) (rising : Bool) (code : Fin 32)
  /-- FM_ARM (R395): A write of 1 to FMn.CTRL.ARM puts an IDLE unit into ARMED. -/
  | fmArm (unit : Fin 8)
  /-- FM_STOP (R396): A write of 1 to FMn.CTRL.STOP closes an open window without a result. -/
  | fmStop (unit : Fin 8)
  /-- TCAL_REQ (R391): A write of 1 to TCAL.REQ makes Assayer compute new Tally tables. -/
  | tcalReq (counts : List (Fin 9 × List Nat))
  /-- TCAL_PERIOD (R391): Every TCAL.PERIOD seconds, new Tally tables are computed. -/
  | tcalPeriod (counts : List (Fin 9 × List Nat))
  /-- HALT (R434): The Cykin core stops issue and drains, and STATE becomes HALTED with cause 1. -/
  | halt (core : Fin 128)
  /-- NOP (R434): The Cykin instruction does nothing. -/
  | nop (core : Fin 128)
  /-- TRAP (R434): ICAUSE bit 7 sets and an interrupt is entered at the next boundary. -/
  | trap (core : Fin 128)
  /-- RETI (R422): After earlier writes complete, SR is restored from ISR and issue resumes at IPC. -/
  | reti (core : Fin 128)
  /-- DI (R434): SR.IE clears at the boundary after the instruction. -/
  | di (core : Fin 128)
  /-- EI (R434): SR.IE sets at the boundary after the instruction. -/
  | ei (core : Fin 128)
  /-- BR (R434): Branch to the target after the delay slot. -/
  | br (core : Fin 128)
  /-- CALL (R434): Write the return address to the register and branch after the delay slot. -/
  | call (core : Fin 128)
  /-- BZ (R434): Branch if the register is zero. -/
  | bz (core : Fin 128)
  /-- BNZ (R434): Branch if the register is not zero. -/
  | bnz (core : Fin 128)
  /-- BLTZ (R434): Branch if the register is negative. -/
  | bltz (core : Fin 128)
  /-- LOOP (R434): Set LC, LB and LE from the immediate count. -/
  | loop (core : Fin 128)
  /-- LOOPR (R434): Set LC from a register, and LB and LE as LOOP does. -/
  | loopr (core : Fin 128)
  /-- JR (R434): Branch to the register's bits [13:0]. -/
  | jr (core : Fin 128)
  /-- MVI (R438): Set an address or modifier register to the sign-extended immediate. -/
  | mvi (core : Fin 128)
  /-- MVIH (R438): Set a register's bits [31:16] to the immediate. -/
  | mvih (core : Fin 128)
  /-- ADDI (R438): Add the sign-extended immediate to a register. -/
  | addi (core : Fin 128)
  /-- ALUA_ADD (R438): Address ALU addition, modulo 2^32. -/
  | aluaAdd (core : Fin 128)
  /-- ALUA_SUB (R438): Address ALU subtraction, modulo 2^32. -/
  | aluaSub (core : Fin 128)
  /-- ALUA_AND (R438): Address ALU bitwise AND. -/
  | aluaAnd (core : Fin 128)
  /-- ALUA_OR (R438): Address ALU bitwise OR. -/
  | aluaOr (core : Fin 128)
  /-- ALUA_XOR (R438): Address ALU bitwise XOR. -/
  | aluaXor (core : Fin 128)
  /-- ALUA_SLL (R438): Address ALU logical shift left by rb[4:0]. -/
  | aluaSll (core : Fin 128)
  /-- ALUA_SRL (R438): Address ALU logical shift right by rb[4:0]. -/
  | aluaSrl (core : Fin 128)
  /-- ALUA_SRA (R438): Address ALU arithmetic shift right, truncating. -/
  | aluaSra (core : Fin 128)
  /-- MVTS (R437): Write a special register named by SREG. -/
  | mvts (core : Fin 128)
  /-- MVFS (R437): Read a special register named by SREG into an address or modifier register. -/
  | mvfs (core : Fin 128)
  /-- MVDA (R438): Move lane 0 of a data vector into an address or modifier register. -/
  | mvda (core : Fin 128)
  /-- MVAD (R438): Broadcast an address or modifier register into every lane of a data vector. -/
  | mvad (core : Fin 128)
  /-- LD (R439): Load a 32-byte vector. -/
  | ld (core : Fin 128)
  /-- LDR (R439): Load one 4-byte word into every lane. -/
  | ldr (core : Fin 128)
  /-- ST (R439): Store a 32-byte vector. -/
  | st (core : Fin 128)
  /-- LDA (R438): Load a 4-byte word into an address or modifier register. -/
  | lda (core : Fin 128)
  /-- STA (R438): Store an address or modifier register as a 4-byte word. -/
  | sta (core : Fin 128)
  /-- FAR_LOAD_RETURN (R405): The data of a far load arrives and the stalled core resumes. -/
  | farLoadReturn (core : Fin 128)
  /-- CYC (R438): Read the issue-cycle count into a register. -/
  | cyc (core : Fin 128)
  /-- VOP_ADD (R440): Vector add, each part modulo 2^16. -/
  | vopAdd (core : Fin 128)
  /-- VOP_SUB (R440): Vector subtract, each part modulo 2^16. -/
  | vopSub (core : Fin 128)
  /-- VOP_ADDS (R440): Vector saturating add. -/
  | vopAdds (core : Fin 128)
  /-- VOP_SUBS (R440): Vector saturating subtract. -/
  | vopSubs (core : Fin 128)
  /-- VOP_SRA (R440): Vector arithmetic shift right by SH. -/
  | vopSra (core : Fin 128)
  /-- VOP_CONJ (R440): Vector complex conjugate. -/
  | vopConj (core : Fin 128)
  /-- VOP_CMULS (R440): Vector saturating complex multiply. -/
  | vopCmuls (core : Fin 128)
  /-- VOP_MOV (R440): Vector move. -/
  | vopMov (core : Fin 128)
  /-- VOP_SWAP (R440): Vector swap of the I and Q parts. -/
  | vopSwap (core : Fin 128)
  /-- LDAC (R442): Set or add to an accumulator from a data register, shifted by s. -/
  | ldac (core : Fin 128)
  /-- MAC (R441): Complex multiply-accumulate into an accumulator, setting OV on wrap. -/
  | mac (core : Fin 128)
  /-- CLR (R441): Clear every part of an accumulator. -/
  | clr (core : Fin 128)
  /-- FTAP (R443): One delay-line filter tap: accumulate h times x, shift x along and post-modify both pointers. -/
  | ftap (core : Fin 128)
  /-- MV (R441): Move accumulator bits [s+15:s] to a data register, wrapping. -/
  | mv (core : Fin 128)
  /-- SATMV (R441): Saturating move of an accumulator, shifted by s, to a data register. -/
  | satmv (core : Fin 128)
  /-- POP (R444): Wait for an item in an input ring, return its header address and OR its DFLAGS into FACC. -/
  | pop (core : Fin 128)
  /-- FREE (R444): Release the oldest popped item of a ring. -/
  | free (core : Fin 128)
  /-- POST (R445): Emit an output item from a DM descriptor to the output ring. -/
  | post (core : Fin 128)
  /-- TPOST (R444): Post a trigger or progress on a Cykin trigger line, subject to the owner check. -/
  | tpost (core : Fin 128)
  /-- UNASSIGNED_ENCODING (R428): A core reaching an unassigned word halts with cause 2 before it issues. -/
  | unassignedEncoding (core : Fin 128)
  /-- INTERRUPT_ENTRY (R420): At an eligible boundary with an enabled cause, the core drains, saves IPC and ISR and
  jumps to VEC. -/
  | interruptEntry (core : Fin 128)
  /-- ITEM_DELIVERY (R412): A feed closes an item and stores it in the target core's input ring. -/
  | itemDelivery (feed : Fin 16)
  /-- CORE_RUN (R424): A write of CORn.CTRL.RUN starts issue, or halts the core with cause 0. -/
  | coreRun (core : Fin 128) (run : Bool)
  /-- CORE_RESET (R424): CORn.CTRL.RESET resets the core's registers and rings and sets STATE to RESET. -/
  | coreReset (core : Fin 128)
  /-- DOORBELL (R418): CORn.CTRL.DOORBELL sets ICAUSE bit 4. -/
  | doorbell (core : Fin 128)
  /-- OLOSS_CLR (R416): CORn.CTRL.OLOSS_CLR clears the core's OLOSS. -/
  | olossClr (core : Fin 128)
  /-- DOORBELL_POLL (R453): Every POLL ns the engine reads the doorbell block and fetches new command entries. -/
  | doorbellPoll (stores : List (Nat × List Byte)) (failed : Fin 3)
  /-- CMD_NOP (R461): The NOP ring command completes with RESULT 0. -/
  | cmdNop
  /-- REG_WRITE (R461): The ring command performs N register writes as BAR0 writes. -/
  | regWrite
  /-- REG_READ (R461): The ring command reads one register, or a 64-bit pair. -/
  | regRead
  /-- OVERLAY_APPLY (R565): The ring command captures an overlay and schedules it at a clamped landing, or applies it at
  once. -/
  | overlayApply
  /-- TIME (R461): The ring command returns its arrival stream time. -/
  | time
  /-- PTR_XFER (R466): The ring command queues a transfer descriptor on a Porter channel. -/
  | ptrXfer
  /-- PTR_FENCE (R470): The ring command queues a fence on one channel or on all channels. -/
  | ptrFence
  /-- BAD_OPCODE (R460): A command with an unassigned OPC completes with BAD_OPCODE and does nothing. -/
  | badOpcode
  /-- REMOTE_COMMAND (R464): A command arriving over Byora is queued for decode if FWD_EN allows it, or is refused. -/
  | remoteCommand (port : Fin 8) (node : Fin 4096) (rseq : Word) (cmd : List Byte)
  /-- HIF_ENABLE (R454): HIF.CTRL.EN changes to 1; the heads and tails reset and polling starts. -/
  | hifEnable
  /-- HIF_DISABLE (R474): HIF.CTRL.EN = 0 stops polling after the fetched commands drain. -/
  | hifDisable
  /-- DESCRIPTOR_COMPLETE (R469): A Porter descriptor's last write leaves the engine; its completion is written and
  MSI-X is signalled if asked. -/
  | descriptorComplete (ch : Fin 32) (failed : List (Nat × Bool))
  /-- FENCE_COMPLETE (R470): Every earlier write of a fence has arrived and the fence completes. -/
  | fenceComplete (ch : Fin 33)
  /-- PORTER_DISABLE (R472): PTR.CHn.CTRL.EN = 0 lets the running descriptor finish and cancels the queue. -/
  | porterDisable (ch : Fin 32)
  /-- PORTER_ABORT (R473): PTR.CHn.CTRL.ABORT stops the running descriptor at a beat boundary and cancels the queue. -/
  | porterAbort (ch : Fin 32) (beats : Nat)
  /-- HOST_LINK_LOST (R475): PERST, a hot reset, a link-down or FLR ends the host link and clears the rings' state. -/
  | hostLinkLost (cause : Fin 4)
  /-- HOST_LINK_UP (R475): The host link trains again and event 0x0E07 is raised. -/
  | hostLinkUp (width : Fin 5) (speed : Fin 6)
  /-- MEMORY_REQUEST (R482): A 64-byte request is granted at its pseudo-channel controller and decoded through the
  symbol code. -/
  | memoryRequest (port : Fin 11) (addr : BitVec 48) (write : Option (List Byte)) (found : Fin 3)
  /-- REFRESH (R489): A pseudo-channel's refresh falls due every tREFI, and is issued or postponed. -/
  | refresh (j : Fin 128) (queued : Bool)
  /-- STACK_TEMP_READ (R490): Every 1 ms a stack temperature is read and the refresh range is chosen. -/
  | stackTempRead (stack : Fin 4) (temp : BitVec 16)
  /-- RETRAINING_PASS (R493): Every RETRAIN.MS ms the pseudo-channels are retrained one by one. -/
  | retrainingPass (below : List (Fin 128))
  /-- HOT_WINDOW (R488): Each millisecond the access-count ratio is checked, and event 0x0F04 may be raised. -/
  | hotWindow (counts : List Nat) (ports : List Nat)
  /-- SELF_REFRESH_ENTRY (R495): After SR.IDLE µs without requests, the memory drains and enters self-refresh. -/
  | selfRefreshEntry
  /-- SELF_REFRESH_EXIT (R496): A request arriving in self-refresh starts an exit, and service resumes. -/
  | selfRefreshExit (ns : BitVec 16) (ms : Nat)
  /-- SR_REQ (R495): A write of HBM.SR.REQ permits self-refresh, or is refused while stream time runs. -/
  | srReq (req : Bool)
  /-- SCRUB_PASS (R500): The patrol completes a read of every codeword and raises event 0x0F0C. -/
  | scrubPass
  /-- PORT_TRAINED (R506): All four lanes of a Byora port lock, and the port enters CAL. -/
  | portTrained (port : Fin 8) (inverted : BitVec 4)
  /-- LANE_LOCK_TIMEOUT (R506): A lane that does not lock within 20 ms fails the port with reason 1. -/
  | laneLockTimeout (port : Fin 8)
  /-- PORT_CALIBRATED (R507): The round trip is measured and the hop pad is set, or the port fails with reason 3. -/
  | portCalibrated (port : Fin 8) (roundTrip : Nat)
  /-- PORT_FAILED (R526): An UP port fails on a cause of R526 and the module floods its link state. -/
  | portFailed (port : Fin 8) (reason : Fin 8)
  /-- PORT_FAILED_RETRY (R506): 10 ms after failing, the port returns to TRAIN. -/
  | portFailedRetry (port : Fin 8)
  /-- PORT_RETRAIN (R506): A write of BYO.PORTn.CTRL.RETRAIN returns the port to TRAIN. -/
  | portRetrain (port : Fin 8)
  /-- HELLO_SEND (R508): Every 10 µs an UP port sends a HELLO cell. -/
  | helloSend (port : Fin 8)
  /-- HELLO_RECEIVE (R508): A HELLO is received and updates the neighbour and the root distance vector. -/
  | helloReceive (port : Fin 8) (serial : Nat) (id : Option (Fin 4096)) (nbrPort : Fin 8) (low : Nat) (dist : Nat)
  /-- LINK_STATE_RECORD (R508): A link-state record is received and stored in the database. -/
  | linkStateRecord (port : Fin 8) (serial : Nat) (id : Option (Fin 4096)) (ver : Nat) (links : List (Fin 8 × Nat × Fin 8))
  /-- ID_ASSIGNMENT (R509): After the root's database has been stable for 100 µs, node IDs are assigned. -/
  | idAssignment (received : Option (Fin 4096)) (reqs : List (Nat × Fin 4096))
  /-- ID_RELEASE (R510): A departed module's ID becomes free after 1 s. -/
  | idRelease (id : Fin 4096)
  /-- ROUTING_INSTALL (R511): A new routing table is computed and installed whole, and event 0x1005 is raised. -/
  | routingInstall
  /-- ROUTE_DATA (R511): A read of BYO.ROUTE_DATA returns an entry and increments ROUTE_ADDR. -/
  | routeData
  /-- P_MESSAGE (R516): A priority epoch or trigger cell is received, checked and delivered. -/
  | pMessage (port : Fin 8) (good : Bool) (epoch : Bool) (hops : Nat) (origin : Fin 4096) (line : Fin 16) (flags : BitVec 7) (t : Tick) (lseq : Word) (elapsed : Nat)
  /-- C_COPY (R518): A control copy of a P message is received; it delivers if it arrives first and detects LSEQ gaps.
  -/
  | cCopy (port : Fin 8) (epoch : Bool) (origin : Fin 4096) (line : Fin 16) (flags : BitVec 7) (t : Tick) (lseq : Word)
  /-- REMOTE_DOORBELL_POLL (R520): While RCTRL.EN is 1, the remote doorbell block is polled and new remote commands are
  sent. -/
  | remoteDoorbellPoll (stores : List (Nat × List Byte)) (failed : Fin 3)
  /-- RCTRL_ENABLE (R520): BYO.RCTRL.EN changes to 1; the remote heads and tails reset. -/
  | rctrlEnable
  /-- REMOTE_COMPLETION (R522): A remote command's completion returns and is written to the remote completion ring. -/
  | remoteCompletion (rseq : Word) (rstat : Fin 4) (result : BitVec 64) (cid : BitVec 16) (status : BitVec 8) (clamped : Bool) (tdec : Tick)
  /-- REMOTE_TIMEOUT (R522): No completion within RTMO µs writes an entry with RSTAT 3. -/
  | remoteTimeout (rseq : Word)
  /-- EXPORT_ELEMENT (R523): An export element is staged and sent as a bulk flow. -/
  | exportElement (xp : Fin 8) (room : Bool)
  /-- RECEIVE_ELEMENT (R524): An export element arrives and is written to a receive ring, marked late or rejected. -/
  | receiveElement (ring : Fin 8) (xp : Fin 8) (kind : Fin 4) (flags : BitVec 7) (loss : Bool) (short : Bool) (origin : Fin 4096) (xseq : Word) (tFirst : Tick) (tLast : Tick) (bhz : Nat) (payload : List Byte)
  /-- BYO_DISABLE (R529): BYO.CTRL.EN = 0 flushes the queued cells and takes every port DOWN. -/
  | byoDisable
  /-- OCXO_READY (R533): After 10 s of unbroken regulation the OCXO_RDY bit sets. -/
  | ocxoReady
  /-- OCXO_LOST (R533): The OCXO loses regulation while in effect; OCXO_RDY clears. -/
  | ocxoLost
  /-- REF_WINDOW (R534): Each 10 ms window of REF_IN is judged, setting or clearing EXT_OK. -/
  | refWindow (amp : Int) (hz : Nat)
  /-- SOURCE_MOVE (R535): While RUN is 0, the core PLL begins moving to the wanted or fallback source. -/
  | sourceMove
  /-- TREAD (R540): A stair-ramp tread of 8 µs ends and the divider steps. -/
  | tread (domain : Option (Fin 104))
  /-- PLL_RELOCK (R540): The core PLL relocks on the new source during a move. -/
  | pllRelock (us : Word)
  /-- PLL_LOSS (R542): A PLL declares loss of lock and enters holdover. -/
  | pllLoss (pll : Fin 4) (present : Bool)
  /-- PLL_LOCK (R542): A PLL in holdover declares lock again. -/
  | pllLock (pll : Fin 4) (us : Word)
  /-- HOLD_LIMIT (R542): A holdover reaches HOLD_LIM seconds and event 0x010A is raised. -/
  | holdLimit (pll : Fin 4)
  /-- PLL_PHASE_STEP (R545): Every 64 output periods a phase group moves one step towards PHASE. -/
  | pllPhaseStep (pll : Fin 4)
  /-- GATE_REQUEST (R547): A write of 1 to a CLK.GATE bit asks for the domain to be gated. -/
  | gateRequest (d : Fin 104)
  /-- IDLE_ACK (R547): The unit acknowledges idle and its domain stops, after a ramp for HR domains. -/
  | idleAck (d : Fin 104)
  /-- GATE_TIMEOUT (R547): No acknowledgement within GATE_TMO µs abandons the gate request. -/
  | gateTimeout (d : Fin 104)
  /-- UNGATE (R548): A write of 0 to a GATE bit restarts the domain. -/
  | ungate (d : Fin 104)
  /-- FREQ_MEASURE (R551): Each 1 ms the selected domain's frequency is measured into FREQ_KHZ. -/
  | freqMeasure (khz : Word)
  /-- START_UP_PHASE (R557): A start-up stage ends and CFG.STATUS.PHASE advances with event 0x1307. -/
  | startUpPhase (railsOk : Bool) (fw0 : Option Nat) (fw1 : Option Nat)
  /-- PERST_DEASSERT (R558): HIF_PERST_N is deasserted and the endpoint starts link training. -/
  | perstDeassert
  /-- MRESET (R567): MRESET_N held low for 100 ns or longer causes a module reset at its release. -/
  | mreset (ns : Nat)
  /-- ENGINE_RESET (R568): RESET.KIND = 1 drains the units and resets the engine. -/
  | engineReset
  /-- MODULE_RESET (R568): RESET.KIND = 2 drains the units and resets the module. -/
  | moduleReset
  /-- RESET_COMPLETE (R568): After the drain or RESET_TMO, the reset takes effect and event 0x1306 is raised. -/
  | resetComplete (timeout : Bool)
  /-- PROG_START (R563): A write of PROG.START programs the staged image to flash. -/
  | progStart
  /-- PROGRAMMING_COMPLETE (R563): The flash write and read-back end, PROG.RESULT is set and event 0x1308 is raised. -/
  | programmingComplete (flashOk : Bool) (fwValid : Bool)
  /-- STANDBY_ENTER (R569): CFG.CTRL.STANDBY = 1 gates quiescent domains and requests self-refresh, or is refused. -/
  | standbyEnter
  /-- STANDBY_LEAVE (R569): STANDBY = 0, or an epoch, ungates the domains and clears SR.REQ. -/
  | standbyLeave
  /-- MONITOR_SAMPLE (R572): Once per second the ageing monitors are sampled. -/
  | monitorSample (values : List Word)
  /-- LEDGER_PERIODIC (R573): Every LEDGER_MIN minutes a KIND 0 ledger entry is written. -/
  | ledgerPeriodic
  /-- REPLAN (R574): A write of 1 to AGE.CTRL.REPLAN starts a margin re-plan. -/
  | replan (plan : PlanIn)
  /-- REPLAN_PERIOD (R574): Every AGE.PERIOD seconds with AUTO set, a re-plan starts. -/
  | replanPeriod (plan : PlanIn)
  /-- RETEST (R574): AGE.RETEST seconds after a takeover, a re-plan starts to retest the channel. -/
  | retest (plan : PlanIn)
  /-- THERMAL_CHECK (R578): Every 1 ms TDIE is compared with the thresholds and the throttle level adjusts. -/
  | thermalCheck (tdie : BitVec 16)
  /-- SHUTDOWN (R579): A write of 1 to AGE.CTRL.SHUTDOWN begins an ordered shutdown, cause 4. -/
  | shutdown
  /-- ORDERED_SHUTDOWN (R579): Stream time stops, every unit drains, the ledger is written and the rails turn off in
  order. -/
  | orderedShutdown
  /-- SHDN_TIMEOUT (R579): After SHDN_TMO ms, units not yet quiescent are listed in event 0x1111 and the shutdown
  proceeds. -/
  | shdnTimeout
  /-- FRONT_END_FAULT (R581): A residue or symbol check detects a front-end fault and its undelivered outputs are
  discarded. -/
  | frontEndFault (pipe : Fin 5) (need : Tick)
  /-- CATCH_UP_END (R585): The staged outputs are drained; OFFSET returns to 0, CHS is freed and event 0x1122 is raised.
  -/
  | catchUpEnd (ch : Fin 4)
  /-- BEAT_RELEASE (R100): In each ICLK period every channel releases one 16-tick beat at the ingest point, which
  advances stream time and feeds the replay window, the corrected stream, the filters and the comparators. -/
  | beatRelease (beat : List (List (Code16 × Code16)))
  /-- LANE_LOCK_LOST (R96): A used lane in CDR, SHLOCK or EMBLOCK loses its signal, its sync-header lock or its pilot
  pattern and returns to CDR at once, without an event. -/
  | laneLockLost (lane : Fin 64)
  /-- PASS_WALK_END (R266): The walk of a density pass that decays or clears the plane without a snapshot ends, so
  WALKING clears. -/
  | passWalkEnd (ch : Fin 4)
  /-- EPOCH_MESSAGE_SEND (R33): Half a SYSREF period after the capture that follows a BROADCAST, the root sends the
  epoch message in the fixed-latency class. -/
  | epochMessageSend
  /-- RAIL_LEAVES_REGULATION (R66): A rail leaves regulation and PGOOD is pulled low within 5 µs. -/
  | railLeavesRegulation (rail : Fin 10)
  /-- FIRST_PASS_START (R363): At the effective start time T, or at the first grid point after an accepted request of an
  armed engine, the engine's first pass begins and its outputs leave the idle values. -/
  | firstPassStart (engine : Fin 2)
deriving DecidableEq, Repr

end Sys2Proof
end

