-- ==== Sys2Proof/Decode.lean ====
section
/-! DEFINITION. Words of the opcode table. Its rows give no bits: the commands are events and register accesses, not
encodings (log 1). The decoder of the Cykin cores' own instruction words stands in `Machine/CykCode.lean`. -/

namespace Sys2Proof

/-- The command that a word spells by the table's bits: the table gives none. -/
def decodeTableWord (_nbits _w : Nat) : Option Instr := none

end Sys2Proof
end

