-- ==== Sys2Proof/Machine/Assoc.lean ====
section
/-! DEFINITION. Sparse maps from natural keys as lists of pairs in one canonical form: keys strictly rising and no
entry equal to what an unlisted key reads as. Registers, memory and the tables of the units use them. -/

namespace Sys2Proof.Machine

/-- The value at a key: the listed one, else the default `d`. -/
def Assoc.get {α : Type} (d : α) : List (Nat × α) → Nat → α
  | [], _ => d
  | (k', v) :: m, k => if k' = k then v else Assoc.get d m k

/-- The entries whose key is not `k`. -/
def Assoc.erase {α : Type} (k : Nat) : List (Nat × α) → List (Nat × α)
  | [] => []
  | (k', v) :: m => if k' = k then Assoc.erase k m else (k', v) :: Assoc.erase k m

/-- An entry put before the first larger key. -/
def Assoc.insert {α : Type} (k : Nat) (v : α) : List (Nat × α) → List (Nat × α)
  | [] => [(k, v)]
  | (k', v') :: m => if k < k' then (k, v) :: (k', v') :: m else (k', v') :: Assoc.insert k v m

/-- The map with `v` at `k`; the default `d` of the key is not listed. -/
def Assoc.put {α : Type} [DecidableEq α] (d : α) (m : List (Nat × α)) (k : Nat) (v : α) : List (Nat × α) :=
  if v = d then Assoc.erase k m else Assoc.insert k v (Assoc.erase k m)

/-- Keys strictly above a bound and strictly rising, and no listed value is its key's default. -/
def Assoc.wfFrom {α : Type} [DecidableEq α] (dflt : Nat → α) : Option Nat → List (Nat × α) → Bool
  | _, [] => true
  | none, (k, v) :: m => decide (v ≠ dflt k) && Assoc.wfFrom dflt (some k) m
  | some b, (k, v) :: m => decide (b < k) && decide (v ≠ dflt k) && Assoc.wfFrom dflt (some k) m

/-- The canonical form. -/
def Assoc.wf {α : Type} [DecidableEq α] (dflt : Nat → α) (m : List (Nat × α)) : Bool := Assoc.wfFrom dflt none m

end Sys2Proof.Machine
end

