-- ==== Sys2Proof/Config.lean ====
section
/-! DEFINITION. What one module fixes and the spec does not: its ordering code, the values its factory wrote, and the
free values, each an opaque constant without a body so that no proof can see what it is. -/

namespace Sys2Proof.Config

/-- Whether the module is a TGN-4410-E; a TGN-4410-C otherwise (R1). -/
opaque isExtended : Bool

/-- The ordering code SYS.ID.CODE reads: ASCII "C" or "E" (R2). -/
def orderingCode : Nat := if isExtended then 0x45 else 0x43

/-- The path delay of each Tally input in picoseconds, measured at manufacture (R382). -/
opaque factoryDelay : Nat → Nat

/-- TLY.EVk.TIN at reset: the factory delay in 1/256 tick at the reset rate of 25.6 GS/s (R382, R595). -/
def factoryTin (k : Nat) : Nat := factoryDelay k * 256 * 25600000 / 1000000000 % 65536

/-- The serial number of the identity block (R554, R595). -/
opaque factorySerial : Nat

/-- AGE.SPMV, slack per millivolt in 1/16 ps, from the identity block (R591, R595). -/
opaque factorySpmv : Nat

/-- The hash mask drawn under R480 at the start-up that led to the reset state (R595, "drawn"). -/
opaque resetSeed : Nat

/-- The factory frequency of ageing monitor m in kHz, from the identity block (R554, R573). -/
opaque factoryRo : Nat → Nat

/-- The projection of R577: floor(a + b·log2(LIFE_H·60)) of the least-squares line through the ledger's (POM, NOW)
points, in binary64; the manual does not fix the order of its operations. Arguments: the points and LIFE_H. -/
opaque ledgerFit : List (Nat × Int) → Nat → Int

/-- Whether an MRESET_N pulse from 90 ns to 100 ns resets the module (R567), by the model's counter of free values. -/
opaque shortReset : Nat → Bool

/-- The hash mask drawn at a later start-up (R480), by the model's counter of free values. -/
opaque drawnSeed : Nat → Nat

/-- The 31-tap antisymmetric differentiator of R115, whose taps the manual does not list: its output, with 15 fraction
bits, for the 31 samples from t − 15 to t + 15. -/
opaque differentiator : List Int → Int

/-- The 64-tap fractional-delay filter of R115, whose taps the manual does not list: its output for phase 1 to 255 and
64 corrected samples. -/
opaque interpolator : Nat → List Int → Int

/-- What the estimator of R119, R122 and R123 answers in binary64; the manual does not fix the order of its sums. -/
structure Estimate where
  /-- floor(o_hat·32,768), floor(g·g_hat), floor(tau_hat·65,536), floor(b_hat·32,768), by sub-converter -/
  dOfs : List Int
  gain : List Int
  dSkew : List Int
  dBw : List Int
  /-- the conditions of codes 1, 2, 5 and 6 of R121 -/
  lowPower : Bool
  unsteady : Bool
  flat : Bool
  open_ : Bool
  /-- floor((k + f)·256) of R122, none where no peak is usable -/
  delay : Option Int
  /-- floor(1,280·log10(err)) of R123, none where err is 0 -/
  spur : Option Int
deriving DecidableEq, Repr, Inhabited

/-- The estimator: Q, the sub-converter of the window's first tick, the trial gains, the window's samples before the
delay stage, and the corrected outputs of the reference channel and of the channel over it. -/
opaque estimator : Nat → Nat → List Int → List (Int × Int) → List (Int × Int) → List (Int × Int) → Estimate

/-- DRVn.STATUS.REASON of a drive that failed under R329, for which the manual gives no number: by port and opcode. -/
opaque failReason : Nat → Nat → BitVec 4

/-- N and FOUT_KHZ of the stimulus PLL, for which the manual gives no rule (R537), by ING.FS_KHZ and the transmit mode. -/
opaque stimulusN : Nat → Nat → BitVec 12
opaque stimulusKhz : Nat → Nat → BitVec 32

/-- How much of a transfer had been written when it was cut short (R473, R475): the manual gives no time for a beat. By
the model's counter of free values. -/
opaque beatsDone : Nat → Nat

/-- How many beats beyond the one it writes a Porter channel has staged, 0 to 63 of its 4 KiB (R466): the manual gives no
time for its reads. By the model's counter of free values. -/
opaque readAhead : Nat → Nat

/-- The transmit lanes found open when a register write sets WVR.CTRL.EN, and the phase counts collected when one sets
TLY.TCAL.REQ: what the module then measures comes with no operand (R371, R390). By the model's counter of free values. -/
opaque openLanes : Nat → BitVec 16
opaque phaseCounts : Nat → Nat → List Nat

/-- What the analogue measurements of a re-plan find when a register write starts it (R574, R575, R587): they come with no
operand. By the model's counter of free values. -/
opaque planIn : Nat → PlanIn

/-- AGE.POM at reset: the ledger of the reset state is blank, so no power-on minute is counted yet (R573). -/
def ledgerPom : Nat := 0

/-- AGE.LSEQ at reset: the ledger of the reset state is blank (R573). -/
def ledgerSeq : Nat := 0

/-- The floor of memory port p in 0.1 GB/s (the table of R483). -/
def portFloor (p : Nat) : Nat := [2560, 800, 4096, 1680, 512, 200, 2048, 800, 2128, 160].getD p 0

/-- The least legal floor of memory port p in 0.1 GB/s (the table of R483). -/
def portFloorMin (p : Nat) : Nat := [2560, 800, 4096, 1680, 16, 200, 16, 800, 16, 16].getD p 0

end Sys2Proof.Config
end

