-- ==== Sys2Proof/Machine/RegMap.lean ====
section
/-! DEFINITION. The register map of chapter 23 (R594 to R600) with every register's fields as the chapters' own
register tables list them: bit range, access code of R12, legal range of R17 to R19, reset value of R595, the rule
that protects the field while its unit is in use (R614), and the 64-bit pairs of R14 and R16. The tables below are
data; `Machine/Ops.lean` and `Machine/Bus.lean` say what a read or a write does with them. -/

namespace Sys2Proof.Machine

/-- The access codes of R12. -/
inductive Access where
  | rw | ro | wo | w1c | rwp
deriving DecidableEq, Repr

/-- The legal values of a field that do not depend on other state (R17 to R19). A range that depends on other fields
is applied by the unit's own re-clamp after the write (R112). -/
inductive Legal where
  /-- every value of the field's width -/
  | any
  /-- the values from lo to hi; the nearest is taken (R17) -/
  | range (lo hi : Nat)
  /-- the values from lo upwards -/
  | atLeast (lo : Nat)
  /-- the multiples of m from lo to hi; the nearest is taken, the lower of two equally near (R18) -/
  | mult (m lo hi : Nat)
  /-- the powers of two from lo to hi, nearest first, the lower of two equally near (R18) -/
  | pow2 (lo hi : Nat)
  /-- the odd values from lo to hi (R163) -/
  | odd (lo hi : Nat)
  /-- the encodings 0 to hi; a reserved encoding takes the reset value (R19) -/
  | enum (hi : Nat)
  /-- every two-bit part of the field is a field of its own with values 0 to hi (R183) -/
  | pairs2 (hi : Nat)
  /-- −550 to 1,500 as a signed 16-bit value, or 0x8000 (ASY.CONV_TEMP) -/
  | convTemp
  /-- 16 to 32,768, with 32,768 encoded as 0 (TSk.PER) -/
  | per
  /-- the trigger source codes that R200 assigns; a reserved code takes the reset value (R19) -/
  | trgSrc
  /-- the BAR2 windows of R450: multiples of 256 MiB up to 0x0017_F000_0000, and 0x0100_0000_0000 -/
  | bar2
deriving DecidableEq, Repr

/-- Which rule lets a field be written only while its unit is idle (R614). -/
inductive Prot where
  | none
  /-- R111: while ING.CTRL.EN is 0 -/
  | ing
  /-- R140: while ASY.CTRL.EN is 0 -/
  | asy
  /-- R154: while the wideband downconverter is stopped -/
  | ddc
  /-- R154: while the zoom channel is stopped -/
  | zc
  /-- R196: while the trace's EN is 0 -/
  | tr
  /-- R273: while the spectrogram's EN is 0 -/
  | sg
  /-- R300: while Gallery is disabled and quiescent -/
  | gal
  /-- R331: while Scrivener is IDLE -/
  | scr
  /-- R367: while Weaver is disabled and quiescent -/
  | wvr
  /-- R425: while the core is RESET or HALTED -/
  | core
  /-- R454: while HIF is disabled and quiescent -/
  | hif
  /-- R520: while RCTRL.EN is 0 -/
  | rctrl
  /-- R530: while RXr.CTRL.EN is 0 -/
  | rx
  /-- R538: while the user of the PLL is disabled -/
  | pll
deriving DecidableEq, Repr

/-- One field of a register: bits [hi:lo], access, legal range, reset value and protection. -/
structure FieldDesc where
  hi : Nat
  lo : Nat
  acc : Access
  legal : Legal
  rst : Nat
  prot : Prot
deriving DecidableEq, Repr

/-- Whether a register is a single word or one word of a 64-bit pair (R14, R16). -/
inductive PairRole where
  | single
  /-- the low word; the legal values of the whole 64-bit value -/
  | low (legal : Legal)
  /-- the high word -/
  | high
deriving DecidableEq, Repr

/-- One register of the map: the BAR0 offset of its first instance, the counts and strides of its arrays, its fields
from high to low, its reset word by instance (R595) and its place in a pair. -/
structure RegDesc where
  off : Nat
  n1 : Nat
  s1 : Nat
  n2 : Nat
  s2 : Nat
  pair : PairRole
  fields : List FieldDesc
  rst : Nat → Nat → Nat

/-- The instance of the register at a BAR0 offset, if the offset is one of its instances. -/
def RegDesc.instAt (d : RegDesc) (off : Nat) : Option (Nat × Nat) :=
  if off < d.off then none
  else
    let r := off - d.off
    let i := if d.n1 = 1 then 0 else r / d.s1
    let r2 := if d.n1 = 1 then r else r % d.s1
    let j := if d.n2 = 1 then 0 else r2 / d.s2
    let r3 := if d.n2 = 1 then r2 else r2 % d.s2
    if i < d.n1 ∧ j < d.n2 ∧ r3 = 0 then some (i, j) else none

/-- The width of a field. -/
def FieldDesc.width (f : FieldDesc) : Nat := f.hi + 1 - f.lo

namespace RegMap

/-- The registers of the unit SYS, part 1 (R594, R595). -/
def sysRegs0 : List RegDesc := [
  -- SYS_ID: R597
  ⟨0x0, 1, 1, 1, 1, .single,
    [⟨31, 16, .ro, .any, 17424, .none⟩, 
     ⟨15, 8, .ro, .any, 1, .none⟩, 
     ⟨7, 0, .ro, .any, 67, .none⟩], fun _ _ => 0x44100100 + Config.orderingCode⟩,
  -- SYS_FW_VER: R597
  ⟨0x4, 1, 1, 1, 1, .single,
    [⟨31, 16, .ro, .any, 0, .none⟩, 
     ⟨15, 0, .ro, .any, 0, .none⟩], fun _ _ => 0x0⟩,
  -- SYS_CLAMP_COUNT: R597
  ⟨0x10, 1, 1, 1, 1, .single,
    [⟨31, 0, .ro, .any, 0, .none⟩], fun _ _ => 0x0⟩,
  -- SYS_CLAMP_CLEAR: R597
  ⟨0x14, 1, 1, 1, 1, .single,
    [⟨0, 0, .wo, .any, 0, .none⟩], fun _ _ => 0x0⟩,
  -- SYS_ST_NOW_LO: R28
  ⟨0x100, 1, 1, 1, 1, .low .any,
    [⟨31, 0, .ro, .any, 0, .none⟩], fun _ _ => 0x0⟩,
  -- SYS_ST_NOW_HI: R28
  ⟨0x104, 1, 1, 1, 1, .high,
    [⟨31, 0, .ro, .any, 0, .none⟩], fun _ _ => 0x0⟩,
  -- SYS_EPOCH_LO: R37
  ⟨0x108, 1, 1, 1, 1, .low .any,
    [⟨31, 0, .rw, .any, 0, .none⟩], fun _ _ => 0x0⟩,
  -- SYS_EPOCH_HI: R37
  ⟨0x10c, 1, 1, 1, 1, .high,
    [⟨31, 0, .rw, .any, 0, .none⟩], fun _ _ => 0x0⟩,
  -- SYS_EPOCH_CTRL: R37
  ⟨0x110, 1, 1, 1, 1, .single,
    [⟨2, 2, .wo, .any, 0, .none⟩, 
     ⟨1, 1, .wo, .any, 0, .none⟩, 
     ⟨0, 0, .wo, .any, 0, .none⟩], fun _ _ => 0x0⟩,
  -- SYS_ST_STATUS: R37
  ⟨0x114, 1, 1, 1, 1, .single,
    [⟨5, 5, .w1c, .any, 0, .none⟩, 
     ⟨4, 4, .w1c, .any, 0, .none⟩, 
     ⟨3, 3, .ro, .any, 0, .none⟩, 
     ⟨2, 1, .ro, .any, 0, .none⟩, 
     ⟨0, 0, .ro, .any, 0, .none⟩], fun _ _ => 0x0⟩,
  -- SYS_LANDING_CFG: R45
  ⟨0x118, 1, 1, 1, 1, .single,
    [⟨4, 0, .rwp, .range 12 24, 16, .none⟩], fun _ _ => 0x10⟩,
  -- SYS_LAND_CTRL: R45
  ⟨0x11c, 1, 1, 1, 1, .single,
    [⟨17, 17, .w1c, .any, 0, .none⟩, 
     ⟨16, 16, .rw, .any, 0, .none⟩, 
     ⟨12, 0, .ro, .any, 0, .none⟩], fun _ _ => 0x0⟩,
  -- SYS_NEXT_LAND_LO: R45
  ⟨0x120, 1, 1, 1, 1, .low .any,
    [⟨31, 0, .ro, .any, 0, .none⟩], fun _ _ => 0x0⟩,
  -- SYS_NEXT_LAND_HI: R45
  ⟨0x124, 1, 1, 1, 1, .high,
    [⟨31, 0, .ro, .any, 0, .none⟩], fun _ _ => 0x0⟩,
  -- SYS_STU_EXTEND: R52
  ⟨0x128, 1, 1, 1, 1, .single,
    [⟨31, 0, .rw, .any, 65536, .none⟩], fun _ _ => 0x10000⟩,
  -- SYS_DFLAG_STICKY: R54
  ⟨0x12c, 1, 1, 1, 1, .single,
    [⟨6, 0, .w1c, .any, 0, .none⟩], fun _ _ => 0x0⟩]

/-- The registers of the unit SYS (R594). -/
def sysRegs : List RegDesc := sysRegs0

/-- The registers of the unit CLK, part 1 (R594, R595). -/
def clkRegs0 : List RegDesc := [
  -- CLK_SRC: R551
  ⟨0x10000, 1, 1, 1, 1, .single,
    [⟨10, 10, .ro, .any, 0, .none⟩, 
     ⟨9, 8, .ro, .any, 0, .none⟩, 
     ⟨4, 4, .rw, .any, 1, .none⟩, 
     ⟨1, 0, .rw, .any, 1, .none⟩], fun _ _ => 0x11⟩,
  -- CLK_STATUS: R551
  ⟨0x10004, 1, 1, 1, 1, .single,
    [⟨3, 3, .ro, .any, 0, .none⟩, 
     ⟨2, 2, .ro, .any, 0, .none⟩, 
     ⟨1, 1, .ro, .any, 0, .none⟩, 
     ⟨0, 0, .ro, .any, 0, .none⟩], fun _ _ => 0x0⟩,
  -- CLK_HOLD_LIM: R551
  ⟨0x10008, 1, 1, 1, 1, .single,
    [⟨11, 0, .rw, .range 1 3600, 10, .none⟩], fun _ _ => 0xa⟩,
  -- CLK_GATE_TMO: R551
  ⟨0x1000c, 1, 1, 1, 1, .single,
    [⟨13, 0, .rw, .range 1 10000, 100, .none⟩], fun _ _ => 0x64⟩,
  -- CLK_GATE: R551
  ⟨0x10010, 4, 4, 1, 1, .single,
    [⟨31, 0, .rw, .any, 0, .none⟩], fun _ _ => 0x0⟩,
  -- CLK_GSTAT: R551
  ⟨0x10020, 4, 4, 1, 1, .single,
    [⟨31, 0, .ro, .any, 0, .none⟩], fun _ _ => 0x0⟩,
  -- CLK_GATED_ACC: R551
  ⟨0x10030, 1, 1, 1, 1, .single,
    [⟨31, 0, .ro, .any, 0, .none⟩], fun _ _ => 0x0⟩,
  -- CLK_CNT_CLEAR: R551
  ⟨0x10034, 1, 1, 1, 1, .single,
    [⟨0, 0, .wo, .any, 0, .none⟩], fun _ _ => 0x0⟩,
  -- CLK_CLKOUT: R551
  ⟨0x10040, 1, 1, 1, 1, .single,
    [⟨31, 31, .rw, .any, 0, .none⟩, 
     ⟨6, 0, .rw, .range 0 103, 8, .none⟩], fun _ _ => 0x8⟩,
  -- CLK_CLKOUT_DIV: R551
  ⟨0x10044, 1, 1, 1, 1, .single,
    [⟨16, 0, .rw, .range 1 65536, 4, .none⟩], fun _ _ => 0x4⟩,
  -- CLK_FREQ_SEL: R551
  ⟨0x10048, 1, 1, 1, 1, .single,
    [⟨6, 0, .rw, .range 0 103, 0, .none⟩], fun _ _ => 0x0⟩,
  -- CLK_FREQ_KHZ: R551
  ⟨0x1004c, 1, 1, 1, 1, .single,
    [⟨31, 0, .ro, .any, 0, .none⟩], fun _ _ => 0x0⟩]

/-- The registers of the unit CLK (R594). -/
def clkRegs : List RegDesc := clkRegs0

/-- The registers of the unit PLL, part 1 (R594, R595). -/
def pllRegs0 : List RegDesc := [
  -- PLL_CTRL: R551
  ⟨0x20000, 4, 64, 1, 1, .single,
    [⟨1, 0, .rw, .any, 0, .pll⟩], fun _ _ => 0x0⟩,
  -- PLL_STATUS: R551
  ⟨0x20004, 4, 64, 1, 1, .single,
    [⟨2, 2, .ro, .any, 0, .none⟩, 
     ⟨1, 1, .ro, .any, 0, .none⟩, 
     ⟨0, 0, .ro, .any, 0, .none⟩], fun _ _ => 0x0⟩,
  -- PLL_DIV: R551
  ⟨0x20008, 4, 64, 1, 1, .single,
    [⟨27, 16, .ro, .any, 0, .none⟩, 
     ⟨15, 8, .ro, .any, 0, .none⟩, 
     ⟨6, 0, .ro, .any, 1, .none⟩], fun _ _ => 0x1⟩,
  -- PLL_PHASE: R551
  ⟨0x2000c, 4, 64, 1, 1, .single,
    [⟨7, 0, .rw, .any, 0, .none⟩], fun _ _ => 0x0⟩,
  -- PLL_PHASE_ACT: R551
  ⟨0x20010, 4, 64, 1, 1, .single,
    [⟨7, 0, .ro, .any, 0, .none⟩], fun _ _ => 0x0⟩,
  -- PLL_HOLDS: R551
  ⟨0x20014, 4, 64, 1, 1, .single,
    [⟨31, 0, .ro, .any, 0, .none⟩], fun _ _ => 0x0⟩,
  -- PLL_FOUT_KHZ: R551
  ⟨0x20018, 4, 64, 1, 1, .single,
    [⟨31, 0, .ro, .any, 0, .none⟩], fun _ _ => 0x0⟩]

/-- The registers of the unit PLL (R594). -/
def pllRegs : List RegDesc := pllRegs0

/-- The registers of the unit ING, part 1 (R594, R595). -/
def ingRegs0 : List RegDesc := [
  -- ING_CTRL: R112
  ⟨0x30000, 1, 1, 1, 1, .single,
    [⟨7, 4, .rw, .any, 15, .ing⟩, 
     ⟨3, 3, .rw, .any, 1, .ing⟩, 
     ⟨2, 2, .wo, .any, 0, .none⟩, 
     ⟨0, 0, .rw, .any, 0, .none⟩], fun _ _ => 0xf8⟩,
  -- ING_MODE: R112
  ⟨0x30004, 1, 1, 1, 1, .single,
    [⟨9, 8, .rw, .any, 0, .ing⟩, 
     ⟨5, 4, .rw, .any, 2, .ing⟩, 
     ⟨2, 0, .rw, .any, 0, .ing⟩], fun _ _ => 0x20⟩,
  -- ING_FS_KHZ: R112
  ⟨0x30008, 1, 1, 1, 1, .single,
    [⟨31, 0, .rw, .any, 25600000, .ing⟩], fun _ _ => 0x186a000⟩,
  -- ING_SR_CFG: R112
  ⟨0x3000c, 1, 1, 1, 1, .single,
    [⟨23, 8, .rw, .any, 8, .ing⟩, 
     ⟨0, 0, .rw, .any, 1, .ing⟩], fun _ _ => 0x801⟩,
  -- ING_SR_PHASE: R112
  ⟨0x30010, 1, 1, 1, 1, .single,
    [⟨17, 17, .ro, .any, 0, .none⟩, 
     ⟨16, 16, .ro, .any, 0, .none⟩, 
     ⟨15, 8, .ro, .any, 0, .none⟩, 
     ⟨7, 0, .rw, .any, 0, .none⟩], fun _ _ => 0x0⟩,
  -- ING_SR_STATUS: R112
  ⟨0x30014, 1, 1, 1, 1, .single,
    [⟨31, 16, .ro, .any, 0, .none⟩, 
     ⟨2, 2, .ro, .any, 0, .none⟩, 
     ⟨1, 1, .ro, .any, 0, .none⟩], fun _ _ => 0x0⟩,
  -- ING_RBD: R112
  ⟨0x30018, 1, 1, 1, 1, .single,
    [⟨31, 16, .ro, .any, 64, .none⟩, 
     ⟨9, 0, .rw, .any, 0, .ing⟩], fun _ _ => 0x400000⟩,
  -- ING_CH_STATUS: R112
  ⟨0x3001c, 1, 1, 1, 1, .single,
    [⟨19, 16, .w1c, .any, 0, .none⟩, 
     ⟨15, 0, .ro, .any, 0, .none⟩], fun _ _ => 0x0⟩,
  -- ING_ARR: R112
  ⟨0x30020, 4, 4, 1, 1, .single,
    [⟨31, 16, .ro, .any, 0, .none⟩, 
     ⟨15, 0, .ro, .any, 0, .none⟩], fun _ _ => 0x0⟩,
  -- ING_LSTATE: R112
  ⟨0x30030, 8, 4, 1, 1, .single,
    [⟨31, 0, .ro, .any, 0, .none⟩], fun _ _ => 0x0⟩,
  -- ING_POL_INV_LO: R112
  ⟨0x30050, 1, 1, 1, 1, .single,
    [⟨31, 0, .ro, .any, 0, .none⟩], fun _ _ => 0x0⟩,
  -- ING_POL_INV_HI: R112
  ⟨0x30054, 1, 1, 1, 1, .single,
    [⟨31, 0, .ro, .any, 0, .none⟩], fun _ _ => 0x0⟩,
  -- ING_CRC_LIMIT: R112
  ⟨0x30058, 1, 1, 1, 1, .single,
    [⟨7, 0, .rw, .range 1 255, 16, .none⟩], fun _ _ => 0x10⟩,
  -- ING_ERR: R112
  ⟨0x30060, 4, 4, 1, 1, .single,
    [⟨31, 16, .ro, .any, 0, .none⟩, 
     ⟨15, 0, .ro, .any, 0, .none⟩], fun _ _ => 0x0⟩,
  -- ING_ERR_CLEAR: R112
  ⟨0x30070, 1, 1, 1, 1, .single,
    [⟨0, 0, .wo, .any, 0, .none⟩], fun _ _ => 0x0⟩,
  -- ING_RW_OLDEST_LO: R112
  ⟨0x30080, 1, 1, 1, 1, .low .any,
    [⟨31, 0, .ro, .any, 0, .none⟩], fun _ _ => 0x0⟩,
  -- ING_RW_OLDEST_HI: R112
  ⟨0x30084, 1, 1, 1, 1, .high,
    [⟨31, 0, .ro, .any, 0, .none⟩], fun _ _ => 0x0⟩,
  -- ING_RW_SPAN: R112
  ⟨0x30088, 1, 1, 1, 1, .single,
    [⟨31, 0, .ro, .any, 2097152, .none⟩], fun _ _ => 0x200000⟩]

/-- The registers of the unit ING (R594). -/
def ingRegs : List RegDesc := ingRegs0

/-- The registers of the unit ASY, part 1 (R594, R595). -/
def asyRegs0 : List RegDesc := [
  -- ASY_CTRL: R140
  ⟨0x40000, 1, 1, 1, 1, .single,
    [⟨12, 12, .wo, .any, 0, .none⟩, 
     ⟨11, 8, .wo, .any, 0, .none⟩, 
     ⟨7, 4, .rwp, .any, 15, .none⟩, 
     ⟨3, 3, .rw, .any, 1, .none⟩, 
     ⟨0, 0, .rw, .any, 1, .none⟩], fun _ _ => 0xf9⟩,
  -- ASY_CFG: R140
  ⟨0x40004, 1, 1, 1, 1, .single,
    [⟨22, 16, .rw, .range 1 64, 1, .asy⟩, 
     ⟨12, 8, .rw, .range 16 24, 20, .none⟩, 
     ⟨7, 4, .rw, .any, 15, .none⟩, 
     ⟨3, 0, .rw, .range 1 8, 8, .none⟩], fun _ _ => 0x114f8⟩,
  -- ASY_TEMP: R140
  ⟨0x40008, 1, 1, 1, 1, .single,
    [⟨7, 0, .rw, .range 5 200, 40, .none⟩], fun _ _ => 0x28⟩,
  -- ASY_XREF: R140
  ⟨0x4000c, 1, 1, 1, 1, .single,
    [⟨5, 4, .rw, .any, 0, .none⟩, 
     ⟨3, 0, .rw, .any, 0, .none⟩], fun _ _ => 0x0⟩,
  -- ASY_CONV_TEMP: R140
  ⟨0x40010, 4, 4, 1, 1, .single,
    [⟨15, 0, .rw, .convTemp, 32768, .none⟩], fun _ _ => 0x8000⟩,
  -- ASY_DLY: R140
  ⟨0x40020, 4, 4, 1, 1, .single,
    [⟨13, 0, .ro, .any, 8192, .none⟩], fun _ _ => 0x2000⟩,
  -- ASY_STATUS: R140
  ⟨0x40030, 1, 1, 1, 1, .single,
    [⟨31, 31, .ro, .any, 1, .none⟩, 
     ⟨20, 20, .w1c, .any, 0, .none⟩, 
     ⟨19, 18, .ro, .any, 0, .none⟩, 
     ⟨17, 16, .ro, .any, 0, .none⟩, 
     ⟨15, 12, .ro, .any, 0, .none⟩, 
     ⟨11, 8, .ro, .any, 0, .none⟩, 
     ⟨7, 4, .ro, .any, 0, .none⟩, 
     ⟨2, 0, .ro, .any, 0, .none⟩], fun _ _ => 0x80000000⟩,
  -- ASY_RESULT: R140
  ⟨0x40040, 4, 4, 1, 1, .single,
    [⟨23, 20, .ro, .any, 0, .none⟩, 
     ⟨19, 0, .ro, .any, 0, .none⟩], fun _ _ => 0x0⟩,
  -- ASY_QUAL: R140
  ⟨0x40050, 4, 4, 1, 1, .single,
    [⟨19, 16, .ro, .any, 0, .none⟩, 
     ⟨15, 0, .ro, .any, 32768, .none⟩], fun _ _ => 0x8000⟩,
  -- ASY_CSID: R140
  ⟨0x40060, 4, 4, 1, 1, .single,
    [⟨31, 0, .ro, .any, 64, .none⟩], fun _ _ => 0x40⟩,
  -- ASY_RUN_NO: R140
  ⟨0x40070, 1, 1, 1, 1, .single,
    [⟨31, 0, .ro, .any, 0, .none⟩], fun _ _ => 0x0⟩,
  -- ASY_TREF: R140
  ⟨0x40080, 4, 4, 1, 1, .single,
    [⟨31, 16, .ro, .any, 32768, .none⟩, 
     ⟨15, 0, .ro, .any, 32768, .none⟩], fun _ _ => 0x80008000⟩,
  -- ASY_HIST: R140
  ⟨0x400a0, 4, 4, 1, 1, .single,
    [⟨31, 0, .ro, .any, 0, .none⟩], fun _ _ => 0x0⟩,
  -- ASY_SAT: R140
  ⟨0x400b0, 4, 4, 1, 1, .single,
    [⟨15, 0, .ro, .any, 0, .none⟩], fun _ _ => 0x0⟩,
  -- ASY_SAT_CLEAR: R140
  ⟨0x400c0, 1, 1, 1, 1, .single,
    [⟨0, 0, .wo, .any, 0, .none⟩], fun _ _ => 0x0⟩,
  -- ASY_LOG_BASE_LO: R140
  ⟨0x400d0, 1, 1, 1, 1, .low (.mult 4096 0 0x17ffffffff),
    [⟨31, 0, .rw, .any, 0, .none⟩], fun _ _ => 0x0⟩,
  -- ASY_LOG_BASE_HI: R140
  ⟨0x400d4, 1, 1, 1, 1, .high,
    [⟨31, 0, .rw, .any, 0, .none⟩], fun _ _ => 0x0⟩,
  -- ASY_LOG_SIZE: R140
  ⟨0x400d8, 1, 1, 1, 1, .single,
    [⟨15, 0, .rw, .range 16 65535, 256, .none⟩], fun _ _ => 0x100⟩,
  -- ASY_LOG_WR: R140
  ⟨0x400dc, 1, 1, 1, 1, .single,
    [⟨15, 0, .ro, .any, 0, .none⟩], fun _ _ => 0x0⟩,
  -- ASY_LOG_RD: R140
  ⟨0x400e0, 1, 1, 1, 1, .single,
    [⟨15, 0, .rw, .any, 0, .none⟩], fun _ _ => 0x0⟩,
  -- ASY_EYE: R140
  ⟨0x40100, 16, 4, 1, 1, .single,
    [⟨31, 0, .ro, .any, 4294967295, .none⟩], fun _ _ => 0xffffffff⟩]

/-- The registers of the unit ASY (R594). -/
def asyRegs : List RegDesc := asyRegs0

/-- The registers of the unit DDC, part 1 (R594, R595). -/
def ddcRegs0 : List RegDesc := [
  -- DDC_CTRL: R167
  ⟨0x50000, 4, 256, 1, 1, .single,
    [⟨11, 8, .rw, .range 0 8, 1, .ddc⟩, 
     ⟨7, 4, .rw, .range 0 8, 0, .ddc⟩, 
     ⟨0, 0, .rwp, .any, 0, .none⟩], fun _ _ => 0x100⟩,
  -- DDC_FTW_LO: R167
  ⟨0x50004, 4, 256, 1, 1, .low .any,
    [⟨31, 0, .rwp, .any, 0, .none⟩], fun _ _ => 0x0⟩,
  -- DDC_FTW_HI: R167
  ⟨0x50008, 4, 256, 1, 1, .high,
    [⟨15, 0, .rwp, .any, 0, .none⟩], fun _ _ => 0x0⟩,
  -- DDC_POFF_LO: R167
  ⟨0x5000c, 4, 256, 1, 1, .low .any,
    [⟨31, 0, .rwp, .any, 0, .none⟩], fun _ _ => 0x0⟩,
  -- DDC_POFF_HI: R167
  ⟨0x50010, 4, 256, 1, 1, .high,
    [⟨15, 0, .rwp, .any, 0, .none⟩], fun _ _ => 0x0⟩,
  -- DDC_STATUS: R167
  ⟨0x50014, 4, 256, 1, 1, .single,
    [⟨31, 31, .ro, .any, 1, .none⟩, 
     ⟨1, 1, .ro, .any, 0, .none⟩, 
     ⟨0, 0, .ro, .any, 0, .none⟩], fun _ _ => 0x80000000⟩,
  -- DDC_GDELAY: R167
  ⟨0x50018, 4, 256, 1, 1, .single,
    [⟨15, 0, .ro, .any, 79, .none⟩], fun _ _ => 0x4f⟩,
  -- DDC_SAT: R167
  ⟨0x5001c, 4, 256, 1, 1, .single,
    [⟨15, 0, .ro, .any, 0, .none⟩], fun _ _ => 0x0⟩,
  -- DDC_COEF: R167
  ⟨0x50040, 4, 256, 17, 4, .single,
    [⟨19, 0, .rw, .any, 0, .ddc⟩], fun _ j => if j = 16 then 0x40000 else 0⟩,
  -- ZB_SAT_CLEAR: R167
  ⟨0x50800, 1, 1, 1, 1, .single,
    [⟨0, 0, .wo, .any, 0, .none⟩], fun _ _ => 0x0⟩,
  -- ZB_STATUS: R167
  ⟨0x50804, 1, 1, 1, 1, .single,
    [⟨31, 31, .ro, .any, 1, .none⟩], fun _ _ => 0x80000000⟩,
  -- ZB_RUN_LO: R167
  ⟨0x50808, 1, 1, 1, 1, .single,
    [⟨31, 0, .ro, .any, 0, .none⟩], fun _ _ => 0x0⟩,
  -- ZB_RUN_HI: R167
  ⟨0x5080c, 1, 1, 1, 1, .single,
    [⟨31, 0, .ro, .any, 0, .none⟩], fun _ _ => 0x0⟩,
  -- ZB_LOAD: R167
  ⟨0x50840, 16, 4, 1, 1, .single,
    [⟨8, 0, .ro, .any, 0, .none⟩], fun _ _ => 0x0⟩,
  -- CD_CTRL: R167
  ⟨0x50a00, 8, 32, 1, 1, .single,
    [⟨13, 8, .rwp, .any, 0, .none⟩, 
     ⟨1, 0, .rwp, .any, 1, .none⟩], fun i _ => 1 + 0x100 * (i % 4)⟩,
  -- CD_DEC: R167
  ⟨0x50a04, 8, 32, 1, 1, .single,
    [⟨16, 0, .rwp, .range 1 65536, 1, .none⟩], fun _ _ => 0x1⟩,
  -- CD_ANCHOR_LO: R167
  ⟨0x50a08, 8, 32, 1, 1, .low .any,
    [⟨31, 0, .ro, .any, 0, .none⟩], fun _ _ => 0x0⟩,
  -- CD_ANCHOR_HI: R167
  ⟨0x50a0c, 8, 32, 1, 1, .high,
    [⟨31, 0, .ro, .any, 0, .none⟩], fun _ _ => 0x0⟩,
  -- ZC_CTRL: R167
  ⟨0x51000, 64, 64, 1, 1, .single,
    [⟨9, 8, .rw, .any, 0, .zc⟩, 
     ⟨7, 4, .rw, .range 0 8, 0, .zc⟩, 
     ⟨0, 0, .rwp, .any, 0, .none⟩], fun i _ => 0x100 * (i % 4)⟩,
  -- ZC_DEC: R167
  ⟨0x51004, 64, 64, 1, 1, .single,
    [⟨12, 0, .rw, .range 1 4096, 1, .zc⟩], fun _ _ => 0x1⟩,
  -- ZC_TAPS: R167
  ⟨0x51008, 64, 64, 1, 1, .single,
    [⟨28, 16, .rw, .any, 0, .zc⟩, 
     ⟨12, 0, .rw, .odd 1 8191, 1, .zc⟩], fun _ _ => 0x1⟩,
  -- ZC_FTW_LO: R167
  ⟨0x5100c, 64, 64, 1, 1, .low .any,
    [⟨31, 0, .rwp, .any, 0, .none⟩], fun _ _ => 0x0⟩,
  -- ZC_FTW_HI: R167
  ⟨0x51010, 64, 64, 1, 1, .high,
    [⟨15, 0, .rwp, .any, 0, .none⟩], fun _ _ => 0x0⟩,
  -- ZC_POFF_LO: R167
  ⟨0x51014, 64, 64, 1, 1, .low .any,
    [⟨31, 0, .rwp, .any, 0, .none⟩], fun _ _ => 0x0⟩,
  -- ZC_POFF_HI: R167
  ⟨0x51018, 64, 64, 1, 1, .high,
    [⟨15, 0, .rwp, .any, 0, .none⟩], fun _ _ => 0x0⟩]

/-- The registers of the unit DDC, part 2 (R594, R595). -/
def ddcRegs1 : List RegDesc := [
  -- ZC_STATUS: R167
  ⟨0x5101c, 64, 64, 1, 1, .single,
    [⟨31, 31, .ro, .any, 1, .none⟩, 
     ⟨3, 3, .w1c, .any, 0, .none⟩, 
     ⟨2, 2, .ro, .any, 0, .none⟩, 
     ⟨1, 1, .ro, .any, 0, .none⟩, 
     ⟨0, 0, .ro, .any, 0, .none⟩], fun _ _ => 0x80000000⟩,
  -- ZC_GDELAY: R167
  ⟨0x51020, 64, 64, 1, 1, .single,
    [⟨31, 0, .ro, .any, 79, .none⟩], fun _ _ => 0x4f⟩,
  -- ZC_ANCHOR_LO: R167
  ⟨0x51024, 64, 64, 1, 1, .low .any,
    [⟨31, 0, .ro, .any, 0, .none⟩], fun _ _ => 0x0⟩,
  -- ZC_ANCHOR_HI: R167
  ⟨0x51028, 64, 64, 1, 1, .high,
    [⟨31, 0, .ro, .any, 0, .none⟩], fun _ _ => 0x0⟩,
  -- ZC_SAT: R167
  ⟨0x5102c, 64, 64, 1, 1, .single,
    [⟨15, 0, .ro, .any, 0, .none⟩], fun _ _ => 0x0⟩,
  -- ZB_CM: R167
  ⟨0x58000, 8192, 4, 1, 1, .single,
    [⟨19, 0, .rw, .any, 0, .none⟩], fun _ _ => 0x0⟩]

/-- The registers of the unit DDC (R594). -/
def ddcRegs : List RegDesc := ddcRegs0 ++ ddcRegs1

/-- The registers of the unit SPX, part 1 (R594, R595). -/
def spxRegs0 : List RegDesc := [
  -- SPX_CTRL: R195
  ⟨0x60000, 4, 1024, 1, 1, .single,
    [⟨18, 16, .rwp, .range 0 4, 2, .none⟩, 
     ⟨12, 8, .rwp, .range 8 16, 10, .none⟩, 
     ⟨7, 4, .rwp, .enum 12, 1, .none⟩, 
     ⟨1, 1, .rwp, .any, 1, .none⟩, 
     ⟨0, 0, .rwp, .any, 0, .none⟩], fun _ _ => 0x20a12⟩,
  -- SPX_SCHED: R195
  ⟨0x60004, 4, 1024, 1, 1, .single,
    [⟨31, 0, .rwp, .pairs2 2, 1431655765, .none⟩], fun _ _ => 0x55555555⟩,
  -- SPX_STATUS: R195
  ⟨0x60008, 4, 1024, 1, 1, .single,
    [⟨31, 31, .ro, .any, 1, .none⟩, 
     ⟨3, 3, .w1c, .any, 0, .none⟩, 
     ⟨2, 2, .ro, .any, 0, .none⟩, 
     ⟨1, 1, .ro, .any, 0, .none⟩, 
     ⟨0, 0, .ro, .any, 0, .none⟩], fun _ _ => 0x80000000⟩,
  -- SPX_ANCHOR_LO: R195
  ⟨0x6000c, 4, 1024, 1, 1, .low .any,
    [⟨31, 0, .ro, .any, 0, .none⟩], fun _ _ => 0x0⟩,
  -- SPX_ANCHOR_HI: R195
  ⟨0x60010, 4, 1024, 1, 1, .high,
    [⟨31, 0, .ro, .any, 0, .none⟩], fun _ _ => 0x0⟩,
  -- SPX_HOP: R195
  ⟨0x60014, 4, 1024, 1, 1, .single,
    [⟨31, 0, .ro, .any, 512, .none⟩], fun _ _ => 0x200⟩,
  -- SPX_CGC: R195
  ⟨0x60018, 4, 1024, 1, 1, .single,
    [⟨15, 0, .ro, .any, 770, .none⟩], fun _ _ => 0x302⟩,
  -- SPX_SAT: R195
  ⟨0x6001c, 4, 1024, 1, 1, .single,
    [⟨15, 0, .ro, .any, 0, .none⟩], fun _ _ => 0x0⟩,
  -- TR_TCTRL: R195
  ⟨0x60100, 4, 1024, 4, 64, .single,
    [⟨16, 16, .wo, .any, 0, .none⟩, 
     ⟨15, 12, .rwp, .range 1 15, 4, .none⟩, 
     ⟨10, 8, .rwp, .enum 4, 0, .none⟩, 
     ⟨6, 4, .rwp, .enum 4, 0, .none⟩, 
     ⟨0, 0, .rwp, .any, 0, .none⟩], fun _ _ => 0x4000⟩,
  -- TR_COLS: R195
  ⟨0x60104, 4, 1024, 4, 64, .single,
    [⟨12, 0, .rwp, .range 1 4096, 1024, .none⟩], fun _ _ => 0x400⟩,
  -- TR_JSTART: R195
  ⟨0x60108, 4, 1024, 4, 64, .single,
    [⟨15, 0, .rwp, .any, 0, .none⟩], fun _ _ => 0x0⟩,
  -- TR_JSPAN: R195
  ⟨0x6010c, 4, 1024, 4, 64, .single,
    [⟨16, 0, .rwp, .range 1 65536, 1024, .none⟩], fun _ _ => 0x400⟩,
  -- TR_FDEC: R195
  ⟨0x60110, 4, 1024, 4, 64, .single,
    [⟨15, 0, .rwp, .range 1 65535, 1, .none⟩], fun _ _ => 0x1⟩,
  -- TR_RING_BASE_LO: R195
  ⟨0x60114, 4, 1024, 4, 64, .low (.mult 64 0 0x17ffffffff),
    [⟨31, 0, .rw, .any, 0, .tr⟩], fun _ _ => 0x0⟩,
  -- TR_RING_BASE_HI: R195
  ⟨0x60118, 4, 1024, 4, 64, .high,
    [⟨31, 0, .rw, .any, 0, .tr⟩], fun _ _ => 0x0⟩,
  -- TR_RING_SLOTS: R195
  ⟨0x6011c, 4, 1024, 4, 64, .single,
    [⟨20, 0, .rw, .range 2 1048576, 1024, .tr⟩], fun _ _ => 0x400⟩,
  -- TR_WR: R195
  ⟨0x60120, 4, 1024, 4, 64, .single,
    [⟨20, 0, .ro, .any, 0, .none⟩], fun _ _ => 0x0⟩,
  -- TR_RD: R195
  ⟨0x60124, 4, 1024, 4, 64, .single,
    [⟨20, 0, .rw, .any, 0, .none⟩], fun _ _ => 0x0⟩,
  -- TR_LOST: R195
  ⟨0x60128, 4, 1024, 4, 64, .single,
    [⟨31, 0, .ro, .any, 0, .none⟩], fun _ _ => 0x0⟩,
  -- TR_RSEQ: R195
  ⟨0x6012c, 4, 1024, 4, 64, .single,
    [⟨31, 0, .ro, .any, 0, .none⟩], fun _ _ => 0x0⟩,
  -- SPXG_UWIN_ADDR: R195
  ⟨0x61000, 1, 1, 1, 1, .single,
    [⟨15, 0, .rw, .range 0 32768, 0, .none⟩], fun _ _ => 0x0⟩,
  -- SPXG_UWIN_DATA: R195
  ⟨0x61004, 1, 1, 1, 1, .single,
    [⟨19, 0, .rw, .any, 0, .none⟩], fun _ _ => 0x0⟩,
  -- SPXG_UCGC: R195
  ⟨0x61008, 1, 1, 1, 1, .single,
    [⟨15, 0, .rw, .any, 0, .none⟩], fun _ _ => 0x0⟩,
  -- SPXG_SAT_CLEAR: R195
  ⟨0x6100c, 1, 1, 1, 1, .single,
    [⟨0, 0, .wo, .any, 0, .none⟩], fun _ _ => 0x0⟩,
  -- SPXG_STATUS: R195
  ⟨0x61010, 1, 1, 1, 1, .single,
    [⟨31, 31, .ro, .any, 1, .none⟩], fun _ _ => 0x80000000⟩]

/-- The registers of the unit SPX (R594). -/
def spxRegs : List RegDesc := spxRegs0

/-- The registers of the unit TRG, part 1 (R594, R595). -/
def trgRegs0 : List RegDesc := [
  -- TRG_CTRL: R231
  ⟨0x70000, 1, 1, 1, 1, .single,
    [⟨0, 0, .rwp, .any, 0, .none⟩], fun _ _ => 0x0⟩,
  -- TRG_STATUS: R231
  ⟨0x70004, 1, 1, 1, 1, .single,
    [⟨31, 31, .ro, .any, 1, .none⟩, 
     ⟨7, 0, .ro, .any, 0, .none⟩], fun _ _ => 0x80000000⟩,
  -- TRG_FAB_HZ: R231
  ⟨0x70008, 1, 1, 1, 1, .single,
    [⟨20, 0, .rwp, .range 64 1048576, 16384, .none⟩], fun _ _ => 0x4000⟩,
  -- TRG_CYK_TMO: R231
  ⟨0x7000c, 1, 1, 1, 1, .single,
    [⟨19, 0, .rw, .range 1 1000000, 100, .none⟩], fun _ _ => 0x64⟩,
  -- TRG_RING_BASE_LO: R231
  ⟨0x70010, 1, 1, 1, 1, .low (.mult 64 0 0x17ffffffff),
    [⟨31, 0, .rw, .any, 0, .none⟩], fun _ _ => 0x0⟩,
  -- TRG_RING_BASE_HI: R231
  ⟨0x70014, 1, 1, 1, 1, .high,
    [⟨31, 0, .rw, .any, 0, .none⟩], fun _ _ => 0x0⟩,
  -- TRG_RING_SLOTS: R231
  ⟨0x70018, 1, 1, 1, 1, .single,
    [⟨20, 0, .rw, .range 2 1048576, 4096, .none⟩], fun _ _ => 0x1000⟩,
  -- TRG_WR: R231
  ⟨0x7001c, 1, 1, 1, 1, .single,
    [⟨20, 0, .ro, .any, 0, .none⟩], fun _ _ => 0x0⟩,
  -- TRG_RD: R231
  ⟨0x70020, 1, 1, 1, 1, .single,
    [⟨20, 0, .rw, .any, 0, .none⟩], fun _ _ => 0x0⟩,
  -- TRG_LOST: R231
  ⟨0x70024, 1, 1, 1, 1, .single,
    [⟨31, 0, .ro, .any, 0, .none⟩], fun _ _ => 0x0⟩,
  -- TRG_MASK_ADDR: R231
  ⟨0x70028, 1, 1, 1, 1, .single,
    [⟨14, 0, .rw, .any, 0, .none⟩], fun _ _ => 0x0⟩,
  -- TRG_MASK_DATA: R231
  ⟨0x7002c, 1, 1, 1, 1, .single,
    [⟨31, 0, .rw, .any, 2147450880, .none⟩], fun _ _ => 0x7fff8000⟩,
  -- TRG_XLOG_BASE_LO: R231
  ⟨0x70030, 1, 1, 1, 1, .low (.mult 64 0 0x17ffffffff),
    [⟨31, 0, .rw, .any, 0, .none⟩], fun _ _ => 0x0⟩,
  -- TRG_XLOG_BASE_HI: R231
  ⟨0x70034, 1, 1, 1, 1, .high,
    [⟨31, 0, .rw, .any, 0, .none⟩], fun _ _ => 0x0⟩,
  -- TRG_XLOG_SIZE: R231
  ⟨0x70038, 1, 1, 1, 1, .single,
    [⟨20, 0, .rw, .range 16 1048576, 4096, .none⟩], fun _ _ => 0x1000⟩,
  -- TRG_XLOG_WR: R231
  ⟨0x7003c, 1, 1, 1, 1, .single,
    [⟨20, 0, .ro, .any, 0, .none⟩], fun _ _ => 0x0⟩,
  -- TRG_XLOG_RD: R231
  ⟨0x70040, 1, 1, 1, 1, .single,
    [⟨20, 0, .rw, .any, 0, .none⟩], fun _ _ => 0x0⟩,
  -- TRG_XLOG_STATUS: R231
  ⟨0x70044, 1, 1, 1, 1, .single,
    [⟨1, 1, .ro, .any, 0, .none⟩, 
     ⟨0, 0, .w1c, .any, 0, .none⟩], fun _ _ => 0x0⟩,
  -- TRG_CNT_CLEAR: R231
  ⟨0x70048, 1, 1, 1, 1, .single,
    [⟨0, 0, .wo, .any, 0, .none⟩], fun _ _ => 0x0⟩,
  -- TIN_CFG: R231
  ⟨0x70100, 4, 16, 1, 1, .single,
    [⟨2, 2, .rwp, .any, 0, .none⟩, 
     ⟨1, 0, .rwp, .enum 2, 0, .none⟩], fun _ _ => 0x0⟩,
  -- TIN_OFF: R231
  ⟨0x70104, 4, 16, 1, 1, .single,
    [⟨16, 0, .rwp, .any, 0, .none⟩], fun _ _ => 0x0⟩,
  -- TD_CTRL: R231
  ⟨0x70200, 8, 32, 1, 1, .single,
    [⟨10, 8, .rwp, .enum 4, 2, .none⟩, 
     ⟨5, 4, .rwp, .enum 2, 0, .none⟩, 
     ⟨1, 1, .rwp, .any, 0, .none⟩, 
     ⟨0, 0, .rwp, .any, 0, .none⟩], fun _ _ => 0x200⟩,
  -- TD_LEVEL: R231
  ⟨0x70204, 8, 32, 1, 1, .single,
    [⟨15, 0, .rwp, .any, 0, .none⟩], fun _ _ => 0x0⟩,
  -- TD_HYS: R231
  ⟨0x70208, 8, 32, 1, 1, .single,
    [⟨15, 0, .rwp, .range 0 32767, 0, .none⟩], fun _ _ => 0x0⟩,
  -- MASK_CTRL: R231
  ⟨0x70300, 4, 32, 1, 1, .single,
    [⟨5, 4, .rwp, .any, 1, .none⟩, 
     ⟨1, 1, .rwp, .any, 0, .none⟩, 
     ⟨0, 0, .rwp, .any, 0, .none⟩], fun _ _ => 0x10⟩]

/-- The registers of the unit TRG, part 2 (R594, R595). -/
def trgRegs1 : List RegDesc := [
  -- MASK_K: R231
  ⟨0x70304, 4, 32, 1, 1, .single,
    [⟨15, 0, .rwp, .range 1 65535, 1, .none⟩], fun _ _ => 0x1⟩,
  -- MASK_JRANGE: R231
  ⟨0x70308, 4, 32, 1, 1, .single,
    [⟨31, 16, .rwp, .any, 65535, .none⟩, 
     ⟨15, 0, .rwp, .any, 0, .none⟩], fun _ _ => 0xffff0000⟩,
  -- TDEN_CTRL: R231
  ⟨0x70400, 4, 32, 1, 1, .single,
    [⟨15, 8, .rwp, .any, 0, .none⟩, 
     ⟨0, 0, .rwp, .any, 0, .none⟩], fun _ _ => 0x0⟩,
  -- TDEN_COLS: R231
  ⟨0x70404, 4, 32, 1, 1, .single,
    [⟨27, 16, .rwp, .any, 4095, .none⟩, 
     ⟨11, 0, .rwp, .any, 0, .none⟩], fun _ _ => 0xfff0000⟩,
  -- TDEN_ROWS: R231
  ⟨0x70408, 4, 32, 1, 1, .single,
    [⟨25, 16, .rwp, .any, 1023, .none⟩, 
     ⟨9, 0, .rwp, .any, 0, .none⟩], fun _ _ => 0x3ff0000⟩,
  -- TDEN_DTHR: R231
  ⟨0x7040c, 4, 32, 1, 1, .single,
    [⟨20, 0, .rwp, .range 1 1048576, 1, .none⟩], fun _ _ => 0x1⟩,
  -- ZP_CTRL: R231
  ⟨0x70500, 8, 16, 1, 1, .single,
    [⟨13, 12, .rwp, .any, 0, .none⟩, 
     ⟨9, 4, .rwp, .any, 0, .none⟩, 
     ⟨0, 0, .rwp, .any, 0, .none⟩], fun i _ => 0x10 * i⟩,
  -- ZP_LEVEL: R231
  ⟨0x70504, 8, 16, 1, 1, .single,
    [⟨15, 0, .rwp, .range 0 32767, 0, .none⟩], fun _ _ => 0x0⟩,
  -- ZP_HYS: R231
  ⟨0x70508, 8, 16, 1, 1, .single,
    [⟨15, 0, .rwp, .range 0 32767, 0, .none⟩], fun _ _ => 0x0⟩,
  -- TU_CTRL: R231
  ⟨0x71000, 8, 64, 1, 1, .single,
    [⟨20, 16, .rwp, .range 0 16, 16, .none⟩, 
     ⟨9, 9, .wo, .any, 0, .none⟩, 
     ⟨8, 8, .wo, .any, 0, .none⟩, 
     ⟨4, 4, .rwp, .any, 0, .none⟩, 
     ⟨3, 3, .rwp, .any, 1, .none⟩, 
     ⟨2, 1, .rwp, .enum 2, 0, .none⟩, 
     ⟨0, 0, .rwp, .any, 0, .none⟩], fun _ _ => 0x100008⟩,
  -- TU_SRC: R231
  ⟨0x71004, 8, 64, 1, 1, .single,
    [⟨23, 16, .rwp, .trgSrc, 0, .none⟩, 
     ⟨15, 8, .rwp, .trgSrc, 0, .none⟩, 
     ⟨7, 0, .rwp, .trgSrc, 0, .none⟩], fun _ _ => 0x0⟩,
  -- TU_WINDOW: R231
  ⟨0x71008, 8, 64, 1, 1, .single,
    [⟨31, 0, .rwp, .range 1 4294967295, 4096, .none⟩], fun _ _ => 0x1000⟩,
  -- TU_HOLDOFF: R231
  ⟨0x7100c, 8, 64, 1, 1, .single,
    [⟨31, 0, .rwp, .any, 0, .none⟩], fun _ _ => 0x0⟩,
  -- TU_COUNT: R231
  ⟨0x71010, 8, 64, 1, 1, .single,
    [⟨16, 0, .rwp, .range 1 65536, 1, .none⟩], fun _ _ => 0x1⟩,
  -- TU_QWIN: R231
  ⟨0x71014, 8, 64, 1, 1, .single,
    [⟨31, 0, .rwp, .any, 0, .none⟩], fun _ _ => 0x0⟩,
  -- TU_STATUS: R231
  ⟨0x71018, 8, 64, 1, 1, .single,
    [⟨31, 31, .ro, .any, 1, .none⟩, 
     ⟨2, 0, .ro, .any, 0, .none⟩], fun _ _ => 0x80000000⟩,
  -- TU_FIRES: R231
  ⟨0x7101c, 8, 64, 1, 1, .single,
    [⟨31, 0, .ro, .any, 0, .none⟩], fun _ _ => 0x0⟩,
  -- TU_IGNORED: R231
  ⟨0x71020, 8, 64, 1, 1, .single,
    [⟨31, 0, .ro, .any, 0, .none⟩], fun _ _ => 0x0⟩,
  -- TU_FORCE_LOST: R231
  ⟨0x71024, 8, 64, 1, 1, .single,
    [⟨15, 0, .ro, .any, 0, .none⟩], fun _ _ => 0x0⟩,
  -- TU_DMIN: R231
  ⟨0x71028, 8, 64, 1, 1, .single,
    [⟨23, 0, .ro, .any, 48, .none⟩], fun _ _ => 0x30⟩,
  -- TOUT_CTRL: R231
  ⟨0x72000, 4, 16, 1, 1, .single,
    [⟨15, 8, .rwp, .any, 0, .none⟩, 
     ⟨1, 1, .rwp, .any, 0, .none⟩, 
     ⟨0, 0, .rwp, .any, 0, .none⟩], fun _ _ => 0x0⟩,
  -- TOUT_DELAY: R231
  ⟨0x72004, 4, 16, 1, 1, .single,
    [⟨23, 0, .rwp, .any, 4096, .none⟩], fun _ _ => 0x1000⟩,
  -- TOUT_WIDTH: R231
  ⟨0x72008, 4, 16, 1, 1, .single,
    [⟨23, 0, .rwp, .range 128 16777215, 256, .none⟩], fun _ _ => 0x100⟩,
  -- TOUT_STATUS: R231
  ⟨0x7200c, 4, 16, 1, 1, .single,
    [⟨31, 16, .ro, .any, 0, .none⟩, 
     ⟨15, 0, .ro, .any, 0, .none⟩], fun _ _ => 0x0⟩]

/-- The registers of the unit TRG (R594). -/
def trgRegs : List RegDesc := trgRegs0 ++ trgRegs1

/-- The registers of the unit HOOP, part 1 (R594, R595). -/
def hoopRegs0 : List RegDesc := [
  -- HOOP_STATUS: R256
  ⟨0x80000, 1, 1, 1, 1, .single,
    [⟨31, 31, .ro, .any, 1, .none⟩, 
     ⟨7, 0, .ro, .any, 0, .none⟩], fun _ _ => 0x80000000⟩,
  -- HOOP_TOTAL: R256
  ⟨0x80004, 1, 1, 1, 1, .single,
    [⟨16, 0, .ro, .any, 0, .none⟩], fun _ _ => 0x0⟩,
  -- HOOP_CNT_CLEAR: R256
  ⟨0x80008, 1, 1, 1, 1, .single,
    [⟨0, 0, .wo, .any, 0, .none⟩], fun _ _ => 0x0⟩,
  -- HW_CTRL: R256
  ⟨0x81000, 8, 256, 1, 1, .single,
    [⟨23, 16, .rwp, .any, 0, .none⟩, 
     ⟨9, 9, .wo, .any, 0, .none⟩, 
     ⟨3, 3, .rwp, .any, 0, .none⟩, 
     ⟨0, 0, .rwp, .any, 0, .none⟩], fun _ _ => 0x0⟩,
  -- HW_SRC: R256
  ⟨0x81004, 8, 256, 1, 1, .single,
    [⟨11, 8, .rwp, .any, 0, .none⟩, 
     ⟨1, 0, .rwp, .enum 2, 0, .none⟩], fun i _ => 0x100 * (i % 4)⟩,
  -- HW_BASE_LO: R256
  ⟨0x81008, 8, 256, 1, 1, .low (.mult 0x200000 0 0x17ffffffff),
    [⟨31, 0, .rw, .any, 0, .none⟩], fun _ _ => 0x0⟩,
  -- HW_BASE_HI: R256
  ⟨0x8100c, 8, 256, 1, 1, .high,
    [⟨31, 0, .rw, .any, 0, .none⟩], fun _ _ => 0x0⟩,
  -- HW_SIZE: R256
  ⟨0x81010, 8, 256, 1, 1, .single,
    [⟨16, 0, .rw, .mult 2 2 81920, 2, .none⟩], fun _ _ => 0x2⟩,
  -- HW_NSEG: R256
  ⟨0x81014, 8, 256, 1, 1, .single,
    [⟨16, 0, .rw, .range 1 65536, 1, .none⟩], fun _ _ => 0x1⟩,
  -- HW_PRE: R256
  ⟨0x81018, 8, 256, 1, 1, .single,
    [⟨31, 0, .rw, .any, 0, .none⟩], fun _ _ => 0x0⟩,
  -- HW_POST: R256
  ⟨0x8101c, 8, 256, 1, 1, .single,
    [⟨31, 0, .rw, .atLeast 1, 1, .none⟩], fun _ _ => 0x1⟩,
  -- HW_HDR_BASE_LO: R256
  ⟨0x81020, 8, 256, 1, 1, .low (.mult 64 0 0x17ffffffff),
    [⟨31, 0, .rw, .any, 0, .none⟩], fun _ _ => 0x0⟩,
  -- HW_HDR_BASE_HI: R256
  ⟨0x81024, 8, 256, 1, 1, .high,
    [⟨31, 0, .rw, .any, 0, .none⟩], fun _ _ => 0x0⟩,
  -- HW_STATUS: R256
  ⟨0x81028, 8, 256, 1, 1, .single,
    [⟨31, 31, .ro, .any, 1, .none⟩, 
     ⟨10, 10, .w1c, .any, 0, .none⟩, 
     ⟨9, 9, .w1c, .any, 0, .none⟩, 
     ⟨8, 8, .ro, .any, 0, .none⟩, 
     ⟨2, 0, .ro, .any, 0, .none⟩], fun _ _ => 0x80000000⟩,
  -- HW_SCAP: R256
  ⟨0x8102c, 8, 256, 1, 1, .single,
    [⟨31, 0, .ro, .any, 1048576, .none⟩], fun _ _ => 0x100000⟩,
  -- HW_FILLING_SEQ: R256
  ⟨0x81030, 8, 256, 1, 1, .single,
    [⟨31, 0, .ro, .any, 0, .none⟩], fun _ _ => 0x0⟩,
  -- HW_RECORDS: R256
  ⟨0x81034, 8, 256, 1, 1, .single,
    [⟨31, 0, .ro, .any, 0, .none⟩], fun _ _ => 0x0⟩,
  -- HW_IGNORED: R256
  ⟨0x81038, 8, 256, 1, 1, .single,
    [⟨31, 0, .ro, .any, 0, .none⟩], fun _ _ => 0x0⟩,
  -- HW_LATE: R256
  ⟨0x8103c, 8, 256, 1, 1, .single,
    [⟨31, 0, .ro, .any, 0, .none⟩], fun _ _ => 0x0⟩,
  -- HW_NEED: R256
  ⟨0x81040, 8, 256, 1, 1, .single,
    [⟨31, 0, .ro, .any, 409600, .none⟩], fun _ _ => 0x64000⟩,
  -- HW_CAP: R256
  ⟨0x81044, 8, 256, 1, 1, .single,
    [⟨31, 0, .ro, .any, 1572864, .none⟩], fun _ _ => 0x180000⟩,
  -- HW_PBASE_LO: R256
  ⟨0x81048, 8, 256, 1, 1, .low .any,
    [⟨31, 0, .ro, .any, 0, .none⟩], fun _ _ => 0x0⟩,
  -- HW_PBASE_HI: R256
  ⟨0x8104c, 8, 256, 1, 1, .high,
    [⟨31, 0, .ro, .any, 0, .none⟩], fun _ _ => 0x0⟩,
  -- HW_PSIZE: R256
  ⟨0x81050, 8, 256, 1, 1, .single,
    [⟨16, 0, .ro, .any, 2, .none⟩], fun _ _ => 0x2⟩,
  -- HW_PNSEG: R256
  ⟨0x81054, 8, 256, 1, 1, .single,
    [⟨16, 0, .ro, .any, 1, .none⟩], fun _ _ => 0x1⟩]

/-- The registers of the unit HOOP, part 2 (R594, R595). -/
def hoopRegs1 : List RegDesc := [
  -- HW_PPRE: R256
  ⟨0x81058, 8, 256, 1, 1, .single,
    [⟨31, 0, .ro, .any, 0, .none⟩], fun _ _ => 0x0⟩,
  -- HW_PPOST: R256
  ⟨0x8105c, 8, 256, 1, 1, .single,
    [⟨31, 0, .ro, .any, 1, .none⟩], fun _ _ => 0x1⟩,
  -- HW_PHDR_BASE_LO: R256
  ⟨0x81060, 8, 256, 1, 1, .low .any,
    [⟨31, 0, .ro, .any, 0, .none⟩], fun _ _ => 0x0⟩,
  -- HW_PHDR_BASE_HI: R256
  ⟨0x81064, 8, 256, 1, 1, .high,
    [⟨31, 0, .ro, .any, 0, .none⟩], fun _ _ => 0x0⟩]

/-- The registers of the unit HOOP (R594). -/
def hoopRegs : List RegDesc := hoopRegs0 ++ hoopRegs1

/-- The registers of the unit DEN, part 1 (R594, R595). -/
def denRegs0 : List RegDesc := [
  -- DEN_CTRL: R276
  ⟨0x90000, 4, 256, 1, 1, .single,
    [⟨11, 8, .rwp, .range 0 11, 2, .none⟩, 
     ⟨6, 4, .rwp, .enum 5, 0, .none⟩, 
     ⟨2, 2, .rwp, .any, 0, .none⟩, 
     ⟨1, 1, .wo, .any, 0, .none⟩, 
     ⟨0, 0, .rwp, .any, 0, .none⟩], fun _ _ => 0x200⟩,
  -- DEN_MAP: R276
  ⟨0x90004, 4, 256, 1, 1, .single,
    [⟨31, 16, .rwp, .any, 0, .none⟩, 
     ⟨12, 0, .rwp, .mult 32 32 4096, 256, .none⟩], fun _ _ => 0x100⟩,
  -- DEN_ROWS: R276
  ⟨0x90008, 4, 256, 1, 1, .single,
    [⟨28, 16, .rwp, .range 1 4096, 20, .none⟩, 
     ⟨15, 0, .rwp, .any, 45056, .none⟩], fun _ _ => 0x14b000⟩,
  -- DEN_PASS: R276
  ⟨0x9000c, 4, 256, 1, 1, .single,
    [⟨31, 24, .rwp, .any, 1, .none⟩, 
     ⟨5, 0, .rwp, .range 0 40, 22, .none⟩], fun _ _ => 0x1000016⟩,
  -- DEN_DMUL: R276
  ⟨0x90010, 4, 256, 1, 1, .single,
    [⟨16, 0, .rwp, .range 0 65536, 65536, .none⟩], fun _ _ => 0x10000⟩,
  -- DEN_STATUS: R276
  ⟨0x90014, 4, 256, 1, 1, .single,
    [⟨31, 31, .ro, .any, 1, .none⟩, 
     ⟨2, 2, .ro, .any, 0, .none⟩, 
     ⟨1, 1, .ro, .any, 0, .none⟩, 
     ⟨0, 0, .ro, .any, 0, .none⟩], fun _ _ => 0x80000000⟩,
  -- DEN_PFLAGS: R276
  ⟨0x90018, 4, 256, 1, 1, .single,
    [⟨7, 0, .ro, .any, 0, .none⟩], fun _ _ => 0x0⟩,
  -- DEN_SNAP_SEQ: R276
  ⟨0x9001c, 4, 256, 1, 1, .single,
    [⟨31, 0, .ro, .any, 0, .none⟩], fun _ _ => 0x0⟩,
  -- DEN_SNAP_T_LO: R276
  ⟨0x90020, 4, 256, 1, 1, .low .any,
    [⟨31, 0, .ro, .any, 0, .none⟩], fun _ _ => 0x0⟩,
  -- DEN_SNAP_T_HI: R276
  ⟨0x90024, 4, 256, 1, 1, .high,
    [⟨31, 0, .ro, .any, 0, .none⟩], fun _ _ => 0x0⟩,
  -- DEN_SNAP_T0_LO: R276
  ⟨0x90028, 4, 256, 1, 1, .low .any,
    [⟨31, 0, .ro, .any, 0, .none⟩], fun _ _ => 0x0⟩,
  -- DEN_SNAP_T0_HI: R276
  ⟨0x9002c, 4, 256, 1, 1, .high,
    [⟨31, 0, .ro, .any, 0, .none⟩], fun _ _ => 0x0⟩,
  -- DEN_SNAP_INFO: R276
  ⟨0x90030, 4, 256, 1, 1, .single,
    [⟨28, 16, .ro, .any, 256, .none⟩, 
     ⟨11, 8, .ro, .any, 2, .none⟩, 
     ⟨7, 0, .ro, .any, 0, .none⟩], fun _ _ => 0x1000200⟩,
  -- DEN_SNAP_MAP: R276
  ⟨0x90034, 4, 256, 1, 1, .single,
    [⟨31, 16, .ro, .any, 0, .none⟩], fun _ _ => 0x0⟩,
  -- DEN_SNAP_ROWS: R276
  ⟨0x90038, 4, 256, 1, 1, .single,
    [⟨31, 0, .ro, .any, 1355776, .none⟩], fun _ _ => 0x14b000⟩,
  -- DEN_SAT: R276
  ⟨0x9003c, 4, 256, 1, 1, .single,
    [⟨31, 0, .ro, .any, 0, .none⟩], fun _ _ => 0x0⟩,
  -- DEN_PASS_MIN: R276
  ⟨0x90040, 4, 256, 1, 1, .single,
    [⟨5, 0, .ro, .any, 22, .none⟩], fun _ _ => 0x16⟩,
  -- SG_CTRL: R276
  ⟨0x90800, 4, 64, 1, 1, .single,
    [⟨9, 8, .rwp, .any, 0, .none⟩, 
     ⟨6, 4, .rwp, .enum 4, 0, .none⟩, 
     ⟨0, 0, .rwp, .any, 0, .none⟩], fun _ _ => 0x0⟩,
  -- SG_SGFDEC: R276
  ⟨0x90804, 4, 64, 1, 1, .single,
    [⟨15, 0, .rwp, .range 1 65535, 1, .none⟩], fun _ _ => 0x1⟩,
  -- SG_RING_BASE_LO: R276
  ⟨0x90808, 4, 64, 1, 1, .low (.mult 64 0 0x17ffffffff),
    [⟨31, 0, .rw, .any, 0, .sg⟩], fun _ _ => 0x0⟩,
  -- SG_RING_BASE_HI: R276
  ⟨0x9080c, 4, 64, 1, 1, .high,
    [⟨31, 0, .rw, .any, 0, .sg⟩], fun _ _ => 0x0⟩,
  -- SG_RING_SLOTS: R276
  ⟨0x90810, 4, 64, 1, 1, .single,
    [⟨20, 0, .rw, .range 2 1048576, 1024, .sg⟩], fun _ _ => 0x400⟩,
  -- SG_WR: R276
  ⟨0x90814, 4, 64, 1, 1, .single,
    [⟨20, 0, .ro, .any, 0, .none⟩], fun _ _ => 0x0⟩,
  -- SG_RD: R276
  ⟨0x90818, 4, 64, 1, 1, .single,
    [⟨20, 0, .rw, .any, 0, .none⟩], fun _ _ => 0x0⟩,
  -- SG_LOST: R276
  ⟨0x9081c, 4, 64, 1, 1, .single,
    [⟨31, 0, .ro, .any, 0, .none⟩], fun _ _ => 0x0⟩]

/-- The registers of the unit DEN, part 2 (R594, R595). -/
def denRegs1 : List RegDesc := [
  -- SG_LSEQ: R276
  ⟨0x90820, 4, 64, 1, 1, .single,
    [⟨31, 0, .ro, .any, 0, .none⟩], fun _ _ => 0x0⟩,
  -- DENG_STATUS: R276
  ⟨0x90f00, 1, 1, 1, 1, .single,
    [⟨31, 31, .ro, .any, 1, .none⟩], fun _ _ => 0x80000000⟩,
  -- DENG_SAT_CLEAR: R276
  ⟨0x90f04, 1, 1, 1, 1, .single,
    [⟨0, 0, .wo, .any, 0, .none⟩], fun _ _ => 0x0⟩]

/-- The registers of the unit DEN (R594). -/
def denRegs : List RegDesc := denRegs0 ++ denRegs1

/-- The registers of the unit GAL, part 1 (R594, R595). -/
def galRegs0 : List RegDesc := [
  -- GAL_CTRL: R302
  ⟨0xa0000, 1, 1, 1, 1, .single,
    [⟨8, 8, .wo, .any, 0, .none⟩, 
     ⟨7, 6, .rw, .enum 2, 1, .gal⟩, 
     ⟨5, 4, .rw, .any, 3, .gal⟩, 
     ⟨3, 2, .rw, .enum 2, 2, .gal⟩, 
     ⟨1, 1, .rw, .any, 0, .none⟩, 
     ⟨0, 0, .rw, .any, 0, .none⟩], fun _ _ => 0x78⟩,
  -- GAL_STATUS: R302
  ⟨0xa0004, 1, 1, 1, 1, .single,
    [⟨31, 31, .ro, .any, 1, .none⟩, 
     ⟨10, 10, .ro, .any, 0, .none⟩, 
     ⟨9, 9, .ro, .any, 0, .none⟩, 
     ⟨8, 8, .ro, .any, 0, .none⟩, 
     ⟨7, 6, .ro, .any, 0, .none⟩, 
     ⟨5, 4, .ro, .any, 0, .none⟩, 
     ⟨3, 3, .ro, .any, 0, .none⟩, 
     ⟨2, 2, .ro, .any, 0, .none⟩], fun _ _ => 0x80000000⟩,
  -- GAL_PCLK_KHZ: R302
  ⟨0xa0008, 1, 1, 1, 1, .single,
    [⟨19, 0, .rw, .range 25000 600000, 148500, .gal⟩], fun _ _ => 0x24414⟩,
  -- GAL_HTIM0: R302
  ⟨0xa000c, 1, 1, 1, 1, .single,
    [⟨25, 16, .rw, .range 8 1023, 88, .gal⟩, 
     ⟨11, 0, .rw, .range 640 3840, 1920, .gal⟩], fun _ _ => 0x580780⟩,
  -- GAL_HTIM1: R302
  ⟨0xa0010, 1, 1, 1, 1, .single,
    [⟨25, 16, .rw, .range 8 1023, 148, .gal⟩, 
     ⟨9, 0, .rw, .range 8 1023, 44, .gal⟩], fun _ _ => 0x94002c⟩,
  -- GAL_VTIM0: R302
  ⟨0xa0014, 1, 1, 1, 1, .single,
    [⟨23, 16, .rw, .range 1 255, 4, .gal⟩, 
     ⟨11, 0, .rw, .range 480 2160, 1080, .gal⟩], fun _ _ => 0x40438⟩,
  -- GAL_VTIM1: R302
  ⟨0xa0018, 1, 1, 1, 1, .single,
    [⟨31, 31, .rw, .any, 0, .gal⟩, 
     ⟨30, 30, .rw, .any, 0, .gal⟩, 
     ⟨23, 16, .rw, .range 1 255, 36, .gal⟩, 
     ⟨5, 0, .rw, .range 1 63, 5, .gal⟩], fun _ _ => 0x240005⟩,
  -- GAL_LEAD: R302
  ⟨0xa001c, 1, 1, 1, 1, .single,
    [⟨3, 0, .rw, .any, 0, .gal⟩], fun _ _ => 0x0⟩,
  -- GAL_BG: R302
  ⟨0xa0020, 1, 1, 1, 1, .single,
    [⟨23, 0, .rw, .any, 0, .none⟩], fun _ _ => 0x0⟩,
  -- GAL_COMMIT: R302
  ⟨0xa0040, 1, 1, 1, 1, .single,
    [⟨7, 0, .wo, .any, 0, .none⟩], fun _ _ => 0x0⟩,
  -- GAL_ARMED: R302
  ⟨0xa0044, 1, 1, 1, 1, .single,
    [⟨7, 0, .ro, .any, 0, .none⟩], fun _ _ => 0x0⟩,
  -- GAL_LATCH_SEQ: R302
  ⟨0xa0048, 1, 1, 1, 1, .single,
    [⟨31, 0, .ro, .any, 0, .none⟩], fun _ _ => 0x0⟩,
  -- GAL_RETIRE_SEQ: R302
  ⟨0xa004c, 1, 1, 1, 1, .single,
    [⟨31, 0, .ro, .any, 0, .none⟩], fun _ _ => 0x0⟩,
  -- GAL_LINE: R302
  ⟨0xa0050, 1, 1, 1, 1, .single,
    [⟨11, 0, .ro, .any, 0, .none⟩], fun _ _ => 0x0⟩,
  -- GAL_UNDERRUNS: R302
  ⟨0xa0054, 1, 1, 1, 1, .single,
    [⟨31, 0, .ro, .any, 0, .none⟩], fun _ _ => 0x0⟩,
  -- GAL_CNT_CLEAR: R302
  ⟨0xa0058, 1, 1, 1, 1, .single,
    [⟨0, 0, .wo, .any, 0, .none⟩], fun _ _ => 0x0⟩,
  -- GAL_FROZEN: R302
  ⟨0xa005c, 1, 1, 1, 1, .single,
    [⟨7, 0, .w1c, .any, 0, .none⟩], fun _ _ => 0x0⟩,
  -- GAL_PAL_ADDR: R302
  ⟨0xa0060, 1, 1, 1, 1, .single,
    [⟨13, 0, .rw, .any, 0, .none⟩], fun _ _ => 0x0⟩,
  -- GAL_PAL_DATA: R302
  ⟨0xa0064, 1, 1, 1, 1, .single,
    [⟨31, 0, .rw, .any, 0, .none⟩], fun _ _ => 0x0⟩,
  -- GAL_DPCD_CAP: R302
  ⟨0xa0100, 4, 4, 1, 1, .single,
    [⟨31, 0, .ro, .any, 0, .none⟩], fun _ _ => 0x0⟩,
  -- GAL_EDID: R302
  ⟨0xa0200, 64, 4, 1, 1, .single,
    [⟨31, 0, .ro, .any, 0, .none⟩], fun _ _ => 0x0⟩,
  -- PANE_CTRL: R302
  ⟨0xa1000, 8, 64, 1, 1, .single,
    [⟨31, 24, .rw, .any, 255, .none⟩, 
     ⟨23, 16, .rw, .range 1 255, 8, .none⟩, 
     ⟨10, 10, .rw, .any, 0, .none⟩, 
     ⟨9, 9, .rw, .any, 0, .none⟩, 
     ⟨8, 8, .rw, .any, 0, .none⟩, 
     ⟨7, 4, .rw, .any, 0, .none⟩, 
     ⟨2, 0, .rw, .enum 4, 0, .none⟩], fun _ _ => 0xff080000⟩,
  -- PANE_POS: R302
  ⟨0xa1004, 8, 64, 1, 1, .single,
    [⟨27, 16, .rw, .any, 0, .none⟩, 
     ⟨11, 0, .rw, .any, 0, .none⟩], fun _ _ => 0x0⟩,
  -- PANE_SIZE: R302
  ⟨0xa1008, 8, 64, 1, 1, .single,
    [⟨27, 16, .rw, .any, 1, .none⟩, 
     ⟨11, 0, .rw, .any, 1, .none⟩], fun _ _ => 0x10001⟩,
  -- PANE_BASE_LO: R302
  ⟨0xa100c, 8, 64, 1, 1, .low (.mult 64 0 0x17ffffffff),
    [⟨31, 0, .rw, .any, 0, .none⟩], fun _ _ => 0x0⟩]

/-- The registers of the unit GAL, part 2 (R594, R595). -/
def galRegs1 : List RegDesc := [
  -- PANE_BASE_HI: R302
  ⟨0xa1010, 8, 64, 1, 1, .high,
    [⟨31, 0, .rw, .any, 0, .none⟩], fun _ _ => 0x0⟩,
  -- PANE_STRIDE: R302
  ⟨0xa1014, 8, 64, 1, 1, .single,
    [⟨16, 0, .rw, .mult 64 0 65536, 16384, .none⟩], fun _ _ => 0x4000⟩,
  -- PANE_MAP0: R302
  ⟨0xa1018, 8, 64, 1, 1, .single,
    [⟨28, 16, .rw, .any, 4096, .none⟩, 
     ⟨11, 0, .rw, .any, 0, .none⟩], fun _ _ => 0x10000000⟩,
  -- PANE_MAP1: R302
  ⟨0xa101c, 8, 64, 1, 1, .single,
    [⟨26, 16, .rw, .any, 1024, .none⟩, 
     ⟨9, 0, .rw, .any, 0, .none⟩], fun _ _ => 0x4000000⟩,
  -- PANE_LVL: R302
  ⟨0xa1020, 8, 64, 1, 1, .single,
    [⟨31, 16, .rw, .range 1 4096, 20, .none⟩, 
     ⟨15, 0, .rw, .any, 45056, .none⟩], fun _ _ => 0x14b000⟩,
  -- PANE_PGAIN: R302
  ⟨0xa1024, 8, 64, 1, 1, .single,
    [⟨15, 0, .rw, .any, 1022, .none⟩], fun _ _ => 0x3fe⟩,
  -- PANE_COLOR: R302
  ⟨0xa1028, 8, 64, 1, 1, .single,
    [⟨31, 0, .rw, .any, 4294967295, .none⟩], fun _ _ => 0xffffffff⟩,
  -- PANE_TBG: R302
  ⟨0xa102c, 8, 64, 1, 1, .single,
    [⟨31, 0, .rw, .any, 0, .none⟩], fun _ _ => 0x0⟩,
  -- APANE_CTRL: R302
  ⟨0xa2000, 8, 64, 1, 1, .single,
    [⟨31, 24, .ro, .any, 255, .none⟩, 
     ⟨23, 16, .ro, .any, 8, .none⟩, 
     ⟨10, 10, .ro, .any, 0, .none⟩, 
     ⟨9, 9, .ro, .any, 0, .none⟩, 
     ⟨8, 8, .ro, .any, 0, .none⟩, 
     ⟨7, 4, .ro, .any, 0, .none⟩, 
     ⟨2, 0, .ro, .any, 0, .none⟩], fun _ _ => 0xff080000⟩,
  -- APANE_POS: R302
  ⟨0xa2004, 8, 64, 1, 1, .single,
    [⟨27, 16, .ro, .any, 0, .none⟩, 
     ⟨11, 0, .ro, .any, 0, .none⟩], fun _ _ => 0x0⟩,
  -- APANE_SIZE: R302
  ⟨0xa2008, 8, 64, 1, 1, .single,
    [⟨27, 16, .ro, .any, 1, .none⟩, 
     ⟨11, 0, .ro, .any, 1, .none⟩], fun _ _ => 0x10001⟩,
  -- APANE_BASE_LO: R302
  ⟨0xa200c, 8, 64, 1, 1, .low .any,
    [⟨31, 0, .ro, .any, 0, .none⟩], fun _ _ => 0x0⟩,
  -- APANE_BASE_HI: R302
  ⟨0xa2010, 8, 64, 1, 1, .high,
    [⟨31, 0, .ro, .any, 0, .none⟩], fun _ _ => 0x0⟩,
  -- APANE_STRIDE: R302
  ⟨0xa2014, 8, 64, 1, 1, .single,
    [⟨16, 0, .ro, .any, 16384, .none⟩], fun _ _ => 0x4000⟩,
  -- APANE_MAP0: R302
  ⟨0xa2018, 8, 64, 1, 1, .single,
    [⟨28, 16, .ro, .any, 4096, .none⟩, 
     ⟨11, 0, .ro, .any, 0, .none⟩], fun _ _ => 0x10000000⟩,
  -- APANE_MAP1: R302
  ⟨0xa201c, 8, 64, 1, 1, .single,
    [⟨26, 16, .ro, .any, 1024, .none⟩, 
     ⟨9, 0, .ro, .any, 0, .none⟩], fun _ _ => 0x4000000⟩,
  -- APANE_LVL: R302
  ⟨0xa2020, 8, 64, 1, 1, .single,
    [⟨31, 16, .ro, .any, 20, .none⟩, 
     ⟨15, 0, .ro, .any, 45056, .none⟩], fun _ _ => 0x14b000⟩,
  -- APANE_PGAIN: R302
  ⟨0xa2024, 8, 64, 1, 1, .single,
    [⟨15, 0, .ro, .any, 1022, .none⟩], fun _ _ => 0x3fe⟩,
  -- APANE_COLOR: R302
  ⟨0xa2028, 8, 64, 1, 1, .single,
    [⟨31, 0, .ro, .any, 4294967295, .none⟩], fun _ _ => 0xffffffff⟩,
  -- APANE_TBG: R302
  ⟨0xa202c, 8, 64, 1, 1, .single,
    [⟨31, 0, .ro, .any, 0, .none⟩], fun _ _ => 0x0⟩,
  -- APANE_PFENCE: R302
  ⟨0xa2030, 8, 64, 1, 1, .single,
    [⟨31, 0, .ro, .any, 0, .none⟩], fun _ _ => 0x0⟩,
  -- APANE_PSIG: R302
  ⟨0xa2034, 8, 64, 1, 1, .single,
    [⟨31, 0, .ro, .any, 0, .none⟩], fun _ _ => 0x0⟩,
  -- APANE_GEN: R302
  ⟨0xa2038, 8, 64, 1, 1, .single,
    [⟨31, 0, .ro, .any, 0, .none⟩], fun _ _ => 0x0⟩]

/-- The registers of the unit GAL (R594). -/
def galRegs : List RegDesc := galRegs0 ++ galRegs1

/-- The registers of the unit SCR, part 1 (R594, R595). -/
def scrRegs0 : List RegDesc := [
  -- SCR_CTRL: R331
  ⟨0xb0000, 1, 1, 1, 1, .single,
    [⟨23, 20, .rw, .range 4 12, 8, .scr⟩, 
     ⟨19, 16, .rw, .any, 0, .scr⟩, 
     ⟨12, 8, .rw, .range 16 20, 20, .scr⟩, 
     ⟨2, 2, .rw, .any, 0, .none⟩, 
     ⟨1, 1, .rwp, .any, 0, .none⟩, 
     ⟨0, 0, .rw, .any, 1, .none⟩], fun _ _ => 0x801401⟩,
  -- SCR_STATUS: R331
  ⟨0xb0004, 1, 1, 1, 1, .single,
    [⟨31, 31, .ro, .any, 1, .none⟩, 
     ⟨4, 4, .ro, .any, 0, .none⟩, 
     ⟨2, 0, .ro, .any, 0, .none⟩], fun _ _ => 0x80000000⟩,
  -- SCR_STAGE_BASE_LO: R331
  ⟨0xb0008, 1, 1, 1, 1, .low (.mult 2097152 0 0x17ffffffff),
    [⟨31, 0, .rw, .any, 0, .scr⟩], fun _ _ => 0x0⟩,
  -- SCR_STAGE_BASE_HI: R331
  ⟨0xb000c, 1, 1, 1, 1, .high,
    [⟨31, 0, .rw, .any, 0, .scr⟩], fun _ _ => 0x0⟩,
  -- SCR_STAGE_SIZE: R331
  ⟨0xb0010, 1, 1, 1, 1, .single,
    [⟨14, 0, .rw, .range 256 16384, 4096, .scr⟩], fun _ _ => 0x1000⟩,
  -- SCR_CKPT: R331
  ⟨0xb0014, 1, 1, 1, 1, .single,
    [⟨13, 0, .rw, .range 10 10000, 100, .none⟩], fun _ _ => 0x64⟩,
  -- SCR_RID_LO: R331
  ⟨0xb0018, 1, 1, 1, 1, .low .any,
    [⟨31, 0, .ro, .any, 0, .none⟩], fun _ _ => 0x0⟩,
  -- SCR_RID_HI: R331
  ⟨0xb001c, 1, 1, 1, 1, .high,
    [⟨31, 0, .ro, .any, 0, .none⟩], fun _ _ => 0x0⟩,
  -- SCR_ADM_RATE: R331
  ⟨0xb0020, 1, 1, 1, 1, .single,
    [⟨31, 0, .ro, .any, 0, .none⟩], fun _ _ => 0x0⟩,
  -- SCR_BUDGET: R331
  ⟨0xb0024, 1, 1, 1, 1, .single,
    [⟨31, 0, .ro, .any, 0, .none⟩], fun _ _ => 0x0⟩,
  -- SCR_GAPS: R331
  ⟨0xb0028, 1, 1, 1, 1, .single,
    [⟨31, 0, .ro, .any, 0, .none⟩], fun _ _ => 0x0⟩,
  -- SCR_VFAIL: R331
  ⟨0xb002c, 1, 1, 1, 1, .single,
    [⟨31, 0, .ro, .any, 0, .none⟩], fun _ _ => 0x0⟩,
  -- SCR_PB_MISSING: R331
  ⟨0xb0030, 1, 1, 1, 1, .single,
    [⟨31, 0, .ro, .any, 0, .none⟩], fun _ _ => 0x0⟩,
  -- SCR_PB_STALLS: R331
  ⟨0xb0034, 1, 1, 1, 1, .single,
    [⟨31, 0, .ro, .any, 0, .none⟩], fun _ _ => 0x0⟩,
  -- SCR_CNT_CLEAR: R331
  ⟨0xb0038, 1, 1, 1, 1, .single,
    [⟨0, 0, .wo, .any, 0, .none⟩], fun _ _ => 0x0⟩,
  -- SCR_PB_STOP_LO: R331
  ⟨0xb0040, 1, 1, 1, 1, .low .any,
    [⟨31, 0, .rw, .any, 4294967295, .none⟩], fun _ _ => 0xffffffff⟩,
  -- SCR_PB_STOP_HI: R331
  ⟨0xb0044, 1, 1, 1, 1, .high,
    [⟨31, 0, .rw, .any, 4294967295, .none⟩], fun _ _ => 0xffffffff⟩,
  -- SS_CTRL: R331
  ⟨0xb0100, 15, 32, 1, 1, .single,
    [⟨15, 8, .rwp, .any, 0, .none⟩, 
     ⟨7, 5, .rwp, .enum 5, 0, .none⟩, 
     ⟨4, 4, .rw, .any, 1, .scr⟩, 
     ⟨2, 1, .rwp, .enum 2, 0, .none⟩, 
     ⟨0, 0, .rwp, .any, 0, .none⟩], fun _ _ => 0x10⟩,
  -- SS_RATE_MB: R331
  ⟨0xb0104, 15, 32, 1, 1, .single,
    [⟨15, 0, .rw, .range 1 52000, 1000, .scr⟩], fun _ _ => 0x3e8⟩,
  -- SS_RADM: R331
  ⟨0xb0108, 15, 32, 1, 1, .single,
    [⟨31, 0, .ro, .any, 0, .none⟩], fun _ _ => 0x0⟩,
  -- SS_BSEQ: R331
  ⟨0xb010c, 15, 32, 1, 1, .single,
    [⟨31, 0, .ro, .any, 0, .none⟩], fun _ _ => 0x0⟩,
  -- SS_DROPPED: R331
  ⟨0xb0110, 15, 32, 1, 1, .single,
    [⟨31, 0, .ro, .any, 0, .none⟩], fun _ _ => 0x0⟩,
  -- DRV_WBW: R331
  ⟨0xb0400, 4, 64, 1, 1, .single,
    [⟨13, 0, .rw, .range 1 13000, 6000, .none⟩], fun _ _ => 0x1770⟩,
  -- DRV_STATUS: R331
  ⟨0xb0404, 4, 64, 1, 1, .single,
    [⟨15, 12, .ro, .any, 0, .none⟩, 
     ⟨11, 10, .ro, .any, 0, .none⟩, 
     ⟨9, 9, .ro, .any, 0, .none⟩, 
     ⟨8, 8, .ro, .any, 0, .none⟩, 
     ⟨2, 0, .ro, .any, 0, .none⟩], fun _ _ => 0x0⟩,
  -- DRV_SPEED: R331
  ⟨0xb0408, 4, 64, 1, 1, .single,
    [⟨2, 0, .ro, .any, 0, .none⟩], fun _ _ => 0x0⟩]

/-- The registers of the unit SCR, part 2 (R594, R595). -/
def scrRegs1 : List RegDesc := [
  -- DRV_NLBA_LO: R331
  ⟨0xb040c, 4, 64, 1, 1, .low .any,
    [⟨31, 0, .ro, .any, 0, .none⟩], fun _ _ => 0x0⟩,
  -- DRV_NLBA_HI: R331
  ⟨0xb0410, 4, 64, 1, 1, .high,
    [⟨31, 0, .ro, .any, 0, .none⟩], fun _ _ => 0x0⟩,
  -- DRV_SMART: R331
  ⟨0xb0414, 4, 64, 1, 1, .single,
    [⟨23, 8, .ro, .any, 0, .none⟩, 
     ⟨7, 0, .ro, .any, 0, .none⟩], fun _ _ => 0x0⟩]

/-- The registers of the unit SCR (R594). -/
def scrRegs : List RegDesc := scrRegs0 ++ scrRegs1

/-- The registers of the unit WVR, part 1 (R594, R595). -/
def wvrRegs0 : List RegDesc := [
  -- WVR_CTRL: R376
  ⟨0xc0000, 1, 1, 1, 1, .single,
    [⟨10, 8, .rw, .range 0 4, 1, .wvr⟩, 
     ⟨5, 4, .rw, .any, 0, .wvr⟩, 
     ⟨3, 3, .rw, .any, 0, .wvr⟩, 
     ⟨2, 1, .rw, .any, 0, .wvr⟩, 
     ⟨0, 0, .rw, .any, 0, .none⟩], fun _ _ => 0x100⟩,
  -- WVR_STATUS: R376
  ⟨0xc0004, 1, 1, 1, 1, .single,
    [⟨31, 31, .ro, .any, 1, .none⟩, 
     ⟨9, 9, .ro, .any, 0, .none⟩, 
     ⟨8, 8, .ro, .any, 0, .none⟩], fun _ _ => 0x80000000⟩,
  -- WVR_REGION_BASE_LO: R376
  ⟨0xc0008, 1, 1, 1, 1, .low (.mult 2097152 0 0x17ffffffff),
    [⟨31, 0, .rw, .any, 0, .wvr⟩], fun _ _ => 0x0⟩,
  -- WVR_REGION_BASE_HI: R376
  ⟨0xc000c, 1, 1, 1, 1, .high,
    [⟨31, 0, .rw, .any, 0, .wvr⟩], fun _ _ => 0x0⟩,
  -- WVR_REGION_SIZE: R376
  ⟨0xc0010, 1, 1, 1, 1, .single,
    [⟨14, 0, .rw, .range 2 16384, 2, .wvr⟩], fun _ _ => 0x2⟩,
  -- WVR_JDELAY: R376
  ⟨0xc0014, 1, 1, 1, 1, .single,
    [⟨23, 0, .rwp, .any, 4096, .none⟩], fun _ _ => 0x1000⟩,
  -- WVR_JSRC: R376
  ⟨0xc0018, 1, 1, 1, 1, .single,
    [⟨15, 8, .rwp, .any, 0, .none⟩, 
     ⟨7, 0, .rwp, .any, 0, .none⟩], fun _ _ => 0x0⟩,
  -- WVR_TX_INV: R376
  ⟨0xc001c, 1, 1, 1, 1, .single,
    [⟨15, 0, .rw, .any, 0, .wvr⟩], fun _ _ => 0x0⟩,
  -- WVR_TX_ADV: R376
  ⟨0xc0020, 1, 1, 1, 1, .single,
    [⟨15, 0, .rw, .any, 0, .wvr⟩], fun _ _ => 0x0⟩,
  -- WVR_PAT_INV: R376
  ⟨0xc0024, 1, 1, 1, 1, .single,
    [⟨31, 0, .rw, .any, 0, .none⟩], fun _ _ => 0x0⟩,
  -- WVR_CNT_CLEAR: R376
  ⟨0xc0028, 1, 1, 1, 1, .single,
    [⟨0, 0, .wo, .any, 0, .none⟩], fun _ _ => 0x0⟩,
  -- WVR_SEQ_ADDR: R376
  ⟨0xc0030, 1, 1, 1, 1, .single,
    [⟨14, 0, .rw, .any, 0, .none⟩], fun _ _ => 0x0⟩,
  -- WVR_SEQ_DATA: R376
  ⟨0xc0034, 1, 1, 1, 1, .single,
    [⟨31, 0, .rw, .any, 0, .none⟩], fun _ _ => 0x0⟩,
  -- ENG_CMD: R376
  ⟨0xc0100, 2, 64, 1, 1, .single,
    [⟨3, 3, .wo, .any, 0, .none⟩, 
     ⟨2, 2, .wo, .any, 0, .none⟩, 
     ⟨1, 1, .wo, .any, 0, .none⟩, 
     ⟨0, 0, .wo, .any, 0, .none⟩], fun _ _ => 0x0⟩,
  -- ENG_START_ENTRY: R376
  ⟨0xc0104, 2, 64, 1, 1, .single,
    [⟨11, 0, .rw, .any, 0, .none⟩], fun _ _ => 0x0⟩,
  -- ENG_START_T_LO: R376
  ⟨0xc0108, 2, 64, 1, 1, .low .any,
    [⟨31, 0, .rw, .any, 0, .none⟩], fun _ _ => 0x0⟩,
  -- ENG_START_T_HI: R376
  ⟨0xc010c, 2, 64, 1, 1, .high,
    [⟨31, 0, .rw, .any, 0, .none⟩], fun _ _ => 0x0⟩,
  -- ENG_IDLE0: R376
  ⟨0xc0110, 2, 64, 1, 1, .single,
    [⟨31, 0, .rw, .any, 0, .none⟩], fun _ _ => 0x0⟩,
  -- ENG_IDLE1: R376
  ⟨0xc0114, 2, 64, 1, 1, .single,
    [⟨31, 0, .rw, .any, 0, .none⟩], fun _ _ => 0x0⟩,
  -- ENG_STATUS: R376
  ⟨0xc0118, 2, 64, 1, 1, .single,
    [⟨31, 31, .ro, .any, 1, .none⟩, 
     ⟨15, 4, .ro, .any, 0, .none⟩, 
     ⟨2, 2, .ro, .any, 0, .none⟩, 
     ⟨1, 0, .ro, .any, 0, .none⟩], fun _ _ => 0x80000000⟩,
  -- ENG_T_START_LO: R376
  ⟨0xc011c, 2, 64, 1, 1, .low .any,
    [⟨31, 0, .ro, .any, 0, .none⟩], fun _ _ => 0x0⟩,
  -- ENG_T_START_HI: R376
  ⟨0xc0120, 2, 64, 1, 1, .high,
    [⟨31, 0, .ro, .any, 0, .none⟩], fun _ _ => 0x0⟩,
  -- ENG_UNDERRUNS: R376
  ⟨0xc0124, 2, 64, 1, 1, .single,
    [⟨31, 0, .ro, .any, 0, .none⟩], fun _ _ => 0x0⟩,
  -- ENG_IGNORED: R376
  ⟨0xc0128, 2, 64, 1, 1, .single,
    [⟨31, 0, .ro, .any, 0, .none⟩], fun _ _ => 0x0⟩,
  -- ENG_LATE: R376
  ⟨0xc012c, 2, 64, 1, 1, .single,
    [⟨31, 0, .ro, .any, 0, .none⟩], fun _ _ => 0x0⟩]

/-- The registers of the unit WVR, part 2 (R594, R595). -/
def wvrRegs1 : List RegDesc := [
  -- TS_PER: R376
  ⟨0xc0400, 8, 256, 1, 1, .single,
    [⟨15, 0, .rwp, .per, 64, .none⟩], fun _ _ => 0x40⟩,
  -- TS_EDGE: R376
  ⟨0xc0404, 8, 256, 32, 4, .single,
    [⟨31, 16, .rwp, .any, 16, .none⟩, 
     ⟨15, 0, .rwp, .any, 0, .none⟩], fun _ _ => 0x100000⟩,
  -- TS_FMT_LO: R376
  ⟨0xc0484, 8, 256, 1, 1, .single,
    [⟨31, 0, .rwp, .any, 0, .none⟩], fun _ _ => 0x0⟩,
  -- TS_FMT_HI: R376
  ⟨0xc0488, 8, 256, 1, 1, .single,
    [⟨31, 0, .rwp, .any, 0, .none⟩], fun _ _ => 0x0⟩]

/-- The registers of the unit WVR (R594). -/
def wvrRegs : List RegDesc := wvrRegs0 ++ wvrRegs1

/-- The registers of the unit TLY, part 1 (R594, R595). -/
def tlyRegs0 : List RegDesc := [
  -- TLY_STATUS: R396
  ⟨0xd0000, 1, 1, 1, 1, .single,
    [⟨31, 31, .ro, .any, 1, .none⟩, 
     ⟨8, 0, .ro, .any, 511, .none⟩], fun _ _ => 0x800001ff⟩,
  -- TLY_CNT_CLEAR: R396
  ⟨0xd0004, 1, 1, 1, 1, .single,
    [⟨0, 0, .wo, .any, 0, .none⟩], fun _ _ => 0x0⟩,
  -- TLY_TCAL: R396
  ⟨0xd0008, 1, 1, 1, 1, .single,
    [⟨16, 16, .wo, .any, 0, .none⟩, 
     ⟨11, 0, .rw, .range 1 3600, 60, .none⟩], fun _ _ => 0x3c⟩,
  -- EV_CFG: R396
  ⟨0xd0100, 9, 64, 1, 1, .single,
    [⟨13, 8, .rwp, .any, 0, .none⟩, 
     ⟨4, 4, .rw, .any, 1, .none⟩, 
     ⟨3, 2, .rwp, .enum 2, 0, .none⟩, 
     ⟨1, 1, .rwp, .any, 0, .none⟩, 
     ⟨0, 0, .rwp, .any, 0, .none⟩], fun i _ => if i = 8 then 0 else 0x10⟩,
  -- EV_DESKEW: R396
  ⟨0xd0104, 9, 64, 1, 1, .single,
    [⟨15, 0, .rw, .any, 0, .none⟩], fun _ _ => 0x0⟩,
  -- EV_TIN: R396
  ⟨0xd0108, 9, 64, 1, 1, .single,
    [⟨15, 0, .ro, .any, 0, .none⟩], fun i _ => Config.factoryTin i⟩,
  -- EV_WR: R396
  ⟨0xd010c, 9, 64, 1, 1, .single,
    [⟨15, 0, .ro, .any, 0, .none⟩], fun _ _ => 0x0⟩,
  -- EV_RD: R396
  ⟨0xd0110, 9, 64, 1, 1, .single,
    [⟨15, 0, .rw, .any, 0, .none⟩], fun _ _ => 0x0⟩,
  -- EV_LOST: R396
  ⟨0xd0114, 9, 64, 1, 1, .single,
    [⟨31, 0, .ro, .any, 0, .none⟩], fun _ _ => 0x0⟩,
  -- EV_OVERRUN: R396
  ⟨0xd0118, 9, 64, 1, 1, .single,
    [⟨31, 0, .ro, .any, 0, .none⟩], fun _ _ => 0x0⟩,
  -- EV_SEQ: R396
  ⟨0xd011c, 9, 64, 1, 1, .single,
    [⟨31, 0, .ro, .any, 0, .none⟩], fun _ _ => 0x0⟩,
  -- EV_CAL: R396
  ⟨0xd0120, 9, 64, 16, 4, .single,
    [⟨27, 16, .ro, .any, 0, .none⟩, 
     ⟨11, 0, .ro, .any, 0, .none⟩], fun _ j => 0x00C00040 + 0x01000100 * j⟩,
  -- FM_CTRL: R396
  ⟨0xd0400, 8, 64, 1, 1, .single,
    [⟨11, 8, .rw, .range 0 8, 0, .none⟩, 
     ⟨4, 4, .rw, .any, 0, .none⟩, 
     ⟨3, 3, .rw, .any, 0, .none⟩, 
     ⟨2, 2, .rw, .any, 0, .none⟩, 
     ⟨1, 1, .wo, .any, 0, .none⟩, 
     ⟨0, 0, .wo, .any, 0, .none⟩], fun _ _ => 0x0⟩,
  -- FM_STATUS: R396
  ⟨0xd0404, 8, 64, 1, 1, .single,
    [⟨10, 10, .ro, .any, 0, .none⟩, 
     ⟨9, 9, .ro, .any, 0, .none⟩, 
     ⟨8, 8, .ro, .any, 0, .none⟩, 
     ⟨1, 0, .ro, .any, 0, .none⟩], fun _ _ => 0x0⟩,
  -- FM_N: R396
  ⟨0xd0408, 8, 64, 1, 1, .single,
    [⟨31, 0, .ro, .any, 0, .none⟩], fun _ _ => 0x0⟩,
  -- FM_DT_LO: R396
  ⟨0xd040c, 8, 64, 1, 1, .low .any,
    [⟨31, 0, .ro, .any, 0, .none⟩], fun _ _ => 0x0⟩,
  -- FM_DT_HI: R396
  ⟨0xd0410, 8, 64, 1, 1, .high,
    [⟨31, 0, .ro, .any, 0, .none⟩], fun _ _ => 0x0⟩,
  -- FM_FREQ_LO: R396
  ⟨0xd0414, 8, 64, 1, 1, .low .any,
    [⟨31, 0, .ro, .any, 0, .none⟩], fun _ _ => 0x0⟩,
  -- FM_FREQ_HI: R396
  ⟨0xd0418, 8, 64, 1, 1, .high,
    [⟨31, 0, .ro, .any, 0, .none⟩], fun _ _ => 0x0⟩,
  -- FM_T_OPEN_LO: R396
  ⟨0xd041c, 8, 64, 1, 1, .low .any,
    [⟨31, 0, .ro, .any, 0, .none⟩], fun _ _ => 0x0⟩,
  -- FM_T_OPEN_HI: R396
  ⟨0xd0420, 8, 64, 1, 1, .high,
    [⟨31, 0, .ro, .any, 0, .none⟩], fun _ _ => 0x0⟩,
  -- FM_RSEQ: R396
  ⟨0xd0424, 8, 64, 1, 1, .single,
    [⟨31, 0, .ro, .any, 0, .none⟩], fun _ _ => 0x0⟩]

/-- The registers of the unit TLY (R594). -/
def tlyRegs : List RegDesc := tlyRegs0

/-- The registers of the unit HIF, part 1 (R594, R595). -/
def hifRegs0 : List RegDesc := [
  -- HIF_CTRL: R476
  ⟨0xe0000, 1, 1, 1, 1, .single,
    [⟨1, 1, .rw, .any, 1, .none⟩, 
     ⟨0, 0, .rw, .any, 0, .none⟩], fun _ _ => 0x2⟩,
  -- HIF_STATUS: R476
  ⟨0xe0004, 1, 1, 1, 1, .single,
    [⟨31, 31, .ro, .any, 1, .none⟩, 
     ⟨2, 2, .ro, .any, 0, .none⟩, 
     ⟨1, 1, .ro, .any, 0, .none⟩, 
     ⟨0, 0, .ro, .any, 0, .none⟩], fun _ _ => 0x80000000⟩,
  -- HIF_LINK: R476
  ⟨0xe0008, 1, 1, 1, 1, .single,
    [⟨7, 4, .ro, .any, 0, .none⟩, 
     ⟨3, 0, .ro, .any, 0, .none⟩], fun _ _ => 0x0⟩,
  -- HIF_POLL: R476
  ⟨0xe000c, 1, 1, 1, 1, .single,
    [⟨16, 0, .rw, .range 250 100000, 1000, .hif⟩], fun _ _ => 0x3e8⟩,
  -- HIF_CMD_BASE_LO: R476
  ⟨0xe0010, 1, 1, 1, 1, .low (.mult 64 0 0x7fffffffffff),
    [⟨31, 0, .rw, .any, 0, .hif⟩], fun _ _ => 0x0⟩,
  -- HIF_CMD_BASE_HI: R476
  ⟨0xe0014, 1, 1, 1, 1, .high,
    [⟨31, 0, .rw, .any, 0, .hif⟩], fun _ _ => 0x0⟩,
  -- HIF_CMD_SIZE: R476
  ⟨0xe0018, 1, 1, 1, 1, .single,
    [⟨16, 0, .rw, .pow2 16 65536, 256, .hif⟩], fun _ _ => 0x100⟩,
  -- HIF_CPL_BASE_LO: R476
  ⟨0xe0020, 1, 1, 1, 1, .low (.mult 64 0 0x7fffffffffff),
    [⟨31, 0, .rw, .any, 0, .hif⟩], fun _ _ => 0x0⟩,
  -- HIF_CPL_BASE_HI: R476
  ⟨0xe0024, 1, 1, 1, 1, .high,
    [⟨31, 0, .rw, .any, 0, .hif⟩], fun _ _ => 0x0⟩,
  -- HIF_CPL_SIZE: R476
  ⟨0xe0028, 1, 1, 1, 1, .single,
    [⟨16, 0, .rw, .pow2 16 65536, 1024, .hif⟩], fun _ _ => 0x400⟩,
  -- HIF_EVT_BASE_LO: R476
  ⟨0xe0030, 1, 1, 1, 1, .low (.mult 64 0 0x7fffffffffff),
    [⟨31, 0, .rw, .any, 0, .hif⟩], fun _ _ => 0x0⟩,
  -- HIF_EVT_BASE_HI: R476
  ⟨0xe0034, 1, 1, 1, 1, .high,
    [⟨31, 0, .rw, .any, 0, .hif⟩], fun _ _ => 0x0⟩,
  -- HIF_EVT_SIZE: R476
  ⟨0xe0038, 1, 1, 1, 1, .single,
    [⟨16, 0, .rw, .pow2 16 65536, 1024, .hif⟩], fun _ _ => 0x400⟩,
  -- HIF_DB_BASE_LO: R476
  ⟨0xe0040, 1, 1, 1, 1, .low (.mult 64 0 0x7fffffffffff),
    [⟨31, 0, .rw, .any, 0, .hif⟩], fun _ _ => 0x0⟩,
  -- HIF_DB_BASE_HI: R476
  ⟨0xe0044, 1, 1, 1, 1, .high,
    [⟨31, 0, .rw, .any, 0, .hif⟩], fun _ _ => 0x0⟩,
  -- HIF_FWD_EN: R476
  ⟨0xe0048, 1, 1, 1, 1, .single,
    [⟨7, 0, .rw, .any, 0, .none⟩], fun _ _ => 0x0⟩,
  -- HIF_BAR2_BASE_LO: R476
  ⟨0xe0050, 1, 1, 1, 1, .low (.bar2),
    [⟨31, 0, .rw, .any, 0, .none⟩], fun _ _ => 0x0⟩,
  -- HIF_BAR2_BASE_HI: R476
  ⟨0xe0054, 1, 1, 1, 1, .high,
    [⟨31, 0, .rw, .any, 0, .none⟩], fun _ _ => 0x0⟩,
  -- HIF_FETCH_ERR: R476
  ⟨0xe0060, 1, 1, 1, 1, .single,
    [⟨31, 0, .ro, .any, 0, .none⟩], fun _ _ => 0x0⟩,
  -- HIF_EVT_LOST: R476
  ⟨0xe0064, 1, 1, 1, 1, .single,
    [⟨31, 0, .ro, .any, 0, .none⟩], fun _ _ => 0x0⟩,
  -- HIF_FWD_REFUSED: R476
  ⟨0xe0068, 1, 1, 1, 1, .single,
    [⟨31, 0, .ro, .any, 0, .none⟩], fun _ _ => 0x0⟩,
  -- HIF_CPL_STALLS: R476
  ⟨0xe006c, 1, 1, 1, 1, .single,
    [⟨31, 0, .ro, .any, 0, .none⟩], fun _ _ => 0x0⟩,
  -- HIF_CNT_CLEAR: R476
  ⟨0xe0070, 1, 1, 1, 1, .single,
    [⟨0, 0, .wo, .any, 0, .none⟩], fun _ _ => 0x0⟩,
  -- HIF_CMD_HEAD: R476
  ⟨0xe0080, 1, 1, 1, 1, .single,
    [⟨15, 0, .ro, .any, 0, .none⟩], fun _ _ => 0x0⟩,
  -- HIF_CPL_TAIL: R476
  ⟨0xe0084, 1, 1, 1, 1, .single,
    [⟨15, 0, .ro, .any, 0, .none⟩], fun _ _ => 0x0⟩]

/-- The registers of the unit HIF, part 2 (R594, R595). -/
def hifRegs1 : List RegDesc := [
  -- HIF_EVT_TAIL: R476
  ⟨0xe0088, 1, 1, 1, 1, .single,
    [⟨15, 0, .ro, .any, 0, .none⟩], fun _ _ => 0x0⟩,
  -- HIF_PTR_HOSTERR: R476
  ⟨0xe0100, 32, 4, 1, 1, .single,
    [⟨31, 0, .ro, .any, 0, .none⟩], fun _ _ => 0x0⟩]

/-- The registers of the unit HIF (R594). -/
def hifRegs : List RegDesc := hifRegs0 ++ hifRegs1

/-- The registers of the unit PTR, part 1 (R594, R595). -/
def ptrRegs0 : List RegDesc := [
  -- PTR_STATUS: R476
  ⟨0xf0000, 1, 1, 1, 1, .single,
    [⟨31, 31, .ro, .any, 1, .none⟩], fun _ _ => 0x80000000⟩,
  -- PTR_CNT_CLEAR: R476
  ⟨0xf0004, 1, 1, 1, 1, .single,
    [⟨0, 0, .wo, .any, 0, .none⟩], fun _ _ => 0x0⟩,
  -- CH_CTRL: R476
  ⟨0xf0100, 32, 32, 1, 1, .single,
    [⟨16, 8, .rw, .range 1 256, 256, .none⟩, 
     ⟨6, 4, .rw, .any, 0, .none⟩, 
     ⟨1, 1, .wo, .any, 0, .none⟩, 
     ⟨0, 0, .rw, .any, 1, .none⟩], fun _ _ => 0x10001⟩,
  -- CH_STATUS: R476
  ⟨0xf0104, 32, 32, 1, 1, .single,
    [⟨31, 31, .ro, .any, 1, .none⟩, 
     ⟨30, 29, .ro, .any, 0, .none⟩, 
     ⟨20, 16, .ro, .any, 0, .none⟩, 
     ⟨15, 0, .ro, .any, 0, .none⟩], fun _ _ => 0x80000000⟩,
  -- CH_DONE_LO: R476
  ⟨0xf0108, 32, 32, 1, 1, .low .any,
    [⟨31, 0, .ro, .any, 0, .none⟩], fun _ _ => 0x0⟩,
  -- CH_DONE_HI: R476
  ⟨0xf010c, 32, 32, 1, 1, .high,
    [⟨31, 0, .ro, .any, 0, .none⟩], fun _ _ => 0x0⟩]

/-- The registers of the unit PTR (R594). -/
def ptrRegs : List RegDesc := ptrRegs0

/-- The registers of the unit HBM, part 1 (R594, R595). -/
def hbmRegs0 : List RegDesc := [
  -- HBM_CTRL: R503
  ⟨0x100000, 1, 1, 1, 1, .single,
    [⟨2, 2, .rw, .any, 0, .none⟩, 
     ⟨1, 1, .rw, .any, 1, .none⟩], fun _ _ => 0x2⟩,
  -- HBM_STATUS: R503
  ⟨0x100004, 1, 1, 1, 1, .single,
    [⟨31, 31, .ro, .any, 1, .none⟩, 
     ⟨11, 8, .ro, .any, 0, .none⟩, 
     ⟨7, 4, .ro, .any, 0, .none⟩, 
     ⟨3, 2, .ro, .any, 0, .none⟩, 
     ⟨1, 1, .ro, .any, 0, .none⟩], fun _ _ => 0x80000000⟩,
  -- HBM_SEED: R503
  ⟨0x100008, 1, 1, 1, 1, .single,
    [⟨21, 0, .ro, .any, 0, .none⟩], fun _ _ => Config.resetSeed % 4194304⟩,
  -- HBM_SEED_NEXT: R503
  ⟨0x10000c, 1, 1, 1, 1, .single,
    [⟨21, 0, .rw, .any, 0, .none⟩], fun _ _ => 0x0⟩,
  -- HBM_RETRAIN: R503
  ⟨0x100010, 1, 1, 1, 1, .single,
    [⟨31, 31, .rw, .any, 1, .none⟩, 
     ⟨13, 0, .rw, .range 10 10000, 250, .none⟩], fun _ _ => 0x800000fa⟩,
  -- HBM_SCRUB: R503
  ⟨0x100014, 1, 1, 1, 1, .single,
    [⟨7, 0, .rw, .range 0 168, 24, .none⟩], fun _ _ => 0x18⟩,
  -- HBM_SR: R503
  ⟨0x100018, 1, 1, 1, 1, .single,
    [⟨31, 31, .rw, .any, 0, .none⟩, 
     ⟨15, 0, .rw, .range 1 65535, 100, .none⟩], fun _ _ => 0x64⟩,
  -- HBM_SR_LAT: R503
  ⟨0x10001c, 1, 1, 1, 1, .single,
    [⟨15, 0, .ro, .any, 0, .none⟩], fun _ _ => 0x0⟩,
  -- HBM_TEMP: R503
  ⟨0x100020, 4, 4, 1, 1, .single,
    [⟨15, 0, .ro, .any, 0, .none⟩], fun _ _ => 0x0⟩,
  -- HBM_CE_COUNT: R503
  ⟨0x100030, 4, 4, 1, 1, .single,
    [⟨31, 0, .ro, .any, 0, .none⟩], fun _ _ => 0x0⟩,
  -- HBM_UE_COUNT: R503
  ⟨0x100040, 4, 4, 1, 1, .single,
    [⟨31, 0, .ro, .any, 0, .none⟩], fun _ _ => 0x0⟩,
  -- HBM_UE_ADDR_LO: R503
  ⟨0x100050, 1, 1, 1, 1, .low .any,
    [⟨31, 0, .ro, .any, 0, .none⟩], fun _ _ => 0x0⟩,
  -- HBM_UE_ADDR_HI: R503
  ⟨0x100054, 1, 1, 1, 1, .high,
    [⟨31, 0, .ro, .any, 0, .none⟩], fun _ _ => 0x0⟩,
  -- HBM_UE_INFO: R503
  ⟨0x100058, 1, 1, 1, 1, .single,
    [⟨15, 12, .ro, .any, 0, .none⟩, 
     ⟨11, 7, .ro, .any, 0, .none⟩, 
     ⟨4, 0, .ro, .any, 0, .none⟩], fun _ _ => 0x0⟩,
  -- HBM_CNT_CLEAR: R503
  ⟨0x10005c, 1, 1, 1, 1, .single,
    [⟨0, 0, .wo, .any, 0, .none⟩], fun _ _ => 0x0⟩,
  -- HBM_FLOOR_SUM: R503
  ⟨0x100060, 1, 1, 1, 1, .single,
    [⟨15, 0, .ro, .any, 14984, .none⟩], fun _ _ => 0x3a88⟩,
  -- HBM_HOT: R503
  ⟨0x100064, 1, 1, 1, 1, .single,
    [⟨27, 24, .ro, .any, 0, .none⟩, 
     ⟨23, 8, .ro, .any, 0, .none⟩, 
     ⟨6, 0, .ro, .any, 0, .none⟩], fun _ _ => 0x0⟩,
  -- HBM_ADDR_ERR: R503
  ⟨0x100068, 1, 1, 1, 1, .single,
    [⟨31, 0, .ro, .any, 0, .none⟩], fun _ _ => 0x0⟩,
  -- HBMP_FLOOR: R503
  ⟨0x100100, 10, 16, 1, 1, .single,
    [⟨14, 0, .rw, .any, 0, .none⟩], fun i _ => Config.portFloor i⟩,
  -- HBMP_CEIL: R503
  ⟨0x100104, 10, 16, 1, 1, .single,
    [⟨15, 0, .rw, .any, 48000, .none⟩], fun _ _ => 0xbb80⟩,
  -- HBMP_BURST: R503
  ⟨0x100108, 10, 16, 1, 1, .single,
    [⟨12, 0, .rw, .mult 64 64 4096, 1024, .none⟩], fun _ _ => 0x400⟩,
  -- HBMP_BYTES: R503
  ⟨0x10010c, 10, 16, 1, 1, .single,
    [⟨31, 0, .ro, .any, 0, .none⟩], fun _ _ => 0x0⟩]

/-- The registers of the unit HBM (R594). -/
def hbmRegs : List RegDesc := hbmRegs0

/-- The registers of the unit BYO, part 1 (R594, R595). -/
def byoRegs0 : List RegDesc := [
  -- BYO_CTRL: R530
  ⟨0x110000, 1, 1, 1, 1, .single,
    [⟨15, 8, .rw, .any, 255, .none⟩, 
     ⟨0, 0, .rw, .any, 1, .none⟩], fun _ _ => 0xff01⟩,
  -- BYO_STATUS: R530
  ⟨0x110004, 1, 1, 1, 1, .single,
    [⟨31, 31, .ro, .any, 0, .none⟩, 
     ⟨30, 30, .ro, .any, 0, .none⟩, 
     ⟨29, 29, .ro, .any, 0, .none⟩, 
     ⟨23, 16, .ro, .any, 0, .none⟩, 
     ⟨11, 0, .ro, .any, 0, .none⟩], fun _ _ => 0x0⟩,
  -- BYO_SERIAL_LO: R530
  ⟨0x110008, 1, 1, 1, 1, .low .any,
    [⟨31, 0, .ro, .any, 0, .none⟩], fun _ _ => Config.factorySerial % 4294967296⟩,
  -- BYO_SERIAL_HI: R530
  ⟨0x11000c, 1, 1, 1, 1, .high,
    [⟨31, 0, .ro, .any, 0, .none⟩], fun _ _ => Config.factorySerial / 4294967296⟩,
  -- BYO_ROOT: R530
  ⟨0x110010, 1, 1, 1, 1, .single,
    [⟨23, 16, .ro, .any, 0, .none⟩, 
     ⟨11, 0, .ro, .any, 0, .none⟩], fun _ _ => 0x0⟩,
  -- BYO_ID_REQ: R530
  ⟨0x110014, 1, 1, 1, 1, .single,
    [⟨31, 31, .rw, .any, 0, .none⟩, 
     ⟨11, 0, .rw, .any, 0, .none⟩], fun _ _ => 0x0⟩,
  -- BYO_TREE: R530
  ⟨0x110018, 1, 1, 1, 1, .single,
    [⟨15, 8, .ro, .any, 0, .none⟩, 
     ⟨7, 0, .ro, .any, 0, .none⟩], fun _ _ => 0x0⟩,
  -- BYO_NODES: R530
  ⟨0x11001c, 1, 1, 1, 1, .single,
    [⟨12, 0, .ro, .any, 1, .none⟩], fun _ _ => 0x1⟩,
  -- BYO_ROUTE_ADDR: R530
  ⟨0x110020, 1, 1, 1, 1, .single,
    [⟨11, 0, .rw, .any, 0, .none⟩], fun _ _ => 0x0⟩,
  -- BYO_ROUTE_DATA: R530
  ⟨0x110024, 1, 1, 1, 1, .single,
    [⟨31, 0, .ro, .any, 0, .none⟩], fun _ _ => 0x0⟩,
  -- BYO_RTMO: R530
  ⟨0x110028, 1, 1, 1, 1, .single,
    [⟨16, 0, .rw, .range 1 100000, 1000, .none⟩], fun _ _ => 0x3e8⟩,
  -- BYO_RCTRL: R530
  ⟨0x11002c, 1, 1, 1, 1, .single,
    [⟨0, 0, .rw, .any, 0, .none⟩], fun _ _ => 0x0⟩,
  -- BYO_RS_BASE_LO: R530
  ⟨0x110030, 1, 1, 1, 1, .low (.mult 128 0 0x7fffffffffff),
    [⟨31, 0, .rw, .any, 0, .rctrl⟩], fun _ _ => 0x0⟩,
  -- BYO_RS_BASE_HI: R530
  ⟨0x110034, 1, 1, 1, 1, .high,
    [⟨31, 0, .rw, .any, 0, .rctrl⟩], fun _ _ => 0x0⟩,
  -- BYO_RS_SIZE: R530
  ⟨0x110038, 1, 1, 1, 1, .single,
    [⟨16, 0, .rw, .pow2 16 65536, 256, .rctrl⟩], fun _ _ => 0x100⟩,
  -- BYO_RC_BASE_LO: R530
  ⟨0x110040, 1, 1, 1, 1, .low (.mult 64 0 0x7fffffffffff),
    [⟨31, 0, .rw, .any, 0, .rctrl⟩], fun _ _ => 0x0⟩,
  -- BYO_RC_BASE_HI: R530
  ⟨0x110044, 1, 1, 1, 1, .high,
    [⟨31, 0, .rw, .any, 0, .rctrl⟩], fun _ _ => 0x0⟩,
  -- BYO_RC_SIZE: R530
  ⟨0x110048, 1, 1, 1, 1, .single,
    [⟨16, 0, .rw, .pow2 16 65536, 256, .rctrl⟩], fun _ _ => 0x100⟩,
  -- BYO_RDB_BASE_LO: R530
  ⟨0x110050, 1, 1, 1, 1, .low (.mult 64 0 0x7fffffffffff),
    [⟨31, 0, .rw, .any, 0, .rctrl⟩], fun _ _ => 0x0⟩,
  -- BYO_RDB_BASE_HI: R530
  ⟨0x110054, 1, 1, 1, 1, .high,
    [⟨31, 0, .rw, .any, 0, .rctrl⟩], fun _ _ => 0x0⟩,
  -- BYO_PLOST: R530
  ⟨0x110060, 1, 1, 1, 1, .single,
    [⟨31, 0, .ro, .any, 0, .none⟩], fun _ _ => 0x0⟩,
  -- BYO_LGAPS: R530
  ⟨0x110064, 1, 1, 1, 1, .single,
    [⟨31, 0, .ro, .any, 0, .none⟩], fun _ _ => 0x0⟩,
  -- BYO_RTIMEOUTS: R530
  ⟨0x110068, 1, 1, 1, 1, .single,
    [⟨31, 0, .ro, .any, 0, .none⟩], fun _ _ => 0x0⟩,
  -- BYO_CNT_CLEAR: R530
  ⟨0x11006c, 1, 1, 1, 1, .single,
    [⟨0, 0, .wo, .any, 0, .none⟩], fun _ _ => 0x0⟩,
  -- BPORT_STATUS: R530
  ⟨0x110100, 8, 32, 1, 1, .single,
    [⟨28, 28, .ro, .any, 0, .none⟩, 
     ⟨27, 16, .ro, .any, 0, .none⟩, 
     ⟨14, 12, .ro, .any, 0, .none⟩, 
     ⟨10, 7, .ro, .any, 0, .none⟩, 
     ⟨6, 3, .ro, .any, 0, .none⟩, 
     ⟨2, 0, .ro, .any, 0, .none⟩], fun _ _ => 0x0⟩]

/-- The registers of the unit BYO, part 2 (R594, R595). -/
def byoRegs1 : List RegDesc := [
  -- BPORT_DELAY: R530
  ⟨0x110104, 8, 32, 1, 1, .single,
    [⟨31, 16, .ro, .any, 0, .none⟩, 
     ⟨15, 0, .ro, .any, 0, .none⟩], fun _ _ => 0x0⟩,
  -- BPORT_FEC_CE: R530
  ⟨0x110108, 8, 32, 1, 1, .single,
    [⟨31, 0, .ro, .any, 0, .none⟩], fun _ _ => 0x0⟩,
  -- BPORT_FEC_UE: R530
  ⟨0x11010c, 8, 32, 1, 1, .single,
    [⟨31, 0, .ro, .any, 0, .none⟩], fun _ _ => 0x0⟩,
  -- BPORT_RETRY: R530
  ⟨0x110110, 8, 32, 1, 1, .single,
    [⟨31, 0, .ro, .any, 0, .none⟩], fun _ _ => 0x0⟩,
  -- BPORT_CTRL: R530
  ⟨0x110114, 8, 32, 1, 1, .single,
    [⟨0, 0, .wo, .any, 0, .none⟩], fun _ _ => 0x0⟩,
  -- XP_CTRL: R530
  ⟨0x110400, 8, 32, 1, 1, .single,
    [⟨18, 16, .rwp, .any, 0, .none⟩, 
     ⟨11, 8, .rwp, .any, 0, .none⟩, 
     ⟨2, 1, .rwp, .any, 0, .none⟩, 
     ⟨0, 0, .rwp, .any, 0, .none⟩], fun _ _ => 0x0⟩,
  -- XP_DEST: R530
  ⟨0x110404, 8, 32, 1, 1, .single,
    [⟨11, 0, .rwp, .any, 0, .none⟩], fun _ _ => 0x0⟩,
  -- XP_BHZ: R530
  ⟨0x110408, 8, 32, 1, 1, .single,
    [⟨20, 0, .rwp, .range 1024 1048576, 65536, .none⟩], fun _ _ => 0x10000⟩,
  -- XP_TUMASK: R530
  ⟨0x11040c, 8, 32, 1, 1, .single,
    [⟨7, 0, .rwp, .any, 0, .none⟩], fun _ _ => 0x0⟩,
  -- XP_XSEQ: R530
  ⟨0x110410, 8, 32, 1, 1, .single,
    [⟨31, 0, .ro, .any, 0, .none⟩], fun _ _ => 0x0⟩,
  -- XP_LOST: R530
  ⟨0x110414, 8, 32, 1, 1, .single,
    [⟨31, 0, .ro, .any, 0, .none⟩], fun _ _ => 0x0⟩,
  -- RX_CTRL: R530
  ⟨0x110600, 8, 64, 1, 1, .single,
    [⟨31, 31, .rw, .any, 0, .none⟩, 
     ⟨27, 16, .rw, .any, 0, .none⟩, 
     ⟨0, 0, .rw, .any, 0, .none⟩], fun _ _ => 0x0⟩,
  -- RX_BASE_LO: R530
  ⟨0x110604, 8, 64, 1, 1, .low (.mult 64 0 0x17ffffffff),
    [⟨31, 0, .rw, .any, 0, .rx⟩], fun _ _ => 0x0⟩,
  -- RX_BASE_HI: R530
  ⟨0x110608, 8, 64, 1, 1, .high,
    [⟨31, 0, .rw, .any, 0, .rx⟩], fun _ _ => 0x0⟩,
  -- RX_SLOTS: R530
  ⟨0x11060c, 8, 64, 1, 1, .single,
    [⟨20, 0, .rw, .range 2 1048576, 1024, .rx⟩], fun _ _ => 0x400⟩,
  -- RX_WR: R530
  ⟨0x110610, 8, 64, 1, 1, .single,
    [⟨20, 0, .ro, .any, 0, .none⟩], fun _ _ => 0x0⟩,
  -- RX_RD: R530
  ⟨0x110614, 8, 64, 1, 1, .single,
    [⟨20, 0, .rw, .any, 0, .none⟩], fun _ _ => 0x0⟩,
  -- RX_LOST: R530
  ⟨0x110618, 8, 64, 1, 1, .single,
    [⟨31, 0, .ro, .any, 0, .none⟩], fun _ _ => 0x0⟩,
  -- RX_REJECTED: R530
  ⟨0x11061c, 8, 64, 1, 1, .single,
    [⟨31, 0, .ro, .any, 0, .none⟩], fun _ _ => 0x0⟩,
  -- RX_LATE: R530
  ⟨0x110620, 8, 64, 1, 1, .single,
    [⟨31, 0, .ro, .any, 0, .none⟩], fun _ _ => 0x0⟩]

/-- The registers of the unit BYO (R594). -/
def byoRegs : List RegDesc := byoRegs0 ++ byoRegs1

/-- The registers of the unit PWR, part 1 (R594, R595). -/
def pwrRegs0 : List RegDesc := [
  -- PWR_STATUS: R74
  ⟨0x120000, 1, 1, 1, 1, .single,
    [⟨6, 6, .ro, .any, 0, .none⟩, 
     ⟨5, 5, .ro, .any, 0, .none⟩, 
     ⟨4, 4, .ro, .any, 0, .none⟩, 
     ⟨3, 3, .ro, .any, 0, .none⟩, 
     ⟨2, 2, .ro, .any, 0, .none⟩, 
     ⟨1, 1, .ro, .any, 0, .none⟩], fun _ _ => 0x0⟩,
  -- PWR_FAULT: R74
  ⟨0x120004, 1, 1, 1, 1, .single,
    [⟨4, 4, .w1c, .any, 0, .none⟩, 
     ⟨3, 3, .w1c, .any, 0, .none⟩, 
     ⟨2, 2, .w1c, .any, 0, .none⟩, 
     ⟨1, 1, .w1c, .any, 0, .none⟩, 
     ⟨0, 0, .w1c, .any, 0, .none⟩], fun _ _ => 0x0⟩,
  -- PWR_PHASE_FAIL_LO: R74
  ⟨0x120008, 1, 1, 1, 1, .single,
    [⟨31, 0, .ro, .any, 0, .none⟩], fun _ _ => 0x0⟩,
  -- PWR_PHASE_FAIL_HI: R74
  ⟨0x12000c, 1, 1, 1, 1, .single,
    [⟨7, 0, .ro, .any, 0, .none⟩], fun _ _ => 0x0⟩,
  -- PWR_SHORT: R74
  ⟨0x120010, 1, 1, 1, 1, .single,
    [⟨5, 0, .w1c, .any, 0, .none⟩], fun _ _ => 0x0⟩,
  -- PWR_PAT_SHORT: R74
  ⟨0x120014, 1, 1, 1, 1, .single,
    [⟨31, 0, .w1c, .any, 0, .none⟩], fun _ _ => 0x0⟩,
  -- PWR_RETRY_CFG: R74
  ⟨0x120018, 1, 1, 1, 1, .single,
    [⟨16, 16, .rw, .any, 0, .none⟩, 
     ⟨9, 0, .rw, .range 1 1000, 100, .none⟩], fun _ _ => 0x64⟩,
  -- PWR_OV_ACCUM: R74
  ⟨0x12001c, 1, 1, 1, 1, .single,
    [⟨6, 0, .ro, .any, 0, .none⟩], fun _ _ => 0x0⟩,
  -- HK_CTRL: R83
  ⟨0x120100, 1, 1, 1, 1, .single,
    [⟨2, 2, .ro, .any, 0, .none⟩, 
     ⟨1, 1, .rw, .any, 0, .none⟩, 
     ⟨0, 0, .rw, .any, 0, .none⟩], fun _ _ => 0x0⟩,
  -- HK_TIMER: R83
  ⟨0x120104, 1, 1, 1, 1, .single,
    [⟨15, 0, .rw, .range 1 65535, 1000, .none⟩], fun _ _ => 0x3e8⟩,
  -- HK_COUNTS: R83
  ⟨0x120108, 1, 1, 1, 1, .single,
    [⟨31, 16, .ro, .any, 0, .none⟩, 
     ⟨15, 0, .ro, .any, 0, .none⟩], fun _ _ => 0x0⟩,
  -- HK_COUNT_CLEAR: R83
  ⟨0x12010c, 1, 1, 1, 1, .single,
    [⟨0, 0, .wo, .any, 0, .none⟩], fun _ _ => 0x0⟩,
  -- HK_SLOT: R83
  ⟨0x120140, 24, 4, 1, 1, .single,
    [⟨31, 31, .rw, .any, 0, .none⟩, 
     ⟨30, 30, .rw, .any, 0, .none⟩, 
     ⟨29, 29, .rw, .any, 0, .none⟩, 
     ⟨28, 24, .rw, .range 0 23, 0, .none⟩, 
     ⟨23, 18, .rw, .range 0 39, 0, .none⟩, 
     ⟨17, 14, .rw, .range 1 8, 1, .none⟩, 
     ⟨11, 0, .rw, .any, 0, .none⟩], fun i _ => 0x4000 + 0x1000000 * i⟩,
  -- HK_RES: R83
  ⟨0x120200, 24, 4, 1, 1, .single,
    [⟨31, 28, .ro, .any, 0, .none⟩, 
     ⟨27, 27, .ro, .any, 0, .none⟩, 
     ⟨26, 26, .ro, .any, 0, .none⟩, 
     ⟨20, 16, .ro, .any, 0, .none⟩, 
     ⟨11, 0, .ro, .any, 0, .none⟩], fun _ _ => 0x0⟩]

/-- The registers of the unit PWR (R594). -/
def pwrRegs : List RegDesc := pwrRegs0

/-- The registers of the unit AGE, part 1 (R594, R595). -/
def ageRegs0 : List RegDesc := [
  -- AGE_CTRL: R591
  ⟨0x130000, 1, 1, 1, 1, .single,
    [⟨3, 3, .wo, .any, 0, .none⟩, 
     ⟨2, 2, .wo, .any, 0, .none⟩, 
     ⟨1, 1, .rw, .any, 1, .none⟩, 
     ⟨0, 0, .rw, .any, 1, .none⟩], fun _ _ => 0x3⟩,
  -- AGE_STATUS: R591
  ⟨0x130004, 1, 1, 1, 1, .single,
    [⟨31, 31, .ro, .any, 1, .none⟩, 
     ⟨20, 20, .ro, .any, 0, .none⟩, 
     ⟨19, 16, .ro, .any, 0, .none⟩, 
     ⟨15, 12, .ro, .any, 0, .none⟩, 
     ⟨3, 3, .ro, .any, 0, .none⟩, 
     ⟨2, 0, .ro, .any, 0, .none⟩], fun _ _ => 0x80000000⟩,
  -- AGE_TDIE: R591
  ⟨0x130008, 1, 1, 1, 1, .single,
    [⟨15, 0, .ro, .any, 0, .none⟩], fun _ _ => 0x0⟩,
  -- AGE_PERIOD: R591
  ⟨0x130010, 1, 1, 1, 1, .single,
    [⟨16, 0, .rw, .range 60 86400, 3600, .none⟩], fun _ _ => 0xe10⟩,
  -- AGE_RETEST: R591
  ⟨0x130014, 1, 1, 1, 1, .single,
    [⟨11, 0, .rw, .range 1 3600, 10, .none⟩], fun _ _ => 0xa⟩,
  -- AGE_LIFE_H: R591
  ⟨0x130018, 1, 1, 1, 1, .single,
    [⟨17, 0, .rw, .range 8760 175200, 87600, .none⟩], fun _ _ => 0x15630⟩,
  -- AGE_SHDN_TMO: R591
  ⟨0x13001c, 1, 1, 1, 1, .single,
    [⟨3, 0, .rw, .range 1 12, 10, .none⟩], fun _ _ => 0xa⟩,
  -- AGE_LEDGER_MIN: R591
  ⟨0x130020, 1, 1, 1, 1, .single,
    [⟨10, 0, .rw, .range 10 1440, 60, .none⟩], fun _ _ => 0x3c⟩,
  -- AGE_GUARD: R591
  ⟨0x130024, 1, 1, 1, 1, .single,
    [⟨8, 0, .rw, .range 20 500, 60, .none⟩], fun _ _ => 0x3c⟩,
  -- AGE_SPMV: R591
  ⟨0x130028, 1, 1, 1, 1, .single,
    [⟨15, 0, .ro, .any, 0, .none⟩], fun _ _ => Config.factorySpmv % 65536⟩,
  -- AGE_OFFSET: R591
  ⟨0x130030, 4, 4, 1, 1, .single,
    [⟨31, 0, .ro, .any, 0, .none⟩], fun _ _ => 0x0⟩,
  -- AGE_MARGIN: R591
  ⟨0x130040, 4, 4, 1, 1, .single,
    [⟨31, 16, .ro, .any, 32768, .none⟩, 
     ⟨15, 0, .ro, .any, 0, .none⟩], fun _ _ => 0x80000000⟩,
  -- AGE_VCORE: R591
  ⟨0x130050, 1, 1, 1, 1, .single,
    [⟨25, 16, .ro, .any, 800, .none⟩, 
     ⟨9, 0, .ro, .any, 800, .none⟩], fun _ _ => 0x3200320⟩,
  -- AGE_POM: R591
  ⟨0x130054, 1, 1, 1, 1, .single,
    [⟨31, 0, .ro, .any, 0, .none⟩], fun _ _ => Config.ledgerPom⟩,
  -- AGE_LSEQ: R591
  ⟨0x130058, 1, 1, 1, 1, .single,
    [⟨31, 0, .ro, .any, 0, .none⟩], fun _ _ => Config.ledgerSeq⟩,
  -- AGE_FAULTS: R591
  ⟨0x13005c, 1, 1, 1, 1, .single,
    [⟨31, 0, .ro, .any, 0, .none⟩], fun _ _ => 0x0⟩,
  -- AGE_CNT_CLEAR: R591
  ⟨0x130060, 1, 1, 1, 1, .single,
    [⟨0, 0, .wo, .any, 0, .none⟩], fun _ _ => 0x0⟩,
  -- AGE_MON: R591
  ⟨0x130100, 64, 4, 1, 1, .single,
    [⟨31, 0, .ro, .any, 0, .none⟩], fun _ _ => 0x0⟩,
  -- AGE_SEED_LO: R591
  ⟨0x138000, 1, 1, 1, 1, .low .any,
    [⟨31, 0, .rwp, .any, 1, .none⟩], fun _ _ => 0x1⟩,
  -- AGE_SEED_HI: R591
  ⟨0x138004, 1, 1, 1, 1, .high,
    [⟨31, 0, .rwp, .any, 0, .none⟩], fun _ _ => 0x0⟩,
  -- PTB_CTRL: R591
  ⟨0x138008, 1, 1, 1, 1, .single,
    [⟨4, 0, .rwp, .any, 0, .none⟩], fun _ _ => 0x0⟩,
  -- PTB_PROB: R591
  ⟨0x138100, 5, 16, 1, 1, .single,
    [⟨7, 0, .rwp, .range 1 255, 16, .none⟩], fun _ _ => 0x10⟩,
  -- PTB_MAXD: R591
  ⟨0x138104, 5, 16, 1, 1, .single,
    [⟨15, 0, .rwp, .range 1 65535, 64, .none⟩], fun _ _ => 0x40⟩,
  -- PTB_COUNT: R591
  ⟨0x138108, 5, 16, 1, 1, .single,
    [⟨31, 0, .ro, .any, 0, .none⟩], fun _ _ => 0x0⟩]

/-- The registers of the unit AGE (R594). -/
def ageRegs : List RegDesc := ageRegs0

/-- The registers of the unit CFG, part 1 (R594, R595). -/
def cfgRegs0 : List RegDesc := [
  -- CFG_CTRL: R569
  ⟨0x140000, 1, 1, 1, 1, .single,
    [⟨0, 0, .rw, .any, 0, .none⟩], fun _ _ => 0x0⟩,
  -- CFG_STATUS: R569
  ⟨0x140004, 1, 1, 1, 1, .single,
    [⟨31, 31, .ro, .any, 1, .none⟩, 
     ⟨11, 11, .ro, .any, 0, .none⟩, 
     ⟨10, 10, .ro, .any, 0, .none⟩, 
     ⟨9, 8, .ro, .any, 3, .none⟩, 
     ⟨7, 6, .ro, .any, 3, .none⟩, 
     ⟨3, 0, .ro, .any, 1, .none⟩], fun _ _ => 0x800003c1⟩,
  -- CFG_RESET: R569
  ⟨0x140008, 1, 1, 1, 1, .single,
    [⟨1, 0, .wo, .enum 2, 0, .none⟩], fun _ _ => 0x0⟩,
  -- CFG_LAST_RESET: R569
  ⟨0x14000c, 1, 1, 1, 1, .single,
    [⟨3, 0, .ro, .any, 0, .none⟩], fun _ _ => 0x0⟩,
  -- CFG_RESET_TMO: R569
  ⟨0x140010, 1, 1, 1, 1, .single,
    [⟨9, 0, .rw, .range 1 1000, 10, .none⟩], fun _ _ => 0xa⟩,
  -- CFG_BASE_GEN: R569
  ⟨0x140014, 1, 1, 1, 1, .single,
    [⟨31, 0, .ro, .any, 0, .none⟩], fun _ _ => 0x0⟩,
  -- CFG_BASE_DISC: R569
  ⟨0x140018, 1, 1, 1, 1, .single,
    [⟨31, 0, .ro, .any, 0, .none⟩], fun _ _ => 0x0⟩,
  -- CFG_PROG: R569
  ⟨0x140020, 1, 1, 1, 1, .single,
    [⟨31, 31, .ro, .any, 0, .none⟩, 
     ⟨19, 16, .ro, .any, 0, .none⟩, 
     ⟨14, 8, .rw, .range 0 65, 0, .none⟩, 
     ⟨0, 0, .wo, .any, 0, .none⟩], fun _ _ => 0x0⟩,
  -- CFG_PROG_LEN: R569
  ⟨0x140024, 1, 1, 1, 1, .single,
    [⟨22, 0, .rw, .range 36 4194304, 36, .none⟩], fun _ _ => 0x24⟩,
  -- CFG_OV_DISC: R569
  ⟨0x140028, 1, 1, 1, 1, .single,
    [⟨31, 0, .ro, .any, 0, .none⟩], fun _ _ => 0x0⟩,
  -- CFG_PEND: R569
  ⟨0x14002c, 1, 1, 1, 1, .single,
    [⟨6, 0, .ro, .any, 0, .none⟩], fun _ _ => 0x0⟩,
  -- CFG_CNT_CLEAR: R569
  ⟨0x140030, 1, 1, 1, 1, .single,
    [⟨0, 0, .wo, .any, 0, .none⟩], fun _ _ => 0x0⟩,
  -- CFG_OV: R569
  ⟨0x140100, 64, 4, 1, 1, .single,
    [⟨31, 31, .ro, .any, 0, .none⟩, 
     ⟨30, 30, .ro, .any, 0, .none⟩, 
     ⟨29, 29, .ro, .any, 0, .none⟩, 
     ⟨8, 0, .ro, .any, 0, .none⟩], fun _ _ => 0x0⟩]

/-- The registers of the unit CFG (R594). -/
def cfgRegs : List RegDesc := cfgRegs0

/-- The registers of the unit CYK, part 1 (R594, R595). -/
def cykRegs0 : List RegDesc := [
  -- CYK_STATUS: R425
  ⟨0x1000000, 1, 1, 1, 1, .single,
    [⟨31, 31, .ro, .any, 1, .none⟩, 
     ⟨3, 0, .ro, .any, 0, .none⟩], fun _ _ => 0x80000000⟩,
  -- CYK_CNT_CLEAR: R425
  ⟨0x1000004, 1, 1, 1, 1, .single,
    [⟨0, 0, .wo, .any, 0, .none⟩], fun _ _ => 0x0⟩,
  -- CYK_TPDISC: R425
  ⟨0x1000008, 1, 1, 1, 1, .single,
    [⟨15, 0, .ro, .any, 0, .none⟩], fun _ _ => 0x0⟩,
  -- CYK_TLINE: R425
  ⟨0x1000020, 8, 4, 1, 1, .single,
    [⟨7, 7, .rwp, .any, 0, .none⟩, 
     ⟨6, 0, .rwp, .any, 0, .none⟩], fun _ _ => 0x0⟩,
  -- FD_CTRL: R425
  ⟨0x1001000, 16, 64, 1, 1, .single,
    [⟨21, 20, .rwp, .any, 0, .none⟩, 
     ⟨17, 16, .rwp, .any, 0, .none⟩, 
     ⟨15, 8, .rwp, .any, 0, .none⟩, 
     ⟨2, 1, .rwp, .any, 0, .none⟩, 
     ⟨0, 0, .rwp, .any, 0, .none⟩], fun _ _ => 0x0⟩,
  -- FD_CMASK: R425
  ⟨0x1001004, 16, 64, 1, 1, .single,
    [⟨31, 0, .rwp, .any, 0, .none⟩], fun _ _ => 0x0⟩,
  -- FD_ITEM: R425
  ⟨0x1001008, 16, 64, 1, 1, .single,
    [⟨16, 0, .rwp, .range 1 65536, 256, .none⟩], fun _ _ => 0x100⟩,
  -- FD_SEL: R425
  ⟨0x100100c, 16, 64, 1, 1, .single,
    [⟨15, 0, .rwp, .any, 0, .none⟩], fun _ _ => 0x0⟩,
  -- FD_FFDEC: R425
  ⟨0x1001010, 16, 64, 1, 1, .single,
    [⟨15, 0, .rwp, .range 1 65535, 1, .none⟩], fun _ _ => 0x1⟩,
  -- FD_ISEQ: R425
  ⟨0x1001014, 16, 64, 1, 1, .single,
    [⟨31, 0, .ro, .any, 0, .none⟩], fun _ _ => 0x0⟩,
  -- FD_LOST: R425
  ⟨0x1001018, 16, 64, 1, 1, .single,
    [⟨31, 0, .ro, .any, 0, .none⟩], fun _ _ => 0x0⟩,
  -- COR_CTRL: R425
  ⟨0x1800000, 128, 256, 1, 1, .single,
    [⟨3, 3, .wo, .any, 0, .none⟩, 
     ⟨2, 2, .wo, .any, 0, .none⟩, 
     ⟨1, 1, .wo, .any, 0, .none⟩, 
     ⟨0, 0, .rw, .any, 0, .none⟩], fun _ _ => 0x0⟩,
  -- COR_STATUS: R425
  ⟨0x1800004, 128, 256, 1, 1, .single,
    [⟨31, 31, .ro, .any, 1, .none⟩, 
     ⟨16, 16, .ro, .any, 0, .none⟩, 
     ⟨15, 8, .ro, .any, 0, .none⟩, 
     ⟨2, 0, .ro, .any, 0, .none⟩], fun _ _ => 0x80000000⟩,
  -- COR_PC: R425
  ⟨0x1800008, 128, 256, 1, 1, .single,
    [⟨13, 0, .ro, .any, 0, .none⟩], fun _ _ => 0x0⟩,
  -- COR_VEC: R425
  ⟨0x180000c, 128, 256, 1, 1, .single,
    [⟨13, 0, .rw, .any, 0, .core⟩], fun _ _ => 0x0⟩,
  -- COR_XBASE_LO: R425
  ⟨0x1800010, 128, 256, 1, 1, .low (.mult 2147483648 0 0xffffffffffff),
    [⟨31, 0, .rw, .any, 0, .core⟩], fun _ _ => 0x0⟩,
  -- COR_XBASE_HI: R425
  ⟨0x1800014, 128, 256, 1, 1, .high,
    [⟨31, 0, .rw, .any, 0, .core⟩], fun _ _ => 0x0⟩,
  -- COR_IQ_BASE: R425
  ⟨0x1800020, 128, 256, 4, 8, .single,
    [⟨17, 0, .rw, .mult 32 0 262112, 0, .core⟩], fun _ _ => 0x0⟩,
  -- COR_IQ_SLOTS: R425
  ⟨0x1800024, 128, 256, 4, 8, .single,
    [⟨31, 16, .rw, .range 0 8192, 0, .core⟩, 
     ⟨12, 0, .rw, .range 2 8192, 2, .core⟩], fun _ _ => 0x2⟩,
  -- COR_OBASE_LO: R425
  ⟨0x1800040, 128, 256, 1, 1, .low (.mult 64 0 0x17ffffffff),
    [⟨31, 0, .rw, .any, 0, .core⟩], fun _ _ => 0x0⟩,
  -- COR_OBASE_HI: R425
  ⟨0x1800044, 128, 256, 1, 1, .high,
    [⟨31, 0, .rw, .any, 0, .core⟩], fun _ _ => 0x0⟩,
  -- COR_OSLOTS: R425
  ⟨0x1800048, 128, 256, 1, 1, .single,
    [⟨20, 0, .rw, .range 2 1048576, 1024, .core⟩], fun _ _ => 0x400⟩,
  -- COR_OSLOT: R425
  ⟨0x180004c, 128, 256, 1, 1, .single,
    [⟨12, 0, .rw, .range 2 8192, 2, .core⟩], fun _ _ => 0x2⟩,
  -- COR_OWR: R425
  ⟨0x1800050, 128, 256, 1, 1, .single,
    [⟨20, 0, .ro, .any, 0, .none⟩], fun _ _ => 0x0⟩,
  -- COR_ORD: R425
  ⟨0x1800054, 128, 256, 1, 1, .single,
    [⟨20, 0, .rw, .any, 0, .none⟩], fun _ _ => 0x0⟩]

/-- The registers of the unit CYK, part 2 (R594, R595). -/
def cykRegs1 : List RegDesc := [
  -- COR_OLOST: R425
  ⟨0x1800058, 128, 256, 1, 1, .single,
    [⟨31, 0, .ro, .any, 0, .none⟩], fun _ _ => 0x0⟩,
  -- COR_ILOST: R425
  ⟨0x180005c, 128, 256, 1, 1, .single,
    [⟨31, 0, .ro, .any, 0, .none⟩], fun _ _ => 0x0⟩,
  -- COR_CYC_LO: R425
  ⟨0x1800060, 128, 256, 1, 1, .low .any,
    [⟨31, 0, .ro, .any, 0, .none⟩], fun _ _ => 0x0⟩,
  -- COR_CYC_HI: R425
  ⟨0x1800064, 128, 256, 1, 1, .high,
    [⟨31, 0, .ro, .any, 0, .none⟩], fun _ _ => 0x0⟩]

/-- The registers of the unit CYK (R594). -/
def cykRegs : List RegDesc := cykRegs0 ++ cykRegs1

/-- The registers of the unit whose 64 KiB range (16 MiB for CYK) holds a BAR0 offset (R594). -/
def unitRegs (off : Nat) : List RegDesc :=
  if off / 0x1000000 = 1 then cykRegs else
  match off / 0x10000 with
  | 0 => sysRegs
  | 1 => clkRegs
  | 2 => pllRegs
  | 3 => ingRegs
  | 4 => asyRegs
  | 5 => ddcRegs
  | 6 => spxRegs
  | 7 => trgRegs
  | 8 => hoopRegs
  | 9 => denRegs
  | 10 => galRegs
  | 11 => scrRegs
  | 12 => wvrRegs
  | 13 => tlyRegs
  | 14 => hifRegs
  | 15 => ptrRegs
  | 16 => hbmRegs
  | 17 => byoRegs
  | 18 => pwrRegs
  | 19 => ageRegs
  | 20 => cfgRegs
  | _ => []

/-- The register at a BAR0 offset among some registers, with its instance. -/
def findIn : List RegDesc → Nat → Option (RegDesc × Nat × Nat)
  | [], _ => none
  | d :: ds, off =>
    match d.instAt off with
    | some (i, j) => some (d, i, j)
    | none => findIn ds off

/-- The register at a BAR0 offset with its instance; none where no register lies (R13, R594). -/
def find (off : Nat) : Option (RegDesc × Nat × Nat) := findIn (unitRegs off) off

/-- The word a register reads after a full start-up and before the base image acts (R595). -/
def resetWord (off : Nat) : BitVec 32 :=
  match find off with
  | some (d, i, j) => BitVec.ofNat 32 (d.rst i j)
  | none => 0#32

end RegMap

/-- A field of one register word: the BAR0 offset, the lowest bit and the width. -/
structure Fld where
  off : Nat
  lo : Nat
  width : Nat
deriving DecidableEq, Repr

end Sys2Proof.Machine
end

