-- ==== Sys2Proof/Machine/Fields.lean ====
section
/-! DEFINITION. The manual's own names for the fields of the register map: `Fd.<REGISTER>_<FIELD>` is the field, and
for an arrayed block its arguments are the instances. Register offsets are chapter 23's. -/

namespace Sys2Proof.Machine.Fd

abbrev SYS_ID_PART : Fld := ⟨0x0, 16, 16⟩
abbrev SYS_ID_STEP : Fld := ⟨0x0, 8, 8⟩
abbrev SYS_ID_CODE : Fld := ⟨0x0, 0, 8⟩
abbrev SYS_FW_VER_MAJOR : Fld := ⟨0x4, 16, 16⟩
abbrev SYS_FW_VER_MINOR : Fld := ⟨0x4, 0, 16⟩
abbrev SYS_CLAMP_COUNT : Fld := ⟨0x10, 0, 32⟩
abbrev SYS_CLAMP_CLEAR : Fld := ⟨0x14, 0, 1⟩
abbrev SYS_ST_NOW_LO : Fld := ⟨0x100, 0, 32⟩
abbrev SYS_ST_NOW_HI : Fld := ⟨0x104, 0, 32⟩
abbrev SYS_EPOCH_LO : Fld := ⟨0x108, 0, 32⟩
abbrev SYS_EPOCH_HI : Fld := ⟨0x10c, 0, 32⟩
abbrev SYS_EPOCH_CTRL_BROADCAST : Fld := ⟨0x110, 2, 1⟩
abbrev SYS_EPOCH_CTRL_STOP : Fld := ⟨0x110, 1, 1⟩
abbrev SYS_EPOCH_CTRL_ARM : Fld := ⟨0x110, 0, 1⟩
abbrev SYS_ST_STATUS_EPOCH_MISMATCH : Fld := ⟨0x114, 5, 1⟩
abbrev SYS_ST_STATUS_ALIGN_ERR : Fld := ⟨0x114, 4, 1⟩
abbrev SYS_ST_STATUS_SYSREF_OK : Fld := ⟨0x114, 3, 1⟩
abbrev SYS_ST_STATUS_EPOCH_SRC : Fld := ⟨0x114, 1, 2⟩
abbrev SYS_ST_STATUS_RUN : Fld := ⟨0x114, 0, 1⟩
abbrev SYS_LANDING_CFG_K : Fld := ⟨0x118, 0, 5⟩
abbrev SYS_LAND_CTRL_OVF : Fld := ⟨0x11c, 17, 1⟩
abbrev SYS_LAND_CTRL_HOLD : Fld := ⟨0x11c, 16, 1⟩
abbrev SYS_LAND_CTRL_COUNT : Fld := ⟨0x11c, 0, 13⟩
abbrev SYS_NEXT_LAND_LO : Fld := ⟨0x120, 0, 32⟩
abbrev SYS_NEXT_LAND_HI : Fld := ⟨0x124, 0, 32⟩
abbrev SYS_STU_EXTEND : Fld := ⟨0x128, 0, 32⟩
abbrev SYS_DFLAG_STICKY_BITS : Fld := ⟨0x12c, 0, 7⟩
abbrev CLK_SRC_SWITCHING : Fld := ⟨0x10000, 10, 1⟩
abbrev CLK_SRC_ACT : Fld := ⟨0x10000, 8, 2⟩
abbrev CLK_SRC_AUTO : Fld := ⟨0x10000, 4, 1⟩
abbrev CLK_SRC_SEL : Fld := ⟨0x10000, 0, 2⟩
abbrev CLK_STATUS_RAMPING : Fld := ⟨0x10004, 3, 1⟩
abbrev CLK_STATUS_EXT_FREQ : Fld := ⟨0x10004, 2, 1⟩
abbrev CLK_STATUS_EXT_OK : Fld := ⟨0x10004, 1, 1⟩
abbrev CLK_STATUS_OCXO_RDY : Fld := ⟨0x10004, 0, 1⟩
abbrev CLK_HOLD_LIM : Fld := ⟨0x10008, 0, 12⟩
abbrev CLK_GATE_TMO : Fld := ⟨0x1000c, 0, 14⟩
abbrev CLK_GATE (i : Nat) : Fld := ⟨0x10010 + 0x4 * i, 0, 32⟩
abbrev CLK_GSTAT (i : Nat) : Fld := ⟨0x10020 + 0x4 * i, 0, 32⟩
abbrev CLK_GATED_ACC : Fld := ⟨0x10030, 0, 32⟩
abbrev CLK_CNT_CLEAR : Fld := ⟨0x10034, 0, 1⟩
abbrev CLK_CLKOUT_EN : Fld := ⟨0x10040, 31, 1⟩
abbrev CLK_CLKOUT_SEL : Fld := ⟨0x10040, 0, 7⟩
abbrev CLK_CLKOUT_DIV : Fld := ⟨0x10044, 0, 17⟩
abbrev CLK_FREQ_SEL : Fld := ⟨0x10048, 0, 7⟩
abbrev CLK_FREQ_KHZ : Fld := ⟨0x1004c, 0, 32⟩
abbrev PLL_CTRL_REFMODE (i : Nat) : Fld := ⟨0x20000 + 0x40 * i, 0, 2⟩
abbrev PLL_STATUS_REF_PRESENT (i : Nat) : Fld := ⟨0x20004 + 0x40 * i, 2, 1⟩
abbrev PLL_STATUS_HOLD (i : Nat) : Fld := ⟨0x20004 + 0x40 * i, 1, 1⟩
abbrev PLL_STATUS_LOCK (i : Nat) : Fld := ⟨0x20004 + 0x40 * i, 0, 1⟩
abbrev PLL_DIV_N (i : Nat) : Fld := ⟨0x20008 + 0x40 * i, 16, 12⟩
abbrev PLL_DIV_ODIV (i : Nat) : Fld := ⟨0x20008 + 0x40 * i, 8, 8⟩
abbrev PLL_DIV_PD (i : Nat) : Fld := ⟨0x20008 + 0x40 * i, 0, 7⟩
abbrev PLL_PHASE (i : Nat) : Fld := ⟨0x2000c + 0x40 * i, 0, 8⟩
abbrev PLL_PHASE_ACT (i : Nat) : Fld := ⟨0x20010 + 0x40 * i, 0, 8⟩
abbrev PLL_HOLDS (i : Nat) : Fld := ⟨0x20014 + 0x40 * i, 0, 32⟩
abbrev PLL_FOUT_KHZ (i : Nat) : Fld := ⟨0x20018 + 0x40 * i, 0, 32⟩
abbrev ING_CTRL_CH_EN : Fld := ⟨0x30000, 4, 4⟩
abbrev ING_CTRL_AUTO_RBD : Fld := ⟨0x30000, 3, 1⟩
abbrev ING_CTRL_SR_SCAN : Fld := ⟨0x30000, 2, 1⟩
abbrev ING_CTRL_EN : Fld := ⟨0x30000, 0, 1⟩
abbrev ING_MODE_DEVCLK_DIV : Fld := ⟨0x30004, 8, 2⟩
abbrev ING_MODE_NRES : Fld := ⟨0x30004, 4, 2⟩
abbrev ING_MODE : Fld := ⟨0x30004, 0, 3⟩
abbrev ING_FS_KHZ : Fld := ⟨0x30008, 0, 32⟩
abbrev ING_SR_CFG_PERIOD : Fld := ⟨0x3000c, 8, 16⟩
abbrev ING_SR_CFG_PERIODIC : Fld := ⟨0x3000c, 0, 1⟩
abbrev ING_SR_PHASE_SCANNING : Fld := ⟨0x30010, 17, 1⟩
abbrev ING_SR_PHASE_SCAN_OK : Fld := ⟨0x30010, 16, 1⟩
abbrev ING_SR_PHASE_EDGE : Fld := ⟨0x30010, 8, 8⟩
abbrev ING_SR_PHASE_PHASE : Fld := ⟨0x30010, 0, 8⟩
abbrev ING_SR_STATUS_COUNT : Fld := ⟨0x30014, 16, 16⟩
abbrev ING_SR_STATUS_INVERTED : Fld := ⟨0x30014, 2, 1⟩
abbrev ING_SR_STATUS_LEMC_SET : Fld := ⟨0x30014, 1, 1⟩
abbrev ING_RBD_T_REL : Fld := ⟨0x30018, 16, 16⟩
abbrev ING_RBD : Fld := ⟨0x30018, 0, 10⟩
abbrev ING_CH_STATUS_WAS_DOWN : Fld := ⟨0x3001c, 16, 4⟩
abbrev ING_CH_STATUS_STATE : Fld := ⟨0x3001c, 0, 16⟩
abbrev ING_ARR_LATE (i : Nat) : Fld := ⟨0x30020 + 0x4 * i, 16, 16⟩
abbrev ING_ARR_EARLY (i : Nat) : Fld := ⟨0x30020 + 0x4 * i, 0, 16⟩
abbrev ING_LSTATE (i : Nat) : Fld := ⟨0x30030 + 0x4 * i, 0, 32⟩
abbrev ING_POL_INV_LO : Fld := ⟨0x30050, 0, 32⟩
abbrev ING_POL_INV_HI : Fld := ⟨0x30054, 0, 32⟩
abbrev ING_CRC_LIMIT : Fld := ⟨0x30058, 0, 8⟩
abbrev ING_ERR_CRC (i : Nat) : Fld := ⟨0x30060 + 0x4 * i, 16, 16⟩
abbrev ING_ERR_FAULTS (i : Nat) : Fld := ⟨0x30060 + 0x4 * i, 0, 16⟩
abbrev ING_ERR_CLEAR : Fld := ⟨0x30070, 0, 1⟩
abbrev ING_RW_OLDEST_LO : Fld := ⟨0x30080, 0, 32⟩
abbrev ING_RW_OLDEST_HI : Fld := ⟨0x30084, 0, 32⟩
abbrev ING_RW_SPAN : Fld := ⟨0x30088, 0, 32⟩
abbrev ASY_CTRL_ABORT : Fld := ⟨0x40000, 12, 1⟩
abbrev ASY_CTRL_REQ : Fld := ⟨0x40000, 8, 4⟩
abbrev ASY_CTRL_CORR_EN : Fld := ⟨0x40000, 4, 4⟩
abbrev ASY_CTRL_AUTO_TEMP : Fld := ⟨0x40000, 3, 1⟩
abbrev ASY_CTRL_EN : Fld := ⟨0x40000, 0, 1⟩
abbrev ASY_CFG_Q : Fld := ⟨0x40004, 16, 7⟩
abbrev ASY_CFG_WIN : Fld := ⟨0x40004, 8, 5⟩
abbrev ASY_CFG_EST_MASK : Fld := ⟨0x40004, 4, 4⟩
abbrev ASY_CFG_MAXIT : Fld := ⟨0x40004, 0, 4⟩
abbrev ASY_TEMP_THRESH : Fld := ⟨0x40008, 0, 8⟩
abbrev ASY_XREF_REF : Fld := ⟨0x4000c, 4, 2⟩
abbrev ASY_XREF_PAIR : Fld := ⟨0x4000c, 0, 4⟩
abbrev ASY_CONV_TEMP (i : Nat) : Fld := ⟨0x40010 + 0x4 * i, 0, 16⟩
abbrev ASY_DLY (i : Nat) : Fld := ⟨0x40020 + 0x4 * i, 0, 14⟩
abbrev ASY_STATUS_QUIESCENT : Fld := ⟨0x40030, 31, 1⟩
abbrev ASY_STATUS_LOG_OVF : Fld := ⟨0x40030, 20, 1⟩
abbrev ASY_STATUS_CHS_OWNER : Fld := ⟨0x40030, 18, 2⟩
abbrev ASY_STATUS_CH : Fld := ⟨0x40030, 16, 2⟩
abbrev ASY_STATUS_DEFERRED : Fld := ⟨0x40030, 12, 4⟩
abbrev ASY_STATUS_QUEUED : Fld := ⟨0x40030, 8, 4⟩
abbrev ASY_STATUS_APPLYING : Fld := ⟨0x40030, 4, 4⟩
abbrev ASY_STATUS_PHASE : Fld := ⟨0x40030, 0, 3⟩
abbrev ASY_RESULT_OUTCOME (i : Nat) : Fld := ⟨0x40040 + 0x4 * i, 20, 4⟩
abbrev ASY_RESULT_CODES (i : Nat) : Fld := ⟨0x40040 + 0x4 * i, 0, 20⟩
abbrev ASY_QUAL_ITER (i : Nat) : Fld := ⟨0x40050 + 0x4 * i, 16, 4⟩
abbrev ASY_QUAL_SPUR (i : Nat) : Fld := ⟨0x40050 + 0x4 * i, 0, 16⟩
abbrev ASY_CSID (i : Nat) : Fld := ⟨0x40060 + 0x4 * i, 0, 32⟩
abbrev ASY_RUN_NO : Fld := ⟨0x40070, 0, 32⟩
abbrev ASY_TREF_DIE (i : Nat) : Fld := ⟨0x40080 + 0x4 * i, 16, 16⟩
abbrev ASY_TREF_CONV (i : Nat) : Fld := ⟨0x40080 + 0x4 * i, 0, 16⟩
abbrev ASY_HIST (i : Nat) : Fld := ⟨0x400a0 + 0x4 * i, 0, 32⟩
abbrev ASY_SAT (i : Nat) : Fld := ⟨0x400b0 + 0x4 * i, 0, 16⟩
abbrev ASY_SAT_CLEAR : Fld := ⟨0x400c0, 0, 1⟩
abbrev ASY_LOG_BASE_LO : Fld := ⟨0x400d0, 0, 32⟩
abbrev ASY_LOG_BASE_HI : Fld := ⟨0x400d4, 0, 32⟩
abbrev ASY_LOG_SIZE : Fld := ⟨0x400d8, 0, 16⟩
abbrev ASY_LOG_WR : Fld := ⟨0x400dc, 0, 16⟩
abbrev ASY_LOG_RD : Fld := ⟨0x400e0, 0, 16⟩
abbrev ASY_EYE (i : Nat) : Fld := ⟨0x40100 + 0x4 * i, 0, 32⟩
abbrev DDC_CTRL_DEC (i : Nat) : Fld := ⟨0x50000 + 0x100 * i, 8, 4⟩
abbrev DDC_CTRL_OSH (i : Nat) : Fld := ⟨0x50000 + 0x100 * i, 4, 4⟩
abbrev DDC_CTRL_RUN (i : Nat) : Fld := ⟨0x50000 + 0x100 * i, 0, 1⟩
abbrev DDC_FTW_LO (i : Nat) : Fld := ⟨0x50004 + 0x100 * i, 0, 32⟩
abbrev DDC_FTW_HI (i : Nat) : Fld := ⟨0x50008 + 0x100 * i, 0, 16⟩
abbrev DDC_POFF_LO (i : Nat) : Fld := ⟨0x5000c + 0x100 * i, 0, 32⟩
abbrev DDC_POFF_HI (i : Nat) : Fld := ⟨0x50010 + 0x100 * i, 0, 16⟩
abbrev DDC_STATUS_QUIESCENT (i : Nat) : Fld := ⟨0x50014 + 0x100 * i, 31, 1⟩
abbrev DDC_STATUS_SETTLING (i : Nat) : Fld := ⟨0x50014 + 0x100 * i, 1, 1⟩
abbrev DDC_STATUS_RUNNING (i : Nat) : Fld := ⟨0x50014 + 0x100 * i, 0, 1⟩
abbrev DDC_GDELAY (i : Nat) : Fld := ⟨0x50018 + 0x100 * i, 0, 16⟩
abbrev DDC_SAT (i : Nat) : Fld := ⟨0x5001c + 0x100 * i, 0, 16⟩
abbrev DDC_COEF (i j : Nat) : Fld := ⟨0x50040 + 0x100 * i + 0x4 * j, 0, 20⟩
abbrev ZB_SAT_CLEAR : Fld := ⟨0x50800, 0, 1⟩
abbrev ZB_STATUS_QUIESCENT : Fld := ⟨0x50804, 31, 1⟩
abbrev ZB_RUN_LO : Fld := ⟨0x50808, 0, 32⟩
abbrev ZB_RUN_HI : Fld := ⟨0x5080c, 0, 32⟩
abbrev ZB_LOAD (i : Nat) : Fld := ⟨0x50840 + 0x4 * i, 0, 9⟩
abbrev CD_CTRL_IDX (i : Nat) : Fld := ⟨0x50a00 + 0x20 * i, 8, 6⟩
abbrev CD_CTRL_KIND (i : Nat) : Fld := ⟨0x50a00 + 0x20 * i, 0, 2⟩
abbrev CD_DEC (i : Nat) : Fld := ⟨0x50a04 + 0x20 * i, 0, 17⟩
abbrev CD_ANCHOR_LO (i : Nat) : Fld := ⟨0x50a08 + 0x20 * i, 0, 32⟩
abbrev CD_ANCHOR_HI (i : Nat) : Fld := ⟨0x50a0c + 0x20 * i, 0, 32⟩
abbrev ZC_CTRL_SRC (i : Nat) : Fld := ⟨0x51000 + 0x40 * i, 8, 2⟩
abbrev ZC_CTRL_OSH (i : Nat) : Fld := ⟨0x51000 + 0x40 * i, 4, 4⟩
abbrev ZC_CTRL_RUN (i : Nat) : Fld := ⟨0x51000 + 0x40 * i, 0, 1⟩
abbrev ZC_DEC (i : Nat) : Fld := ⟨0x51004 + 0x40 * i, 0, 13⟩
abbrev ZC_TAPS_BASE (i : Nat) : Fld := ⟨0x51008 + 0x40 * i, 16, 13⟩
abbrev ZC_TAPS_T (i : Nat) : Fld := ⟨0x51008 + 0x40 * i, 0, 13⟩
abbrev ZC_FTW_LO (i : Nat) : Fld := ⟨0x5100c + 0x40 * i, 0, 32⟩
abbrev ZC_FTW_HI (i : Nat) : Fld := ⟨0x51010 + 0x40 * i, 0, 16⟩
abbrev ZC_POFF_LO (i : Nat) : Fld := ⟨0x51014 + 0x40 * i, 0, 32⟩
abbrev ZC_POFF_HI (i : Nat) : Fld := ⟨0x51018 + 0x40 * i, 0, 16⟩
abbrev ZC_STATUS_QUIESCENT (i : Nat) : Fld := ⟨0x5101c + 0x40 * i, 31, 1⟩
abbrev ZC_STATUS_REFUSED (i : Nat) : Fld := ⟨0x5101c + 0x40 * i, 3, 1⟩
abbrev ZC_STATUS_TAIL (i : Nat) : Fld := ⟨0x5101c + 0x40 * i, 2, 1⟩
abbrev ZC_STATUS_SETTLING (i : Nat) : Fld := ⟨0x5101c + 0x40 * i, 1, 1⟩
abbrev ZC_STATUS_RUNNING (i : Nat) : Fld := ⟨0x5101c + 0x40 * i, 0, 1⟩
abbrev ZC_GDELAY (i : Nat) : Fld := ⟨0x51020 + 0x40 * i, 0, 32⟩
abbrev ZC_ANCHOR_LO (i : Nat) : Fld := ⟨0x51024 + 0x40 * i, 0, 32⟩
abbrev ZC_ANCHOR_HI (i : Nat) : Fld := ⟨0x51028 + 0x40 * i, 0, 32⟩
abbrev ZC_SAT (i : Nat) : Fld := ⟨0x5102c + 0x40 * i, 0, 16⟩
abbrev ZB_CM (i : Nat) : Fld := ⟨0x58000 + 0x4 * i, 0, 20⟩
abbrev SPX_CTRL_OVL (i : Nat) : Fld := ⟨0x60000 + 0x400 * i, 16, 3⟩
abbrev SPX_CTRL_LOG2N (i : Nat) : Fld := ⟨0x60000 + 0x400 * i, 8, 5⟩
abbrev SPX_CTRL_WIN (i : Nat) : Fld := ⟨0x60000 + 0x400 * i, 4, 4⟩
abbrev SPX_CTRL_SRC (i : Nat) : Fld := ⟨0x60000 + 0x400 * i, 1, 1⟩
abbrev SPX_CTRL_RUN (i : Nat) : Fld := ⟨0x60000 + 0x400 * i, 0, 1⟩
abbrev SPX_SCHED (i : Nat) : Fld := ⟨0x60004 + 0x400 * i, 0, 32⟩
abbrev SPX_STATUS_QUIESCENT (i : Nat) : Fld := ⟨0x60008 + 0x400 * i, 31, 1⟩
abbrev SPX_STATUS_REFUSED (i : Nat) : Fld := ⟨0x60008 + 0x400 * i, 3, 1⟩
abbrev SPX_STATUS_TAIL (i : Nat) : Fld := ⟨0x60008 + 0x400 * i, 2, 1⟩
abbrev SPX_STATUS_SETTLING (i : Nat) : Fld := ⟨0x60008 + 0x400 * i, 1, 1⟩
abbrev SPX_STATUS_RUNNING (i : Nat) : Fld := ⟨0x60008 + 0x400 * i, 0, 1⟩
abbrev SPX_ANCHOR_LO (i : Nat) : Fld := ⟨0x6000c + 0x400 * i, 0, 32⟩
abbrev SPX_ANCHOR_HI (i : Nat) : Fld := ⟨0x60010 + 0x400 * i, 0, 32⟩
abbrev SPX_HOP (i : Nat) : Fld := ⟨0x60014 + 0x400 * i, 0, 32⟩
abbrev SPX_CGC (i : Nat) : Fld := ⟨0x60018 + 0x400 * i, 0, 16⟩
abbrev SPX_SAT (i : Nat) : Fld := ⟨0x6001c + 0x400 * i, 0, 16⟩
abbrev TR_TCTRL_CLEAR (i j : Nat) : Fld := ⟨0x60100 + 0x400 * i + 0x40 * j, 16, 1⟩
abbrev TR_TCTRL_AEXP (i j : Nat) : Fld := ⟨0x60100 + 0x400 * i + 0x40 * j, 12, 4⟩
abbrev TR_TCTRL_MODE (i j : Nat) : Fld := ⟨0x60100 + 0x400 * i + 0x40 * j, 8, 3⟩
abbrev TR_TCTRL_DET (i j : Nat) : Fld := ⟨0x60100 + 0x400 * i + 0x40 * j, 4, 3⟩
abbrev TR_TCTRL_EN (i j : Nat) : Fld := ⟨0x60100 + 0x400 * i + 0x40 * j, 0, 1⟩
abbrev TR_COLS (i j : Nat) : Fld := ⟨0x60104 + 0x400 * i + 0x40 * j, 0, 13⟩
abbrev TR_JSTART (i j : Nat) : Fld := ⟨0x60108 + 0x400 * i + 0x40 * j, 0, 16⟩
abbrev TR_JSPAN (i j : Nat) : Fld := ⟨0x6010c + 0x400 * i + 0x40 * j, 0, 17⟩
abbrev TR_FDEC (i j : Nat) : Fld := ⟨0x60110 + 0x400 * i + 0x40 * j, 0, 16⟩
abbrev TR_RING_BASE_LO (i j : Nat) : Fld := ⟨0x60114 + 0x400 * i + 0x40 * j, 0, 32⟩
abbrev TR_RING_BASE_HI (i j : Nat) : Fld := ⟨0x60118 + 0x400 * i + 0x40 * j, 0, 32⟩
abbrev TR_RING_SLOTS (i j : Nat) : Fld := ⟨0x6011c + 0x400 * i + 0x40 * j, 0, 21⟩
abbrev TR_WR (i j : Nat) : Fld := ⟨0x60120 + 0x400 * i + 0x40 * j, 0, 21⟩
abbrev TR_RD (i j : Nat) : Fld := ⟨0x60124 + 0x400 * i + 0x40 * j, 0, 21⟩
abbrev TR_LOST (i j : Nat) : Fld := ⟨0x60128 + 0x400 * i + 0x40 * j, 0, 32⟩
abbrev TR_RSEQ (i j : Nat) : Fld := ⟨0x6012c + 0x400 * i + 0x40 * j, 0, 32⟩
abbrev SPXG_UWIN_ADDR : Fld := ⟨0x61000, 0, 16⟩
abbrev SPXG_UWIN_DATA : Fld := ⟨0x61004, 0, 20⟩
abbrev SPXG_UCGC : Fld := ⟨0x61008, 0, 16⟩
abbrev SPXG_SAT_CLEAR : Fld := ⟨0x6100c, 0, 1⟩
abbrev SPXG_STATUS_QUIESCENT : Fld := ⟨0x61010, 31, 1⟩
abbrev TRG_CTRL_EN : Fld := ⟨0x70000, 0, 1⟩
abbrev TRG_STATUS_QUIESCENT : Fld := ⟨0x70004, 31, 1⟩
abbrev TRG_STATUS_STALLED : Fld := ⟨0x70004, 0, 8⟩
abbrev TRG_FAB_HZ : Fld := ⟨0x70008, 0, 21⟩
abbrev TRG_CYK_TMO : Fld := ⟨0x7000c, 0, 20⟩
abbrev TRG_RING_BASE_LO : Fld := ⟨0x70010, 0, 32⟩
abbrev TRG_RING_BASE_HI : Fld := ⟨0x70014, 0, 32⟩
abbrev TRG_RING_SLOTS : Fld := ⟨0x70018, 0, 21⟩
abbrev TRG_WR : Fld := ⟨0x7001c, 0, 21⟩
abbrev TRG_RD : Fld := ⟨0x70020, 0, 21⟩
abbrev TRG_LOST : Fld := ⟨0x70024, 0, 32⟩
abbrev TRG_MASK_ADDR : Fld := ⟨0x70028, 0, 15⟩
abbrev TRG_MASK_DATA : Fld := ⟨0x7002c, 0, 32⟩
abbrev TRG_XLOG_BASE_LO : Fld := ⟨0x70030, 0, 32⟩
abbrev TRG_XLOG_BASE_HI : Fld := ⟨0x70034, 0, 32⟩
abbrev TRG_XLOG_SIZE : Fld := ⟨0x70038, 0, 21⟩
abbrev TRG_XLOG_WR : Fld := ⟨0x7003c, 0, 21⟩
abbrev TRG_XLOG_RD : Fld := ⟨0x70040, 0, 21⟩
abbrev TRG_XLOG_STATUS_PLAYBACK : Fld := ⟨0x70044, 1, 1⟩
abbrev TRG_XLOG_STATUS_OVF : Fld := ⟨0x70044, 0, 1⟩
abbrev TRG_CNT_CLEAR : Fld := ⟨0x70048, 0, 1⟩
abbrev TIN_CFG_EN (i : Nat) : Fld := ⟨0x70100 + 0x10 * i, 2, 1⟩
abbrev TIN_CFG_EDGE (i : Nat) : Fld := ⟨0x70100 + 0x10 * i, 0, 2⟩
abbrev TIN_OFF (i : Nat) : Fld := ⟨0x70104 + 0x10 * i, 0, 17⟩
abbrev TD_CTRL_COND (i : Nat) : Fld := ⟨0x70200 + 0x20 * i, 8, 3⟩
abbrev TD_CTRL_COMP (i : Nat) : Fld := ⟨0x70200 + 0x20 * i, 4, 2⟩
abbrev TD_CTRL_SRC (i : Nat) : Fld := ⟨0x70200 + 0x20 * i, 1, 1⟩
abbrev TD_CTRL_EN (i : Nat) : Fld := ⟨0x70200 + 0x20 * i, 0, 1⟩
abbrev TD_LEVEL (i : Nat) : Fld := ⟨0x70204 + 0x20 * i, 0, 16⟩
abbrev TD_HYS (i : Nat) : Fld := ⟨0x70208 + 0x20 * i, 0, 16⟩
abbrev MASK_CTRL_COND (i : Nat) : Fld := ⟨0x70300 + 0x20 * i, 4, 2⟩
abbrev MASK_CTRL_BANK (i : Nat) : Fld := ⟨0x70300 + 0x20 * i, 1, 1⟩
abbrev MASK_CTRL_EN (i : Nat) : Fld := ⟨0x70300 + 0x20 * i, 0, 1⟩
abbrev MASK_K (i : Nat) : Fld := ⟨0x70304 + 0x20 * i, 0, 16⟩
abbrev MASK_JRANGE_JHI (i : Nat) : Fld := ⟨0x70308 + 0x20 * i, 16, 16⟩
abbrev MASK_JRANGE_JLO (i : Nat) : Fld := ⟨0x70308 + 0x20 * i, 0, 16⟩
abbrev TDEN_CTRL_DWIN (i : Nat) : Fld := ⟨0x70400 + 0x20 * i, 8, 8⟩
abbrev TDEN_CTRL_EN (i : Nat) : Fld := ⟨0x70400 + 0x20 * i, 0, 1⟩
abbrev TDEN_COLS_COL_HI (i : Nat) : Fld := ⟨0x70404 + 0x20 * i, 16, 12⟩
abbrev TDEN_COLS_COL_LO (i : Nat) : Fld := ⟨0x70404 + 0x20 * i, 0, 12⟩
abbrev TDEN_ROWS_ROW_HI (i : Nat) : Fld := ⟨0x70408 + 0x20 * i, 16, 10⟩
abbrev TDEN_ROWS_ROW_LO (i : Nat) : Fld := ⟨0x70408 + 0x20 * i, 0, 10⟩
abbrev TDEN_DTHR (i : Nat) : Fld := ⟨0x7040c + 0x20 * i, 0, 21⟩
abbrev ZP_CTRL_COND (i : Nat) : Fld := ⟨0x70500 + 0x10 * i, 12, 2⟩
abbrev ZP_CTRL_ZC (i : Nat) : Fld := ⟨0x70500 + 0x10 * i, 4, 6⟩
abbrev ZP_CTRL_EN (i : Nat) : Fld := ⟨0x70500 + 0x10 * i, 0, 1⟩
abbrev ZP_LEVEL (i : Nat) : Fld := ⟨0x70504 + 0x10 * i, 0, 16⟩
abbrev ZP_HYS (i : Nat) : Fld := ⟨0x70508 + 0x10 * i, 0, 16⟩
abbrev TU_CTRL_FABOUT (i : Nat) : Fld := ⟨0x71000 + 0x40 * i, 16, 5⟩
abbrev TU_CTRL_FORCE (i : Nat) : Fld := ⟨0x71000 + 0x40 * i, 9, 1⟩
abbrev TU_CTRL_ARM (i : Nat) : Fld := ⟨0x71000 + 0x40 * i, 8, 1⟩
abbrev TU_CTRL_QINV (i : Nat) : Fld := ⟨0x71000 + 0x40 * i, 4, 1⟩
abbrev TU_CTRL_ARMMODE (i : Nat) : Fld := ⟨0x71000 + 0x40 * i, 3, 1⟩
abbrev TU_CTRL_MODE (i : Nat) : Fld := ⟨0x71000 + 0x40 * i, 1, 2⟩
abbrev TU_CTRL_EN (i : Nat) : Fld := ⟨0x71000 + 0x40 * i, 0, 1⟩
abbrev TU_SRC_Q (i : Nat) : Fld := ⟨0x71004 + 0x40 * i, 16, 8⟩
abbrev TU_SRC_B (i : Nat) : Fld := ⟨0x71004 + 0x40 * i, 8, 8⟩
abbrev TU_SRC_A (i : Nat) : Fld := ⟨0x71004 + 0x40 * i, 0, 8⟩
abbrev TU_WINDOW (i : Nat) : Fld := ⟨0x71008 + 0x40 * i, 0, 32⟩
abbrev TU_HOLDOFF (i : Nat) : Fld := ⟨0x7100c + 0x40 * i, 0, 32⟩
abbrev TU_COUNT (i : Nat) : Fld := ⟨0x71010 + 0x40 * i, 0, 17⟩
abbrev TU_QWIN (i : Nat) : Fld := ⟨0x71014 + 0x40 * i, 0, 32⟩
abbrev TU_STATUS_QUIESCENT (i : Nat) : Fld := ⟨0x71018 + 0x40 * i, 31, 1⟩
abbrev TU_STATUS_STATE (i : Nat) : Fld := ⟨0x71018 + 0x40 * i, 0, 3⟩
abbrev TU_FIRES (i : Nat) : Fld := ⟨0x7101c + 0x40 * i, 0, 32⟩
abbrev TU_IGNORED (i : Nat) : Fld := ⟨0x71020 + 0x40 * i, 0, 32⟩
abbrev TU_FORCE_LOST (i : Nat) : Fld := ⟨0x71024 + 0x40 * i, 0, 16⟩
abbrev TU_DMIN (i : Nat) : Fld := ⟨0x71028 + 0x40 * i, 0, 24⟩
abbrev TOUT_CTRL_TUMASK (i : Nat) : Fld := ⟨0x72000 + 0x10 * i, 8, 8⟩
abbrev TOUT_CTRL_POL (i : Nat) : Fld := ⟨0x72000 + 0x10 * i, 1, 1⟩
abbrev TOUT_CTRL_EN (i : Nat) : Fld := ⟨0x72000 + 0x10 * i, 0, 1⟩
abbrev TOUT_DELAY (i : Nat) : Fld := ⟨0x72004 + 0x10 * i, 0, 24⟩
abbrev TOUT_WIDTH (i : Nat) : Fld := ⟨0x72008 + 0x10 * i, 0, 24⟩
abbrev TOUT_STATUS_LATE (i : Nat) : Fld := ⟨0x7200c + 0x10 * i, 16, 16⟩
abbrev TOUT_STATUS_JOINED (i : Nat) : Fld := ⟨0x7200c + 0x10 * i, 0, 16⟩
abbrev HOOP_STATUS_QUIESCENT : Fld := ⟨0x80000, 31, 1⟩
abbrev HOOP_STATUS_ACTIVE : Fld := ⟨0x80000, 0, 8⟩
abbrev HOOP_TOTAL : Fld := ⟨0x80004, 0, 17⟩
abbrev HOOP_CNT_CLEAR : Fld := ⟨0x80008, 0, 1⟩
abbrev HW_CTRL_TUMASK (i : Nat) : Fld := ⟨0x81000 + 0x100 * i, 16, 8⟩
abbrev HW_CTRL_ARM (i : Nat) : Fld := ⟨0x81000 + 0x100 * i, 9, 1⟩
abbrev HW_CTRL_ARMMODE (i : Nat) : Fld := ⟨0x81000 + 0x100 * i, 3, 1⟩
abbrev HW_CTRL_EN (i : Nat) : Fld := ⟨0x81000 + 0x100 * i, 0, 1⟩
abbrev HW_SRC_IDX (i : Nat) : Fld := ⟨0x81004 + 0x100 * i, 8, 4⟩
abbrev HW_SRC_KIND (i : Nat) : Fld := ⟨0x81004 + 0x100 * i, 0, 2⟩
abbrev HW_BASE_LO (i : Nat) : Fld := ⟨0x81008 + 0x100 * i, 0, 32⟩
abbrev HW_BASE_HI (i : Nat) : Fld := ⟨0x8100c + 0x100 * i, 0, 32⟩
abbrev HW_SIZE (i : Nat) : Fld := ⟨0x81010 + 0x100 * i, 0, 17⟩
abbrev HW_NSEG (i : Nat) : Fld := ⟨0x81014 + 0x100 * i, 0, 17⟩
abbrev HW_PRE (i : Nat) : Fld := ⟨0x81018 + 0x100 * i, 0, 32⟩
abbrev HW_POST (i : Nat) : Fld := ⟨0x8101c + 0x100 * i, 0, 32⟩
abbrev HW_HDR_BASE_LO (i : Nat) : Fld := ⟨0x81020 + 0x100 * i, 0, 32⟩
abbrev HW_HDR_BASE_HI (i : Nat) : Fld := ⟨0x81024 + 0x100 * i, 0, 32⟩
abbrev HW_STATUS_QUIESCENT (i : Nat) : Fld := ⟨0x81028 + 0x100 * i, 31, 1⟩
abbrev HW_STATUS_SHORT (i : Nat) : Fld := ⟨0x81028 + 0x100 * i, 10, 1⟩
abbrev HW_STATUS_REFUSED (i : Nat) : Fld := ⟨0x81028 + 0x100 * i, 9, 1⟩
abbrev HW_STATUS_PENDING (i : Nat) : Fld := ⟨0x81028 + 0x100 * i, 8, 1⟩
abbrev HW_STATUS_STATE (i : Nat) : Fld := ⟨0x81028 + 0x100 * i, 0, 3⟩
abbrev HW_SCAP (i : Nat) : Fld := ⟨0x8102c + 0x100 * i, 0, 32⟩
abbrev HW_FILLING_SEQ (i : Nat) : Fld := ⟨0x81030 + 0x100 * i, 0, 32⟩
abbrev HW_RECORDS (i : Nat) : Fld := ⟨0x81034 + 0x100 * i, 0, 32⟩
abbrev HW_IGNORED (i : Nat) : Fld := ⟨0x81038 + 0x100 * i, 0, 32⟩
abbrev HW_LATE (i : Nat) : Fld := ⟨0x8103c + 0x100 * i, 0, 32⟩
abbrev HW_NEED (i : Nat) : Fld := ⟨0x81040 + 0x100 * i, 0, 32⟩
abbrev HW_CAP (i : Nat) : Fld := ⟨0x81044 + 0x100 * i, 0, 32⟩
abbrev HW_PBASE_LO (i : Nat) : Fld := ⟨0x81048 + 0x100 * i, 0, 32⟩
abbrev HW_PBASE_HI (i : Nat) : Fld := ⟨0x8104c + 0x100 * i, 0, 32⟩
abbrev HW_PSIZE (i : Nat) : Fld := ⟨0x81050 + 0x100 * i, 0, 17⟩
abbrev HW_PNSEG (i : Nat) : Fld := ⟨0x81054 + 0x100 * i, 0, 17⟩
abbrev HW_PPRE (i : Nat) : Fld := ⟨0x81058 + 0x100 * i, 0, 32⟩
abbrev HW_PPOST (i : Nat) : Fld := ⟨0x8105c + 0x100 * i, 0, 32⟩
abbrev HW_PHDR_BASE_LO (i : Nat) : Fld := ⟨0x81060 + 0x100 * i, 0, 32⟩
abbrev HW_PHDR_BASE_HI (i : Nat) : Fld := ⟨0x81064 + 0x100 * i, 0, 32⟩
abbrev DEN_CTRL_BSH (i : Nat) : Fld := ⟨0x90000 + 0x100 * i, 8, 4⟩
abbrev DEN_CTRL_DET (i : Nat) : Fld := ⟨0x90000 + 0x100 * i, 4, 3⟩
abbrev DEN_CTRL_OOR (i : Nat) : Fld := ⟨0x90000 + 0x100 * i, 2, 1⟩
abbrev DEN_CTRL_CLEAR (i : Nat) : Fld := ⟨0x90000 + 0x100 * i, 1, 1⟩
abbrev DEN_CTRL_EN (i : Nat) : Fld := ⟨0x90000 + 0x100 * i, 0, 1⟩
abbrev DEN_MAP_DJSTART (i : Nat) : Fld := ⟨0x90004 + 0x100 * i, 16, 16⟩
abbrev DEN_MAP_DCOLS (i : Nat) : Fld := ⟨0x90004 + 0x100 * i, 0, 13⟩
abbrev DEN_ROWS_STEP (i : Nat) : Fld := ⟨0x90008 + 0x100 * i, 16, 13⟩
abbrev DEN_ROWS_BOT (i : Nat) : Fld := ⟨0x90008 + 0x100 * i, 0, 16⟩
abbrev DEN_PASS_SNAPDIV (i : Nat) : Fld := ⟨0x9000c + 0x100 * i, 24, 8⟩
abbrev DEN_PASS_PLOG (i : Nat) : Fld := ⟨0x9000c + 0x100 * i, 0, 6⟩
abbrev DEN_DMUL (i : Nat) : Fld := ⟨0x90010 + 0x100 * i, 0, 17⟩
abbrev DEN_STATUS_QUIESCENT (i : Nat) : Fld := ⟨0x90014 + 0x100 * i, 31, 1⟩
abbrev DEN_STATUS_WALKING (i : Nat) : Fld := ⟨0x90014 + 0x100 * i, 2, 1⟩
abbrev DEN_STATUS_GAP (i : Nat) : Fld := ⟨0x90014 + 0x100 * i, 1, 1⟩
abbrev DEN_STATUS_RUNNING (i : Nat) : Fld := ⟨0x90014 + 0x100 * i, 0, 1⟩
abbrev DEN_PFLAGS (i : Nat) : Fld := ⟨0x90018 + 0x100 * i, 0, 8⟩
abbrev DEN_SNAP_SEQ (i : Nat) : Fld := ⟨0x9001c + 0x100 * i, 0, 32⟩
abbrev DEN_SNAP_T_LO (i : Nat) : Fld := ⟨0x90020 + 0x100 * i, 0, 32⟩
abbrev DEN_SNAP_T_HI (i : Nat) : Fld := ⟨0x90024 + 0x100 * i, 0, 32⟩
abbrev DEN_SNAP_T0_LO (i : Nat) : Fld := ⟨0x90028 + 0x100 * i, 0, 32⟩
abbrev DEN_SNAP_T0_HI (i : Nat) : Fld := ⟨0x9002c + 0x100 * i, 0, 32⟩
abbrev DEN_SNAP_INFO_DCOLS (i : Nat) : Fld := ⟨0x90030 + 0x100 * i, 16, 13⟩
abbrev DEN_SNAP_INFO_BSH (i : Nat) : Fld := ⟨0x90030 + 0x100 * i, 8, 4⟩
abbrev DEN_SNAP_INFO_FLAGS (i : Nat) : Fld := ⟨0x90030 + 0x100 * i, 0, 8⟩
abbrev DEN_SNAP_MAP_DJSTART (i : Nat) : Fld := ⟨0x90034 + 0x100 * i, 16, 16⟩
abbrev DEN_SNAP_ROWS (i : Nat) : Fld := ⟨0x90038 + 0x100 * i, 0, 32⟩
abbrev DEN_SAT (i : Nat) : Fld := ⟨0x9003c + 0x100 * i, 0, 32⟩
abbrev DEN_PASS_MIN (i : Nat) : Fld := ⟨0x90040 + 0x100 * i, 0, 6⟩
abbrev SG_CTRL_SGMODE (i : Nat) : Fld := ⟨0x90800 + 0x40 * i, 8, 2⟩
abbrev SG_CTRL_SGDET (i : Nat) : Fld := ⟨0x90800 + 0x40 * i, 4, 3⟩
abbrev SG_CTRL_EN (i : Nat) : Fld := ⟨0x90800 + 0x40 * i, 0, 1⟩
abbrev SG_SGFDEC (i : Nat) : Fld := ⟨0x90804 + 0x40 * i, 0, 16⟩
abbrev SG_RING_BASE_LO (i : Nat) : Fld := ⟨0x90808 + 0x40 * i, 0, 32⟩
abbrev SG_RING_BASE_HI (i : Nat) : Fld := ⟨0x9080c + 0x40 * i, 0, 32⟩
abbrev SG_RING_SLOTS (i : Nat) : Fld := ⟨0x90810 + 0x40 * i, 0, 21⟩
abbrev SG_WR (i : Nat) : Fld := ⟨0x90814 + 0x40 * i, 0, 21⟩
abbrev SG_RD (i : Nat) : Fld := ⟨0x90818 + 0x40 * i, 0, 21⟩
abbrev SG_LOST (i : Nat) : Fld := ⟨0x9081c + 0x40 * i, 0, 32⟩
abbrev SG_LSEQ (i : Nat) : Fld := ⟨0x90820 + 0x40 * i, 0, 32⟩
abbrev DENG_STATUS_QUIESCENT : Fld := ⟨0x90f00, 31, 1⟩
abbrev DENG_SAT_CLEAR : Fld := ⟨0x90f04, 0, 1⟩
abbrev GAL_CTRL_RETRAIN : Fld := ⟨0xa0000, 8, 1⟩
abbrev GAL_CTRL_BPC : Fld := ⟨0xa0000, 6, 2⟩
abbrev GAL_CTRL_MAXRATE : Fld := ⟨0xa0000, 4, 2⟩
abbrev GAL_CTRL_MAXLANES : Fld := ⟨0xa0000, 2, 2⟩
abbrev GAL_CTRL_RETIRE_EVT : Fld := ⟨0xa0000, 1, 1⟩
abbrev GAL_CTRL_EN : Fld := ⟨0xa0000, 0, 1⟩
abbrev GAL_STATUS_QUIESCENT : Fld := ⟨0xa0004, 31, 1⟩
abbrev GAL_STATUS_EDID_VALID : Fld := ⟨0xa0004, 10, 1⟩
abbrev GAL_STATUS_BW_SHORT : Fld := ⟨0xa0004, 9, 1⟩
abbrev GAL_STATUS_TRAIN_FAIL : Fld := ⟨0xa0004, 8, 1⟩
abbrev GAL_STATUS_RATE : Fld := ⟨0xa0004, 6, 2⟩
abbrev GAL_STATUS_LANES : Fld := ⟨0xa0004, 4, 2⟩
abbrev GAL_STATUS_LINK_UP : Fld := ⟨0xa0004, 3, 1⟩
abbrev GAL_STATUS_HPD : Fld := ⟨0xa0004, 2, 1⟩
abbrev GAL_PCLK_KHZ : Fld := ⟨0xa0008, 0, 20⟩
abbrev GAL_HTIM0_HFP : Fld := ⟨0xa000c, 16, 10⟩
abbrev GAL_HTIM0_HACT : Fld := ⟨0xa000c, 0, 12⟩
abbrev GAL_HTIM1_HBP : Fld := ⟨0xa0010, 16, 10⟩
abbrev GAL_HTIM1_HSYNC : Fld := ⟨0xa0010, 0, 10⟩
abbrev GAL_VTIM0_VFP : Fld := ⟨0xa0014, 16, 8⟩
abbrev GAL_VTIM0_VACT : Fld := ⟨0xa0014, 0, 12⟩
abbrev GAL_VTIM1_VPOL : Fld := ⟨0xa0018, 31, 1⟩
abbrev GAL_VTIM1_HPOL : Fld := ⟨0xa0018, 30, 1⟩
abbrev GAL_VTIM1_VBP : Fld := ⟨0xa0018, 16, 8⟩
abbrev GAL_VTIM1_VSYNC : Fld := ⟨0xa0018, 0, 6⟩
abbrev GAL_LEAD : Fld := ⟨0xa001c, 0, 4⟩
abbrev GAL_BG : Fld := ⟨0xa0020, 0, 24⟩
abbrev GAL_COMMIT : Fld := ⟨0xa0040, 0, 8⟩
abbrev GAL_ARMED : Fld := ⟨0xa0044, 0, 8⟩
abbrev GAL_LATCH_SEQ : Fld := ⟨0xa0048, 0, 32⟩
abbrev GAL_RETIRE_SEQ : Fld := ⟨0xa004c, 0, 32⟩
abbrev GAL_LINE : Fld := ⟨0xa0050, 0, 12⟩
abbrev GAL_UNDERRUNS : Fld := ⟨0xa0054, 0, 32⟩
abbrev GAL_CNT_CLEAR : Fld := ⟨0xa0058, 0, 1⟩
abbrev GAL_FROZEN : Fld := ⟨0xa005c, 0, 8⟩
abbrev GAL_PAL_ADDR : Fld := ⟨0xa0060, 0, 14⟩
abbrev GAL_PAL_DATA : Fld := ⟨0xa0064, 0, 32⟩
abbrev GAL_DPCD_CAP (i : Nat) : Fld := ⟨0xa0100 + 0x4 * i, 0, 32⟩
abbrev GAL_EDID (i : Nat) : Fld := ⟨0xa0200 + 0x4 * i, 0, 32⟩
abbrev PANE_CTRL_ALPHA (i : Nat) : Fld := ⟨0xa1000 + 0x40 * i, 24, 8⟩
abbrev PANE_CTRL_FRZ_F (i : Nat) : Fld := ⟨0xa1000 + 0x40 * i, 16, 8⟩
abbrev PANE_CTRL_LIVE (i : Nat) : Fld := ⟨0xa1000 + 0x40 * i, 10, 1⟩
abbrev PANE_CTRL_OPAQUE (i : Nat) : Fld := ⟨0xa1000 + 0x40 * i, 9, 1⟩
abbrev PANE_CTRL_PALBANK (i : Nat) : Fld := ⟨0xa1000 + 0x40 * i, 8, 1⟩
abbrev PANE_CTRL_SRC (i : Nat) : Fld := ⟨0xa1000 + 0x40 * i, 4, 4⟩
abbrev PANE_CTRL_KIND (i : Nat) : Fld := ⟨0xa1000 + 0x40 * i, 0, 3⟩
abbrev PANE_POS_Y (i : Nat) : Fld := ⟨0xa1004 + 0x40 * i, 16, 12⟩
abbrev PANE_POS_X (i : Nat) : Fld := ⟨0xa1004 + 0x40 * i, 0, 12⟩
abbrev PANE_SIZE_H (i : Nat) : Fld := ⟨0xa1008 + 0x40 * i, 16, 12⟩
abbrev PANE_SIZE_W (i : Nat) : Fld := ⟨0xa1008 + 0x40 * i, 0, 12⟩
abbrev PANE_BASE_LO (i : Nat) : Fld := ⟨0xa100c + 0x40 * i, 0, 32⟩
abbrev PANE_BASE_HI (i : Nat) : Fld := ⟨0xa1010 + 0x40 * i, 0, 32⟩
abbrev PANE_STRIDE (i : Nat) : Fld := ⟨0xa1014 + 0x40 * i, 0, 17⟩
abbrev PANE_MAP0_NCOL (i : Nat) : Fld := ⟨0xa1018 + 0x40 * i, 16, 13⟩
abbrev PANE_MAP0_COL0 (i : Nat) : Fld := ⟨0xa1018 + 0x40 * i, 0, 12⟩
abbrev PANE_MAP1_NROW (i : Nat) : Fld := ⟨0xa101c + 0x40 * i, 16, 11⟩
abbrev PANE_MAP1_ROW0 (i : Nat) : Fld := ⟨0xa101c + 0x40 * i, 0, 10⟩
abbrev PANE_LVL_STEP (i : Nat) : Fld := ⟨0xa1020 + 0x40 * i, 16, 16⟩
abbrev PANE_LVL_BOT (i : Nat) : Fld := ⟨0xa1020 + 0x40 * i, 0, 16⟩
abbrev PANE_PGAIN (i : Nat) : Fld := ⟨0xa1024 + 0x40 * i, 0, 16⟩
abbrev PANE_COLOR (i : Nat) : Fld := ⟨0xa1028 + 0x40 * i, 0, 32⟩
abbrev PANE_TBG (i : Nat) : Fld := ⟨0xa102c + 0x40 * i, 0, 32⟩
abbrev APANE_CTRL_ALPHA (i : Nat) : Fld := ⟨0xa2000 + 0x40 * i, 24, 8⟩
abbrev APANE_CTRL_FRZ_F (i : Nat) : Fld := ⟨0xa2000 + 0x40 * i, 16, 8⟩
abbrev APANE_CTRL_LIVE (i : Nat) : Fld := ⟨0xa2000 + 0x40 * i, 10, 1⟩
abbrev APANE_CTRL_OPAQUE (i : Nat) : Fld := ⟨0xa2000 + 0x40 * i, 9, 1⟩
abbrev APANE_CTRL_PALBANK (i : Nat) : Fld := ⟨0xa2000 + 0x40 * i, 8, 1⟩
abbrev APANE_CTRL_SRC (i : Nat) : Fld := ⟨0xa2000 + 0x40 * i, 4, 4⟩
abbrev APANE_CTRL_KIND (i : Nat) : Fld := ⟨0xa2000 + 0x40 * i, 0, 3⟩
abbrev APANE_POS_Y (i : Nat) : Fld := ⟨0xa2004 + 0x40 * i, 16, 12⟩
abbrev APANE_POS_X (i : Nat) : Fld := ⟨0xa2004 + 0x40 * i, 0, 12⟩
abbrev APANE_SIZE_H (i : Nat) : Fld := ⟨0xa2008 + 0x40 * i, 16, 12⟩
abbrev APANE_SIZE_W (i : Nat) : Fld := ⟨0xa2008 + 0x40 * i, 0, 12⟩
abbrev APANE_BASE_LO (i : Nat) : Fld := ⟨0xa200c + 0x40 * i, 0, 32⟩
abbrev APANE_BASE_HI (i : Nat) : Fld := ⟨0xa2010 + 0x40 * i, 0, 32⟩
abbrev APANE_STRIDE (i : Nat) : Fld := ⟨0xa2014 + 0x40 * i, 0, 17⟩
abbrev APANE_MAP0_NCOL (i : Nat) : Fld := ⟨0xa2018 + 0x40 * i, 16, 13⟩
abbrev APANE_MAP0_COL0 (i : Nat) : Fld := ⟨0xa2018 + 0x40 * i, 0, 12⟩
abbrev APANE_MAP1_NROW (i : Nat) : Fld := ⟨0xa201c + 0x40 * i, 16, 11⟩
abbrev APANE_MAP1_ROW0 (i : Nat) : Fld := ⟨0xa201c + 0x40 * i, 0, 10⟩
abbrev APANE_LVL_STEP (i : Nat) : Fld := ⟨0xa2020 + 0x40 * i, 16, 16⟩
abbrev APANE_LVL_BOT (i : Nat) : Fld := ⟨0xa2020 + 0x40 * i, 0, 16⟩
abbrev APANE_PGAIN (i : Nat) : Fld := ⟨0xa2024 + 0x40 * i, 0, 16⟩
abbrev APANE_COLOR (i : Nat) : Fld := ⟨0xa2028 + 0x40 * i, 0, 32⟩
abbrev APANE_TBG (i : Nat) : Fld := ⟨0xa202c + 0x40 * i, 0, 32⟩
abbrev APANE_PFENCE (i : Nat) : Fld := ⟨0xa2030 + 0x40 * i, 0, 32⟩
abbrev APANE_PSIG (i : Nat) : Fld := ⟨0xa2034 + 0x40 * i, 0, 32⟩
abbrev APANE_GEN (i : Nat) : Fld := ⟨0xa2038 + 0x40 * i, 0, 32⟩
abbrev SCR_CTRL_SU : Fld := ⟨0xb0000, 20, 4⟩
abbrev SCR_CTRL_DRV_EN : Fld := ⟨0xb0000, 16, 4⟩
abbrev SCR_CTRL_BLK : Fld := ⟨0xb0000, 8, 5⟩
abbrev SCR_CTRL_PB : Fld := ⟨0xb0000, 2, 1⟩
abbrev SCR_CTRL_REC : Fld := ⟨0xb0000, 1, 1⟩
abbrev SCR_CTRL_EN : Fld := ⟨0xb0000, 0, 1⟩
abbrev SCR_STATUS_QUIESCENT : Fld := ⟨0xb0004, 31, 1⟩
abbrev SCR_STATUS_FRESH : Fld := ⟨0xb0004, 4, 1⟩
abbrev SCR_STATUS_STATE : Fld := ⟨0xb0004, 0, 3⟩
abbrev SCR_STAGE_BASE_LO : Fld := ⟨0xb0008, 0, 32⟩
abbrev SCR_STAGE_BASE_HI : Fld := ⟨0xb000c, 0, 32⟩
abbrev SCR_STAGE_SIZE : Fld := ⟨0xb0010, 0, 15⟩
abbrev SCR_CKPT : Fld := ⟨0xb0014, 0, 14⟩
abbrev SCR_RID_LO : Fld := ⟨0xb0018, 0, 32⟩
abbrev SCR_RID_HI : Fld := ⟨0xb001c, 0, 32⟩
abbrev SCR_ADM_RATE : Fld := ⟨0xb0020, 0, 32⟩
abbrev SCR_BUDGET : Fld := ⟨0xb0024, 0, 32⟩
abbrev SCR_GAPS : Fld := ⟨0xb0028, 0, 32⟩
abbrev SCR_VFAIL : Fld := ⟨0xb002c, 0, 32⟩
abbrev SCR_PB_MISSING : Fld := ⟨0xb0030, 0, 32⟩
abbrev SCR_PB_STALLS : Fld := ⟨0xb0034, 0, 32⟩
abbrev SCR_CNT_CLEAR : Fld := ⟨0xb0038, 0, 1⟩
abbrev SCR_PB_STOP_LO : Fld := ⟨0xb0040, 0, 32⟩
abbrev SCR_PB_STOP_HI : Fld := ⟨0xb0044, 0, 32⟩
abbrev SS_CTRL_IDX (i : Nat) : Fld := ⟨0xb0100 + 0x20 * i, 8, 8⟩
abbrev SS_CTRL_KIND (i : Nat) : Fld := ⟨0xb0100 + 0x20 * i, 5, 3⟩
abbrev SS_CTRL_COMP (i : Nat) : Fld := ⟨0xb0100 + 0x20 * i, 4, 1⟩
abbrev SS_CTRL_PACK (i : Nat) : Fld := ⟨0xb0100 + 0x20 * i, 1, 2⟩
abbrev SS_CTRL_EN (i : Nat) : Fld := ⟨0xb0100 + 0x20 * i, 0, 1⟩
abbrev SS_RATE_MB (i : Nat) : Fld := ⟨0xb0104 + 0x20 * i, 0, 16⟩
abbrev SS_RADM (i : Nat) : Fld := ⟨0xb0108 + 0x20 * i, 0, 32⟩
abbrev SS_BSEQ (i : Nat) : Fld := ⟨0xb010c + 0x20 * i, 0, 32⟩
abbrev SS_DROPPED (i : Nat) : Fld := ⟨0xb0110 + 0x20 * i, 0, 32⟩
abbrev DRV_WBW (i : Nat) : Fld := ⟨0xb0400 + 0x40 * i, 0, 14⟩
abbrev DRV_STATUS_REASON (i : Nat) : Fld := ⟨0xb0404 + 0x40 * i, 12, 4⟩
abbrev DRV_STATUS_WIDTH (i : Nat) : Fld := ⟨0xb0404 + 0x40 * i, 10, 2⟩
abbrev DRV_STATUS_CRITWARN (i : Nat) : Fld := ⟨0xb0404 + 0x40 * i, 9, 1⟩
abbrev DRV_STATUS_VWC (i : Nat) : Fld := ⟨0xb0404 + 0x40 * i, 8, 1⟩
abbrev DRV_STATUS_STATE (i : Nat) : Fld := ⟨0xb0404 + 0x40 * i, 0, 3⟩
abbrev DRV_SPEED (i : Nat) : Fld := ⟨0xb0408 + 0x40 * i, 0, 3⟩
abbrev DRV_NLBA_LO (i : Nat) : Fld := ⟨0xb040c + 0x40 * i, 0, 32⟩
abbrev DRV_NLBA_HI (i : Nat) : Fld := ⟨0xb0410 + 0x40 * i, 0, 32⟩
abbrev DRV_SMART_TEMP (i : Nat) : Fld := ⟨0xb0414 + 0x40 * i, 8, 16⟩
abbrev DRV_SMART_CRIT (i : Nat) : Fld := ⟨0xb0414 + 0x40 * i, 0, 8⟩
abbrev WVR_CTRL_DDIV : Fld := ⟨0xc0000, 8, 3⟩
abbrev WVR_CTRL_TMODE : Fld := ⟨0xc0000, 4, 2⟩
abbrev WVR_CTRL_PAT_EN : Fld := ⟨0xc0000, 3, 1⟩
abbrev WVR_CTRL_DAC_EN : Fld := ⟨0xc0000, 1, 2⟩
abbrev WVR_CTRL_EN : Fld := ⟨0xc0000, 0, 1⟩
abbrev WVR_STATUS_QUIESCENT : Fld := ⟨0xc0004, 31, 1⟩
abbrev WVR_STATUS_LINK_FAIL : Fld := ⟨0xc0004, 9, 1⟩
abbrev WVR_STATUS_LINK_UP : Fld := ⟨0xc0004, 8, 1⟩
abbrev WVR_REGION_BASE_LO : Fld := ⟨0xc0008, 0, 32⟩
abbrev WVR_REGION_BASE_HI : Fld := ⟨0xc000c, 0, 32⟩
abbrev WVR_REGION_SIZE : Fld := ⟨0xc0010, 0, 15⟩
abbrev WVR_JDELAY : Fld := ⟨0xc0014, 0, 24⟩
abbrev WVR_JSRC_EVMASK : Fld := ⟨0xc0018, 8, 8⟩
abbrev WVR_JSRC_TUMASK : Fld := ⟨0xc0018, 0, 8⟩
abbrev WVR_TX_INV : Fld := ⟨0xc001c, 0, 16⟩
abbrev WVR_TX_ADV : Fld := ⟨0xc0020, 0, 16⟩
abbrev WVR_PAT_INV : Fld := ⟨0xc0024, 0, 32⟩
abbrev WVR_CNT_CLEAR : Fld := ⟨0xc0028, 0, 1⟩
abbrev WVR_SEQ_ADDR : Fld := ⟨0xc0030, 0, 15⟩
abbrev WVR_SEQ_DATA : Fld := ⟨0xc0034, 0, 32⟩
abbrev ENG_CMD_JUMP (i : Nat) : Fld := ⟨0xc0100 + 0x40 * i, 3, 1⟩
abbrev ENG_CMD_STOP (i : Nat) : Fld := ⟨0xc0100 + 0x40 * i, 2, 1⟩
abbrev ENG_CMD_ARM_TRIG (i : Nat) : Fld := ⟨0xc0100 + 0x40 * i, 1, 1⟩
abbrev ENG_CMD_START (i : Nat) : Fld := ⟨0xc0100 + 0x40 * i, 0, 1⟩
abbrev ENG_START_ENTRY (i : Nat) : Fld := ⟨0xc0104 + 0x40 * i, 0, 12⟩
abbrev ENG_START_T_LO (i : Nat) : Fld := ⟨0xc0108 + 0x40 * i, 0, 32⟩
abbrev ENG_START_T_HI (i : Nat) : Fld := ⟨0xc010c + 0x40 * i, 0, 32⟩
abbrev ENG_IDLE0 (i : Nat) : Fld := ⟨0xc0110 + 0x40 * i, 0, 32⟩
abbrev ENG_IDLE1 (i : Nat) : Fld := ⟨0xc0114 + 0x40 * i, 0, 32⟩
abbrev ENG_STATUS_QUIESCENT (i : Nat) : Fld := ⟨0xc0118 + 0x40 * i, 31, 1⟩
abbrev ENG_STATUS_ENTRY (i : Nat) : Fld := ⟨0xc0118 + 0x40 * i, 4, 12⟩
abbrev ENG_STATUS_JPEND (i : Nat) : Fld := ⟨0xc0118 + 0x40 * i, 2, 1⟩
abbrev ENG_STATUS_STATE (i : Nat) : Fld := ⟨0xc0118 + 0x40 * i, 0, 2⟩
abbrev ENG_T_START_LO (i : Nat) : Fld := ⟨0xc011c + 0x40 * i, 0, 32⟩
abbrev ENG_T_START_HI (i : Nat) : Fld := ⟨0xc0120 + 0x40 * i, 0, 32⟩
abbrev ENG_UNDERRUNS (i : Nat) : Fld := ⟨0xc0124 + 0x40 * i, 0, 32⟩
abbrev ENG_IGNORED (i : Nat) : Fld := ⟨0xc0128 + 0x40 * i, 0, 32⟩
abbrev ENG_LATE (i : Nat) : Fld := ⟨0xc012c + 0x40 * i, 0, 32⟩
abbrev TS_PER (i : Nat) : Fld := ⟨0xc0400 + 0x100 * i, 0, 16⟩
abbrev TS_EDGE_R (i j : Nat) : Fld := ⟨0xc0404 + 0x100 * i + 0x4 * j, 16, 16⟩
abbrev TS_EDGE_D (i j : Nat) : Fld := ⟨0xc0404 + 0x100 * i + 0x4 * j, 0, 16⟩
abbrev TS_FMT_LO (i : Nat) : Fld := ⟨0xc0484 + 0x100 * i, 0, 32⟩
abbrev TS_FMT_HI (i : Nat) : Fld := ⟨0xc0488 + 0x100 * i, 0, 32⟩
abbrev TLY_STATUS_QUIESCENT : Fld := ⟨0xd0000, 31, 1⟩
abbrev TLY_STATUS_UNCAL : Fld := ⟨0xd0000, 0, 9⟩
abbrev TLY_CNT_CLEAR : Fld := ⟨0xd0004, 0, 1⟩
abbrev TLY_TCAL_REQ : Fld := ⟨0xd0008, 16, 1⟩
abbrev TLY_TCAL_PERIOD : Fld := ⟨0xd0008, 0, 12⟩
abbrev EV_CFG_PRE (i : Nat) : Fld := ⟨0xd0100 + 0x40 * i, 8, 6⟩
abbrev EV_CFG_QEN (i : Nat) : Fld := ⟨0xd0100 + 0x40 * i, 4, 1⟩
abbrev EV_CFG_EDGE (i : Nat) : Fld := ⟨0xd0100 + 0x40 * i, 2, 2⟩
abbrev EV_CFG_TYPE (i : Nat) : Fld := ⟨0xd0100 + 0x40 * i, 1, 1⟩
abbrev EV_CFG_EN (i : Nat) : Fld := ⟨0xd0100 + 0x40 * i, 0, 1⟩
abbrev EV_DESKEW (i : Nat) : Fld := ⟨0xd0104 + 0x40 * i, 0, 16⟩
abbrev EV_TIN (i : Nat) : Fld := ⟨0xd0108 + 0x40 * i, 0, 16⟩
abbrev EV_WR (i : Nat) : Fld := ⟨0xd010c + 0x40 * i, 0, 16⟩
abbrev EV_RD (i : Nat) : Fld := ⟨0xd0110 + 0x40 * i, 0, 16⟩
abbrev EV_LOST (i : Nat) : Fld := ⟨0xd0114 + 0x40 * i, 0, 32⟩
abbrev EV_OVERRUN (i : Nat) : Fld := ⟨0xd0118 + 0x40 * i, 0, 32⟩
abbrev EV_SEQ (i : Nat) : Fld := ⟨0xd011c + 0x40 * i, 0, 32⟩
abbrev EV_CAL_ODD (i j : Nat) : Fld := ⟨0xd0120 + 0x40 * i + 0x4 * j, 16, 12⟩
abbrev EV_CAL_EVEN (i j : Nat) : Fld := ⟨0xd0120 + 0x40 * i + 0x4 * j, 0, 12⟩
abbrev FM_CTRL_GSRC (i : Nat) : Fld := ⟨0xd0400 + 0x40 * i, 8, 4⟩
abbrev FM_CTRL_GPOL (i : Nat) : Fld := ⟨0xd0400 + 0x40 * i, 4, 1⟩
abbrev FM_CTRL_GMODE (i : Nat) : Fld := ⟨0xd0400 + 0x40 * i, 3, 1⟩
abbrev FM_CTRL_AUTO (i : Nat) : Fld := ⟨0xd0400 + 0x40 * i, 2, 1⟩
abbrev FM_CTRL_STOP (i : Nat) : Fld := ⟨0xd0400 + 0x40 * i, 1, 1⟩
abbrev FM_CTRL_ARM (i : Nat) : Fld := ⟨0xd0400 + 0x40 * i, 0, 1⟩
abbrev FM_STATUS_UNCAL (i : Nat) : Fld := ⟨0xd0404 + 0x40 * i, 10, 1⟩
abbrev FM_STATUS_HLD (i : Nat) : Fld := ⟨0xd0404 + 0x40 * i, 9, 1⟩
abbrev FM_STATUS_NOSIG (i : Nat) : Fld := ⟨0xd0404 + 0x40 * i, 8, 1⟩
abbrev FM_STATUS_STATE (i : Nat) : Fld := ⟨0xd0404 + 0x40 * i, 0, 2⟩
abbrev FM_N (i : Nat) : Fld := ⟨0xd0408 + 0x40 * i, 0, 32⟩
abbrev FM_DT_LO (i : Nat) : Fld := ⟨0xd040c + 0x40 * i, 0, 32⟩
abbrev FM_DT_HI (i : Nat) : Fld := ⟨0xd0410 + 0x40 * i, 0, 32⟩
abbrev FM_FREQ_LO (i : Nat) : Fld := ⟨0xd0414 + 0x40 * i, 0, 32⟩
abbrev FM_FREQ_HI (i : Nat) : Fld := ⟨0xd0418 + 0x40 * i, 0, 32⟩
abbrev FM_T_OPEN_LO (i : Nat) : Fld := ⟨0xd041c + 0x40 * i, 0, 32⟩
abbrev FM_T_OPEN_HI (i : Nat) : Fld := ⟨0xd0420 + 0x40 * i, 0, 32⟩
abbrev FM_RSEQ (i : Nat) : Fld := ⟨0xd0424 + 0x40 * i, 0, 32⟩
abbrev HIF_CTRL_RO_EN : Fld := ⟨0xe0000, 1, 1⟩
abbrev HIF_CTRL_EN : Fld := ⟨0xe0000, 0, 1⟩
abbrev HIF_STATUS_QUIESCENT : Fld := ⟨0xe0004, 31, 1⟩
abbrev HIF_STATUS_CPL_FULL : Fld := ⟨0xe0004, 2, 1⟩
abbrev HIF_STATUS_LINK_UP : Fld := ⟨0xe0004, 1, 1⟩
abbrev HIF_STATUS_RUNNING : Fld := ⟨0xe0004, 0, 1⟩
abbrev HIF_LINK_WIDTH : Fld := ⟨0xe0008, 4, 4⟩
abbrev HIF_LINK_SPEED : Fld := ⟨0xe0008, 0, 4⟩
abbrev HIF_POLL : Fld := ⟨0xe000c, 0, 17⟩
abbrev HIF_CMD_BASE_LO : Fld := ⟨0xe0010, 0, 32⟩
abbrev HIF_CMD_BASE_HI : Fld := ⟨0xe0014, 0, 32⟩
abbrev HIF_CMD_SIZE : Fld := ⟨0xe0018, 0, 17⟩
abbrev HIF_CPL_BASE_LO : Fld := ⟨0xe0020, 0, 32⟩
abbrev HIF_CPL_BASE_HI : Fld := ⟨0xe0024, 0, 32⟩
abbrev HIF_CPL_SIZE : Fld := ⟨0xe0028, 0, 17⟩
abbrev HIF_EVT_BASE_LO : Fld := ⟨0xe0030, 0, 32⟩
abbrev HIF_EVT_BASE_HI : Fld := ⟨0xe0034, 0, 32⟩
abbrev HIF_EVT_SIZE : Fld := ⟨0xe0038, 0, 17⟩
abbrev HIF_DB_BASE_LO : Fld := ⟨0xe0040, 0, 32⟩
abbrev HIF_DB_BASE_HI : Fld := ⟨0xe0044, 0, 32⟩
abbrev HIF_FWD_EN : Fld := ⟨0xe0048, 0, 8⟩
abbrev HIF_BAR2_BASE_LO : Fld := ⟨0xe0050, 0, 32⟩
abbrev HIF_BAR2_BASE_HI : Fld := ⟨0xe0054, 0, 32⟩
abbrev HIF_FETCH_ERR : Fld := ⟨0xe0060, 0, 32⟩
abbrev HIF_EVT_LOST : Fld := ⟨0xe0064, 0, 32⟩
abbrev HIF_FWD_REFUSED : Fld := ⟨0xe0068, 0, 32⟩
abbrev HIF_CPL_STALLS : Fld := ⟨0xe006c, 0, 32⟩
abbrev HIF_CNT_CLEAR : Fld := ⟨0xe0070, 0, 1⟩
abbrev HIF_CMD_HEAD : Fld := ⟨0xe0080, 0, 16⟩
abbrev HIF_CPL_TAIL : Fld := ⟨0xe0084, 0, 16⟩
abbrev HIF_EVT_TAIL : Fld := ⟨0xe0088, 0, 16⟩
abbrev HIF_PTR_HOSTERR (i : Nat) : Fld := ⟨0xe0100 + 0x4 * i, 0, 32⟩
abbrev PTR_STATUS_QUIESCENT : Fld := ⟨0xf0000, 31, 1⟩
abbrev PTR_CNT_CLEAR : Fld := ⟨0xf0004, 0, 1⟩
abbrev CH_CTRL_SHARE (i : Nat) : Fld := ⟨0xf0100 + 0x20 * i, 8, 9⟩
abbrev CH_CTRL_PRIO (i : Nat) : Fld := ⟨0xf0100 + 0x20 * i, 4, 3⟩
abbrev CH_CTRL_ABORT (i : Nat) : Fld := ⟨0xf0100 + 0x20 * i, 1, 1⟩
abbrev CH_CTRL_EN (i : Nat) : Fld := ⟨0xf0100 + 0x20 * i, 0, 1⟩
abbrev CH_STATUS_QUIESCENT (i : Nat) : Fld := ⟨0xf0104 + 0x20 * i, 31, 1⟩
abbrev CH_STATUS_STATE (i : Nat) : Fld := ⟨0xf0104 + 0x20 * i, 29, 2⟩
abbrev CH_STATUS_QDEPTH (i : Nat) : Fld := ⟨0xf0104 + 0x20 * i, 16, 5⟩
abbrev CH_STATUS_CID (i : Nat) : Fld := ⟨0xf0104 + 0x20 * i, 0, 16⟩
abbrev CH_DONE_LO (i : Nat) : Fld := ⟨0xf0108 + 0x20 * i, 0, 32⟩
abbrev CH_DONE_HI (i : Nat) : Fld := ⟨0xf010c + 0x20 * i, 0, 32⟩
abbrev HBM_CTRL_SEED_MODE : Fld := ⟨0x100000, 2, 1⟩
abbrev HBM_CTRL_HOT_EN : Fld := ⟨0x100000, 1, 1⟩
abbrev HBM_STATUS_QUIESCENT : Fld := ⟨0x100004, 31, 1⟩
abbrev HBM_STATUS_DBLREF : Fld := ⟨0x100004, 8, 4⟩
abbrev HBM_STATUS_TLIMIT : Fld := ⟨0x100004, 4, 4⟩
abbrev HBM_STATUS_SR : Fld := ⟨0x100004, 2, 2⟩
abbrev HBM_STATUS_RETRAINING : Fld := ⟨0x100004, 1, 1⟩
abbrev HBM_SEED : Fld := ⟨0x100008, 0, 22⟩
abbrev HBM_SEED_NEXT : Fld := ⟨0x10000c, 0, 22⟩
abbrev HBM_RETRAIN_EN : Fld := ⟨0x100010, 31, 1⟩
abbrev HBM_RETRAIN_MS : Fld := ⟨0x100010, 0, 14⟩
abbrev HBM_SCRUB_HOURS : Fld := ⟨0x100014, 0, 8⟩
abbrev HBM_SR_REQ : Fld := ⟨0x100018, 31, 1⟩
abbrev HBM_SR_IDLE : Fld := ⟨0x100018, 0, 16⟩
abbrev HBM_SR_LAT : Fld := ⟨0x10001c, 0, 16⟩
abbrev HBM_TEMP (i : Nat) : Fld := ⟨0x100020 + 0x4 * i, 0, 16⟩
abbrev HBM_CE_COUNT (i : Nat) : Fld := ⟨0x100030 + 0x4 * i, 0, 32⟩
abbrev HBM_UE_COUNT (i : Nat) : Fld := ⟨0x100040 + 0x4 * i, 0, 32⟩
abbrev HBM_UE_ADDR_LO : Fld := ⟨0x100050, 0, 32⟩
abbrev HBM_UE_ADDR_HI : Fld := ⟨0x100054, 0, 32⟩
abbrev HBM_UE_INFO_PORT : Fld := ⟨0x100058, 12, 4⟩
abbrev HBM_UE_INFO_PC : Fld := ⟨0x100058, 7, 5⟩
abbrev HBM_UE_INFO_STACK : Fld := ⟨0x100058, 0, 5⟩
abbrev HBM_CNT_CLEAR : Fld := ⟨0x10005c, 0, 1⟩
abbrev HBM_FLOOR_SUM : Fld := ⟨0x100060, 0, 16⟩
abbrev HBM_HOT_PORT : Fld := ⟨0x100064, 24, 4⟩
abbrev HBM_HOT_RATIO : Fld := ⟨0x100064, 8, 16⟩
abbrev HBM_HOT_PC : Fld := ⟨0x100064, 0, 7⟩
abbrev HBM_ADDR_ERR : Fld := ⟨0x100068, 0, 32⟩
abbrev HBMP_FLOOR (i : Nat) : Fld := ⟨0x100100 + 0x10 * i, 0, 15⟩
abbrev HBMP_CEIL (i : Nat) : Fld := ⟨0x100104 + 0x10 * i, 0, 16⟩
abbrev HBMP_BURST (i : Nat) : Fld := ⟨0x100108 + 0x10 * i, 0, 13⟩
abbrev HBMP_BYTES (i : Nat) : Fld := ⟨0x10010c + 0x10 * i, 0, 32⟩
abbrev BYO_CTRL_PORT_EN : Fld := ⟨0x110000, 8, 8⟩
abbrev BYO_CTRL_EN : Fld := ⟨0x110000, 0, 1⟩
abbrev BYO_STATUS_QUIESCENT : Fld := ⟨0x110004, 31, 1⟩
abbrev BYO_STATUS_ROOT : Fld := ⟨0x110004, 30, 1⟩
abbrev BYO_STATUS_ID_VALID : Fld := ⟨0x110004, 29, 1⟩
abbrev BYO_STATUS_PORT_UP : Fld := ⟨0x110004, 16, 8⟩
abbrev BYO_STATUS_NODE_ID : Fld := ⟨0x110004, 0, 12⟩
abbrev BYO_SERIAL_LO : Fld := ⟨0x110008, 0, 32⟩
abbrev BYO_SERIAL_HI : Fld := ⟨0x11000c, 0, 32⟩
abbrev BYO_ROOT_DEPTH : Fld := ⟨0x110010, 16, 8⟩
abbrev BYO_ROOT_ID : Fld := ⟨0x110010, 0, 12⟩
abbrev BYO_ID_REQ_VALID : Fld := ⟨0x110014, 31, 1⟩
abbrev BYO_ID_REQ_ID : Fld := ⟨0x110014, 0, 12⟩
abbrev BYO_TREE_PORTS : Fld := ⟨0x110018, 8, 8⟩
abbrev BYO_TREE_DIAM : Fld := ⟨0x110018, 0, 8⟩
abbrev BYO_NODES : Fld := ⟨0x11001c, 0, 13⟩
abbrev BYO_ROUTE_ADDR : Fld := ⟨0x110020, 0, 12⟩
abbrev BYO_ROUTE_DATA : Fld := ⟨0x110024, 0, 32⟩
abbrev BYO_RTMO : Fld := ⟨0x110028, 0, 17⟩
abbrev BYO_RCTRL_EN : Fld := ⟨0x11002c, 0, 1⟩
abbrev BYO_RS_BASE_LO : Fld := ⟨0x110030, 0, 32⟩
abbrev BYO_RS_BASE_HI : Fld := ⟨0x110034, 0, 32⟩
abbrev BYO_RS_SIZE : Fld := ⟨0x110038, 0, 17⟩
abbrev BYO_RC_BASE_LO : Fld := ⟨0x110040, 0, 32⟩
abbrev BYO_RC_BASE_HI : Fld := ⟨0x110044, 0, 32⟩
abbrev BYO_RC_SIZE : Fld := ⟨0x110048, 0, 17⟩
abbrev BYO_RDB_BASE_LO : Fld := ⟨0x110050, 0, 32⟩
abbrev BYO_RDB_BASE_HI : Fld := ⟨0x110054, 0, 32⟩
abbrev BYO_PLOST : Fld := ⟨0x110060, 0, 32⟩
abbrev BYO_LGAPS : Fld := ⟨0x110064, 0, 32⟩
abbrev BYO_RTIMEOUTS : Fld := ⟨0x110068, 0, 32⟩
abbrev BYO_CNT_CLEAR : Fld := ⟨0x11006c, 0, 1⟩
abbrev BPORT_STATUS_NBR_VALID (i : Nat) : Fld := ⟨0x110100 + 0x20 * i, 28, 1⟩
abbrev BPORT_STATUS_NBR_ID (i : Nat) : Fld := ⟨0x110100 + 0x20 * i, 16, 12⟩
abbrev BPORT_STATUS_NBR_PORT (i : Nat) : Fld := ⟨0x110100 + 0x20 * i, 12, 3⟩
abbrev BPORT_STATUS_POL_INV (i : Nat) : Fld := ⟨0x110100 + 0x20 * i, 7, 4⟩
abbrev BPORT_STATUS_REASON (i : Nat) : Fld := ⟨0x110100 + 0x20 * i, 3, 4⟩
abbrev BPORT_STATUS_STATE (i : Nat) : Fld := ⟨0x110100 + 0x20 * i, 0, 3⟩
abbrev BPORT_DELAY_MEAS (i : Nat) : Fld := ⟨0x110104 + 0x20 * i, 16, 16⟩
abbrev BPORT_DELAY_PAD (i : Nat) : Fld := ⟨0x110104 + 0x20 * i, 0, 16⟩
abbrev BPORT_FEC_CE (i : Nat) : Fld := ⟨0x110108 + 0x20 * i, 0, 32⟩
abbrev BPORT_FEC_UE (i : Nat) : Fld := ⟨0x11010c + 0x20 * i, 0, 32⟩
abbrev BPORT_RETRY (i : Nat) : Fld := ⟨0x110110 + 0x20 * i, 0, 32⟩
abbrev BPORT_CTRL_RETRAIN (i : Nat) : Fld := ⟨0x110114 + 0x20 * i, 0, 1⟩
abbrev XP_CTRL_RING (i : Nat) : Fld := ⟨0x110400 + 0x20 * i, 16, 3⟩
abbrev XP_CTRL_IDX (i : Nat) : Fld := ⟨0x110400 + 0x20 * i, 8, 4⟩
abbrev XP_CTRL_KIND (i : Nat) : Fld := ⟨0x110400 + 0x20 * i, 1, 2⟩
abbrev XP_CTRL_EN (i : Nat) : Fld := ⟨0x110400 + 0x20 * i, 0, 1⟩
abbrev XP_DEST (i : Nat) : Fld := ⟨0x110404 + 0x20 * i, 0, 12⟩
abbrev XP_BHZ (i : Nat) : Fld := ⟨0x110408 + 0x20 * i, 0, 21⟩
abbrev XP_TUMASK (i : Nat) : Fld := ⟨0x11040c + 0x20 * i, 0, 8⟩
abbrev XP_XSEQ (i : Nat) : Fld := ⟨0x110410 + 0x20 * i, 0, 32⟩
abbrev XP_LOST (i : Nat) : Fld := ⟨0x110414 + 0x20 * i, 0, 32⟩
abbrev RX_CTRL_FILTER (i : Nat) : Fld := ⟨0x110600 + 0x40 * i, 31, 1⟩
abbrev RX_CTRL_SRC_NODE (i : Nat) : Fld := ⟨0x110600 + 0x40 * i, 16, 12⟩
abbrev RX_CTRL_EN (i : Nat) : Fld := ⟨0x110600 + 0x40 * i, 0, 1⟩
abbrev RX_BASE_LO (i : Nat) : Fld := ⟨0x110604 + 0x40 * i, 0, 32⟩
abbrev RX_BASE_HI (i : Nat) : Fld := ⟨0x110608 + 0x40 * i, 0, 32⟩
abbrev RX_SLOTS (i : Nat) : Fld := ⟨0x11060c + 0x40 * i, 0, 21⟩
abbrev RX_WR (i : Nat) : Fld := ⟨0x110610 + 0x40 * i, 0, 21⟩
abbrev RX_RD (i : Nat) : Fld := ⟨0x110614 + 0x40 * i, 0, 21⟩
abbrev RX_LOST (i : Nat) : Fld := ⟨0x110618 + 0x40 * i, 0, 32⟩
abbrev RX_REJECTED (i : Nat) : Fld := ⟨0x11061c + 0x40 * i, 0, 32⟩
abbrev RX_LATE (i : Nat) : Fld := ⟨0x110620 + 0x40 * i, 0, 32⟩
abbrev PWR_STATUS_PGOOD : Fld := ⟨0x120000, 6, 1⟩
abbrev PWR_STATUS_MOD_EN : Fld := ⟨0x120000, 5, 1⟩
abbrev PWR_STATUS_OV_ACTIVE : Fld := ⟨0x120000, 4, 1⟩
abbrev PWR_STATUS_CAP_REDUCED : Fld := ⟨0x120000, 3, 1⟩
abbrev PWR_STATUS_SNS_LOCAL : Fld := ⟨0x120000, 2, 1⟩
abbrev PWR_STATUS_AUX_ON : Fld := ⟨0x120000, 1, 1⟩
abbrev PWR_FAULT_RAIL_SHORTFALL : Fld := ⟨0x120004, 4, 1⟩
abbrev PWR_FAULT_PHASE_FAIL : Fld := ⟨0x120004, 3, 1⟩
abbrev PWR_FAULT_SNS_OPEN : Fld := ⟨0x120004, 2, 1⟩
abbrev PWR_FAULT_LOW_SEEN : Fld := ⟨0x120004, 1, 1⟩
abbrev PWR_FAULT_OV_SEEN : Fld := ⟨0x120004, 0, 1⟩
abbrev PWR_PHASE_FAIL_LO : Fld := ⟨0x120008, 0, 32⟩
abbrev PWR_PHASE_FAIL_HI : Fld := ⟨0x12000c, 0, 8⟩
abbrev PWR_SHORT : Fld := ⟨0x120010, 0, 6⟩
abbrev PWR_PAT_SHORT : Fld := ⟨0x120014, 0, 32⟩
abbrev PWR_RETRY_CFG_LATCH : Fld := ⟨0x120018, 16, 1⟩
abbrev PWR_RETRY_CFG_INTERVAL : Fld := ⟨0x120018, 0, 10⟩
abbrev PWR_OV_ACCUM : Fld := ⟨0x12001c, 0, 7⟩
abbrev HK_CTRL_REF_RDY : Fld := ⟨0x120100, 2, 1⟩
abbrev HK_CTRL_REF_EN : Fld := ⟨0x120100, 1, 1⟩
abbrev HK_CTRL_RUN : Fld := ⟨0x120100, 0, 1⟩
abbrev HK_TIMER_PERIOD : Fld := ⟨0x120104, 0, 16⟩
abbrev HK_COUNTS_TSKIP : Fld := ⟨0x120108, 16, 16⟩
abbrev HK_COUNTS_PSKIP : Fld := ⟨0x120108, 0, 16⟩
abbrev HK_COUNT_CLEAR : Fld := ⟨0x12010c, 0, 1⟩
abbrev HK_SLOT_EN (i : Nat) : Fld := ⟨0x120140 + 0x4 * i, 31, 1⟩
abbrev HK_SLOT_TRIG (i : Nat) : Fld := ⟨0x120140 + 0x4 * i, 30, 1⟩
abbrev HK_SLOT_EDGE (i : Nat) : Fld := ⟨0x120140 + 0x4 * i, 29, 1⟩
abbrev HK_SLOT_CH (i : Nat) : Fld := ⟨0x120140 + 0x4 * i, 24, 5⟩
abbrev HK_SLOT_PHASE (i : Nat) : Fld := ⟨0x120140 + 0x4 * i, 18, 6⟩
abbrev HK_SLOT_K (i : Nat) : Fld := ⟨0x120140 + 0x4 * i, 14, 4⟩
abbrev HK_SLOT_DELAY (i : Nat) : Fld := ⟨0x120140 + 0x4 * i, 0, 12⟩
abbrev HK_RES_SEQ (i : Nat) : Fld := ⟨0x120200 + 0x4 * i, 28, 4⟩
abbrev HK_RES_WARM (i : Nat) : Fld := ⟨0x120200 + 0x4 * i, 27, 1⟩
abbrev HK_RES_SKIPPED (i : Nat) : Fld := ⟨0x120200 + 0x4 * i, 26, 1⟩
abbrev HK_RES_CH (i : Nat) : Fld := ⟨0x120200 + 0x4 * i, 16, 5⟩
abbrev HK_RES_VALUE (i : Nat) : Fld := ⟨0x120200 + 0x4 * i, 0, 12⟩
abbrev AGE_CTRL_SHUTDOWN : Fld := ⟨0x130000, 3, 1⟩
abbrev AGE_CTRL_REPLAN : Fld := ⟨0x130000, 2, 1⟩
abbrev AGE_CTRL_AUTO_RETURN : Fld := ⟨0x130000, 1, 1⟩
abbrev AGE_CTRL_AUTO : Fld := ⟨0x130000, 0, 1⟩
abbrev AGE_STATUS_QUIESCENT : Fld := ⟨0x130004, 31, 1⟩
abbrev AGE_STATUS_CHS_FAIL : Fld := ⟨0x130004, 20, 1⟩
abbrev AGE_STATUS_FAILED : Fld := ⟨0x130004, 16, 4⟩
abbrev AGE_STATUS_COVERED : Fld := ⟨0x130004, 12, 4⟩
abbrev AGE_STATUS_HOT : Fld := ⟨0x130004, 3, 1⟩
abbrev AGE_STATUS_THROTTLE : Fld := ⟨0x130004, 0, 3⟩
abbrev AGE_TDIE : Fld := ⟨0x130008, 0, 16⟩
abbrev AGE_PERIOD : Fld := ⟨0x130010, 0, 17⟩
abbrev AGE_RETEST : Fld := ⟨0x130014, 0, 12⟩
abbrev AGE_LIFE_H : Fld := ⟨0x130018, 0, 18⟩
abbrev AGE_SHDN_TMO : Fld := ⟨0x13001c, 0, 4⟩
abbrev AGE_LEDGER_MIN : Fld := ⟨0x130020, 0, 11⟩
abbrev AGE_GUARD : Fld := ⟨0x130024, 0, 9⟩
abbrev AGE_SPMV : Fld := ⟨0x130028, 0, 16⟩
abbrev AGE_OFFSET (i : Nat) : Fld := ⟨0x130030 + 0x4 * i, 0, 32⟩
abbrev AGE_MARGIN_PROJ (i : Nat) : Fld := ⟨0x130040 + 0x4 * i, 16, 16⟩
abbrev AGE_MARGIN_NOW (i : Nat) : Fld := ⟨0x130040 + 0x4 * i, 0, 16⟩
abbrev AGE_VCORE_TARGET : Fld := ⟨0x130050, 16, 10⟩
abbrev AGE_VCORE_SET : Fld := ⟨0x130050, 0, 10⟩
abbrev AGE_POM : Fld := ⟨0x130054, 0, 32⟩
abbrev AGE_LSEQ : Fld := ⟨0x130058, 0, 32⟩
abbrev AGE_FAULTS : Fld := ⟨0x13005c, 0, 32⟩
abbrev AGE_CNT_CLEAR : Fld := ⟨0x130060, 0, 1⟩
abbrev AGE_MON (i : Nat) : Fld := ⟨0x130100 + 0x4 * i, 0, 32⟩
abbrev AGE_SEED_LO : Fld := ⟨0x138000, 0, 32⟩
abbrev AGE_SEED_HI : Fld := ⟨0x138004, 0, 32⟩
abbrev PTB_CTRL_EN : Fld := ⟨0x138008, 0, 5⟩
abbrev PTB_PROB (i : Nat) : Fld := ⟨0x138100 + 0x10 * i, 0, 8⟩
abbrev PTB_MAXD (i : Nat) : Fld := ⟨0x138104 + 0x10 * i, 0, 16⟩
abbrev PTB_COUNT (i : Nat) : Fld := ⟨0x138108 + 0x10 * i, 0, 32⟩
abbrev CFG_CTRL_STANDBY : Fld := ⟨0x140000, 0, 1⟩
abbrev CFG_STATUS_QUIESCENT : Fld := ⟨0x140004, 31, 1⟩
abbrev CFG_STATUS_STANDBY_ACT : Fld := ⟨0x140004, 11, 1⟩
abbrev CFG_STATUS_RECOVERY : Fld := ⟨0x140004, 10, 1⟩
abbrev CFG_STATUS_FW_COPY : Fld := ⟨0x140004, 8, 2⟩
abbrev CFG_STATUS_BASE_COPY : Fld := ⟨0x140004, 6, 2⟩
abbrev CFG_STATUS_PHASE : Fld := ⟨0x140004, 0, 4⟩
abbrev CFG_RESET_KIND : Fld := ⟨0x140008, 0, 2⟩
abbrev CFG_LAST_RESET_CAUSE : Fld := ⟨0x14000c, 0, 4⟩
abbrev CFG_RESET_TMO : Fld := ⟨0x140010, 0, 10⟩
abbrev CFG_BASE_GEN : Fld := ⟨0x140014, 0, 32⟩
abbrev CFG_BASE_DISC : Fld := ⟨0x140018, 0, 32⟩
abbrev CFG_PROG_BUSY : Fld := ⟨0x140020, 31, 1⟩
abbrev CFG_PROG_RESULT : Fld := ⟨0x140020, 16, 4⟩
abbrev CFG_PROG_TARGET : Fld := ⟨0x140020, 8, 7⟩
abbrev CFG_PROG_START : Fld := ⟨0x140020, 0, 1⟩
abbrev CFG_PROG_LEN : Fld := ⟨0x140024, 0, 23⟩
abbrev CFG_OV_DISC : Fld := ⟨0x140028, 0, 32⟩
abbrev CFG_PEND : Fld := ⟨0x14002c, 0, 7⟩
abbrev CFG_CNT_CLEAR : Fld := ⟨0x140030, 0, 1⟩
abbrev CFG_OV_VALID (i : Nat) : Fld := ⟨0x140100 + 0x4 * i, 31, 1⟩
abbrev CFG_OV_COPY (i : Nat) : Fld := ⟨0x140100 + 0x4 * i, 30, 1⟩
abbrev CFG_OV_PENDING (i : Nat) : Fld := ⟨0x140100 + 0x4 * i, 29, 1⟩
abbrev CFG_OV_NENT (i : Nat) : Fld := ⟨0x140100 + 0x4 * i, 0, 9⟩
abbrev CYK_STATUS_QUIESCENT : Fld := ⟨0x1000000, 31, 1⟩
abbrev CYK_STATUS_THROTTLED : Fld := ⟨0x1000000, 0, 4⟩
abbrev CYK_CNT_CLEAR : Fld := ⟨0x1000004, 0, 1⟩
abbrev CYK_TPDISC : Fld := ⟨0x1000008, 0, 16⟩
abbrev CYK_TLINE_EN (i : Nat) : Fld := ⟨0x1000020 + 0x4 * i, 7, 1⟩
abbrev CYK_TLINE_CORE (i : Nat) : Fld := ⟨0x1000020 + 0x4 * i, 0, 7⟩
abbrev FD_CTRL_RING (i : Nat) : Fld := ⟨0x1001000 + 0x40 * i, 20, 2⟩
abbrev FD_CTRL_CLUSTER (i : Nat) : Fld := ⟨0x1001000 + 0x40 * i, 16, 2⟩
abbrev FD_CTRL_IDX (i : Nat) : Fld := ⟨0x1001000 + 0x40 * i, 8, 8⟩
abbrev FD_CTRL_KIND (i : Nat) : Fld := ⟨0x1001000 + 0x40 * i, 1, 2⟩
abbrev FD_CTRL_EN (i : Nat) : Fld := ⟨0x1001000 + 0x40 * i, 0, 1⟩
abbrev FD_CMASK (i : Nat) : Fld := ⟨0x1001004 + 0x40 * i, 0, 32⟩
abbrev FD_ITEM (i : Nat) : Fld := ⟨0x1001008 + 0x40 * i, 0, 17⟩
abbrev FD_SEL (i : Nat) : Fld := ⟨0x100100c + 0x40 * i, 0, 16⟩
abbrev FD_FFDEC (i : Nat) : Fld := ⟨0x1001010 + 0x40 * i, 0, 16⟩
abbrev FD_ISEQ (i : Nat) : Fld := ⟨0x1001014 + 0x40 * i, 0, 32⟩
abbrev FD_LOST (i : Nat) : Fld := ⟨0x1001018 + 0x40 * i, 0, 32⟩
abbrev COR_CTRL_OLOSS_CLR (i : Nat) : Fld := ⟨0x1800000 + 0x100 * i, 3, 1⟩
abbrev COR_CTRL_DOORBELL (i : Nat) : Fld := ⟨0x1800000 + 0x100 * i, 2, 1⟩
abbrev COR_CTRL_RESET (i : Nat) : Fld := ⟨0x1800000 + 0x100 * i, 1, 1⟩
abbrev COR_CTRL_RUN (i : Nat) : Fld := ⟨0x1800000 + 0x100 * i, 0, 1⟩
abbrev COR_STATUS_QUIESCENT (i : Nat) : Fld := ⟨0x1800004 + 0x100 * i, 31, 1⟩
abbrev COR_STATUS_OLOSS (i : Nat) : Fld := ⟨0x1800004 + 0x100 * i, 16, 1⟩
abbrev COR_STATUS_CAUSE (i : Nat) : Fld := ⟨0x1800004 + 0x100 * i, 8, 8⟩
abbrev COR_STATUS_STATE (i : Nat) : Fld := ⟨0x1800004 + 0x100 * i, 0, 3⟩
abbrev COR_PC (i : Nat) : Fld := ⟨0x1800008 + 0x100 * i, 0, 14⟩
abbrev COR_VEC (i : Nat) : Fld := ⟨0x180000c + 0x100 * i, 0, 14⟩
abbrev COR_XBASE_LO (i : Nat) : Fld := ⟨0x1800010 + 0x100 * i, 0, 32⟩
abbrev COR_XBASE_HI (i : Nat) : Fld := ⟨0x1800014 + 0x100 * i, 0, 32⟩
abbrev COR_IQ_BASE (i j : Nat) : Fld := ⟨0x1800020 + 0x100 * i + 0x8 * j, 0, 18⟩
abbrev COR_IQ_SLOTS_SLOTS (i j : Nat) : Fld := ⟨0x1800024 + 0x100 * i + 0x8 * j, 16, 16⟩
abbrev COR_IQ_SLOTS_SLOT (i j : Nat) : Fld := ⟨0x1800024 + 0x100 * i + 0x8 * j, 0, 13⟩
abbrev COR_OBASE_LO (i : Nat) : Fld := ⟨0x1800040 + 0x100 * i, 0, 32⟩
abbrev COR_OBASE_HI (i : Nat) : Fld := ⟨0x1800044 + 0x100 * i, 0, 32⟩
abbrev COR_OSLOTS (i : Nat) : Fld := ⟨0x1800048 + 0x100 * i, 0, 21⟩
abbrev COR_OSLOT (i : Nat) : Fld := ⟨0x180004c + 0x100 * i, 0, 13⟩
abbrev COR_OWR (i : Nat) : Fld := ⟨0x1800050 + 0x100 * i, 0, 21⟩
abbrev COR_ORD (i : Nat) : Fld := ⟨0x1800054 + 0x100 * i, 0, 21⟩
abbrev COR_OLOST (i : Nat) : Fld := ⟨0x1800058 + 0x100 * i, 0, 32⟩
abbrev COR_ILOST (i : Nat) : Fld := ⟨0x180005c + 0x100 * i, 0, 32⟩
abbrev COR_CYC_LO (i : Nat) : Fld := ⟨0x1800060 + 0x100 * i, 0, 32⟩
abbrev COR_CYC_HI (i : Nat) : Fld := ⟨0x1800064 + 0x100 * i, 0, 32⟩

end Sys2Proof.Machine.Fd
end

