-- ==== Sys2Proof/Machine/State.lean ====
section
/-! DEFINITION. The state of the module as plain data, and the state right after reset. Every register of the map lives
in `State.regs`; the other fields hold what the chapters give a unit beyond its registers: stream histories, open
groups and records, queues, tables, the memories, and the queue of waiting commands. -/

namespace Sys2Proof.Machine

/-! ### Common records -/

/-- One data item of an event (R458): a 4-byte or an 8-byte value. -/
inductive EvItem where
  | w4 (v : Nat)
  | w8 (v : Nat)
deriving DecidableEq, Repr

/-- A raised event (R22): its code, its sequence number ESEQ (R457) and its data items in table order. -/
structure Event where
  code : Nat
  eseq : Nat
  data : List EvItem
deriving DecidableEq, Repr

/-- A sample of a stream: its stamp, its two components, its DFLAGS bits [6:0] (R50) and its marks of R153
(bit 0 SETTLING, bit 1 TAIL). A real stream has q = 0. -/
structure Samp where
  t : Tick
  i : Int
  q : Int
  fl : Nat
  marks : Nat
deriving DecidableEq, Repr

/-- A span of stream time that carries DFLAGS bits on some channels (R51): from `lo` on, up to but not including `hi`;
`hi = none` while the condition lasts. -/
structure FlagSpan where
  bits : Nat
  chans : Nat
  lo : Tick
  hi : Option Tick
deriving DecidableEq, Repr

/-- What a pending entry does when it lands: set a field of a register word, set a 64-bit pair, or perform the
host-written action of a WO bit (R43). -/
inductive PendKind where
  | field
  | pair
  | action
deriving DecidableEq, Repr

/-- An entry of the pending store (R42): the register, the field's lowest bit and width, the clamped value, and whether
its landing's decision point has taken it, with the number of its arrival (R41). -/
structure PendEntry where
  seq : Nat
  kind : PendKind
  off : Nat
  lo : Nat
  width : Nat
  value : Nat
  taken : Bool
deriving DecidableEq, Repr

/-- The configuration that was in effect up to a landing (R40): outputs whose first contributing sample precedes that
landing and that are produced after it still read it. -/
structure PastCfg where
  till : Tick
  regs : List (Nat × Word)
  mask : List (Nat × Word)
  uwin : List (Nat × Word)
deriving DecidableEq, Repr

/-! ### Stream time (chapter 1) -/

/-- The state of stream time that no register shows. -/
structure SysSt where
  /-- stream time of the next sample to leave the elastic buffers -/
  next : Tick
  /-- whether samples are being stamped: from the application of the epoch to the stop landing -/
  counting : Bool
  /-- E of the epoch in effect (R29) -/
  base : Tick
  /-- an epoch is armed for a SYSREF capture (R29) -/
  armed : Bool
  /-- EPOCH_SRC that the armed epoch will show -/
  armSrc : Nat
  /-- valid captures to pass before the one that commits (R33, R34) -/
  armWait : Nat
  /-- the value to load when it is not SYS.EPOCH: a fabric epoch (R34) -/
  armValue : Option Tick
  /-- the epoch committed at a capture and not yet applied (R29) -/
  committed : Option Tick
  /-- EPOCH_SRC of the committed epoch -/
  commitSrc : Nat
  /-- a broadcast whose epoch message is still to be sent (R33) -/
  msgDue : Bool
  /-- the pending store (R42), oldest arrival first -/
  pend : List PendEntry
  /-- arrivals of pending changes and of overlay applies counted so far, which order them (R41) -/
  arrivals : Nat
  /-- the landing whose decision point has passed and which has not landed yet (R39) -/
  decided : Option Tick
  /-- ARM was written together with STOP and waits until RUN has cleared (R31) -/
  armAfterStop : Bool
  /-- a stop written and not yet taken at a decision point (R31) -/
  stopReq : Bool
  /-- the stop has been taken for the landing in `decided` -/
  stopTaken : Bool
  /-- the stop landing has passed and units drain (R31) -/
  draining : Bool
  /-- whether no landing has been performed since the epoch was applied (R560, R615) -/
  fresh : Bool
  /-- spans of stream time that carry flags (R50, R51) -/
  spans : List FlagSpan
  /-- (code, subject, window) of the rate-limited events already raised (R613) -/
  windows : List (Nat × Nat × Nat)
  /-- seconds of the microsecond counter of R613 -/
  seconds : Nat
deriving DecidableEq, Repr

/-! ### Ingest (chapter 3) -/

/-- The state of ingest that no register shows. -/
structure IngSt where
  /-- ICLK periods since reset, one per released beat (R90, R100) -/
  iclk : Nat
  /-- the polarity decision of R91 has been made since EN -/
  polDone : Bool
  /-- ICLK index of an LEMC edge (R92) -/
  lemc : Nat
  /-- stream time of the last capture, 0 if stream time was not running (R37) -/
  lastCap : Tick
  /-- stream time of the first sample of the extended multiblock that the last capture marks (R34, R35) -/
  lastMark : Tick
  /-- measured arrivals of the lanes in ticks (R97), by lane -/
  arr : List (Nat × Nat)
  /-- RBD still to be computed once after EN (R99) -/
  autoDue : Bool
  /-- channels whose lanes are all ALIGNED and that become UP at the next EMB (R104), one bit each -/
  upDue : Nat
  /-- first zeroed stream time of each channel that is DOWN (R103), by channel -/
  zeroFrom : List (Nat × Tick)
  /-- the phase that the capture clock has reached (R94) -/
  capPhase : Nat
  /-- multiblocks of each lane since it entered ALIGNED (R613), by lane -/
  mbCount : List (Nat × Nat)
  /-- indices of the flagged multiblocks of each lane since it entered ALIGNED, newest first (R103 cause 5) -/
  mbFlagged : List (Nat × List Nat)
  /-- EN has changed from 0 to 1 and no landing has followed (R161, R178, R265) -/
  freshEn : Bool
deriving DecidableEq, Repr

/-! ### Streams, downconverters and zoom (chapters 4 and 5) -/

/-- The coefficients of one sub-converter (R114, R116). -/
structure Coef where
  o : Int
  g : Int
  tau : Int
  b : Int
deriving DecidableEq, Repr

/-- A channel's coefficient set: one `Coef` per sub-converter and the channel delay (R114). -/
structure CoefSet where
  sub : List Coef
  dly : Nat
deriving DecidableEq, Repr

/-- A coefficient set in effect from a stream time on, with its CSID (R135). -/
structure CoefSpan where
  since : Tick
  set : CoefSet
  csid : Nat
deriving DecidableEq, Repr

/-- A run of a downconverter from its start landing (R153): the configuration it started with (R155), the landing at
which it stopped, and the stamp of its next output. -/
structure DdcSeg where
  n : Nat
  osh : Nat
  coef : List Int
  start : Tick
  stop : Option Tick
  /-- inputs stamped at or after this time are taken as zero: the stop landing of stream time (R615) -/
  cut : Option Tick
  nxt : Tick
deriving DecidableEq, Repr

/-- A run of a zoom channel (R153, R157 to R159). -/
structure ZcSeg where
  src : Nat
  /-- source period P_w and group delay G_w -/
  pw : Nat
  gw : Nat
  dz : Nat
  osh : Nat
  taps : List Int
  start : Tick
  stop : Option Tick
  /-- the source stopped at this landing: later source samples are zero and outputs that need them carry TAIL -/
  cut : Option Tick
  nxt : Tick
deriving DecidableEq, Repr

/-- A run of a capture decimator (R165, R166): the landing of the change that began it, its source and factor, and its
anchor once one exists. -/
structure CdSt where
  since : Tick
  key : Nat
  d : Nat
  anchor : Option Tick
deriving DecidableEq, Repr

/-- The streams and filters. Streams are keyed 0–3 released, 4–7 corrected, 8–11 downconverter, 16–79 zoom; each holds
its samples newest first. -/
structure DspSt where
  streams : List (Nat × List Samp)
  /-- stamp of the next corrected sample of each channel, by channel -/
  corNext : List (Nat × Tick)
  /-- coefficient sets of each channel, newest first -/
  coefs : List (Nat × List CoefSpan)
  /-- runs that are running or draining, newest first, by channel -/
  ddc : List (Nat × List DdcSeg)
  /-- the same of zoom channels, by z -/
  zc : List (Nat × List ZcSeg)
  /-- runs of each capture decimator, newest first -/
  cd : List (Nat × List CdSt)
deriving DecidableEq, Repr

/-! ### Assayer (chapter 4) -/

/-- The phases of a run (R130, ASY.STATUS.PHASE). -/
inductive AsyPhase where
  | idle | shadow | compare | cover | retShadow | retCompare | apply
deriving DecidableEq, Repr

/-- A run in progress that holds CHS or is about to hold it. -/
structure AsyRun where
  ch : Nat
  phase : AsyPhase
  /-- landing at which the present phase began -/
  since : Tick
  /-- a decision point has followed the start of the run -/
  due : Bool
  /-- iterations counted so far -/
  iter : Nat
  /-- repeats of a window discarded for flagged input (R121 code 4) -/
  repeats : Nat
  /-- start of the window in progress -/
  win : Tick
  /-- the window in progress is the verification window (R123) -/
  verify : Bool
  /-- estimation and verification have ended -/
  done : Bool
  trial : CoefSet
  /-- codes of R121 for offset, gain, skew, bandwidth, delay -/
  codes : List Nat
  /-- the last iteration changed nothing by more than the limits of R120 -/
  converged : Bool
  /-- SPUR of R123 as a signed dB16 value, with the final coefficients and with those before the run -/
  spur : Int
  spur0 : Int
  /-- the run aborts when it has returned (R133), with this reason -/
  abort : Option Nat
deriving DecidableEq, Repr

/-- A gradual application (R134): the old and the new set, the run number, the step last applied. -/
structure AsyApply where
  ch : Nat
  run : Nat
  old : CoefSet
  new : CoefSet
  step : Nat
  first : Tick
  flags : Nat
  spur : Int
deriving DecidableEq, Repr

/-- The state of Assayer that no register shows. -/
structure AsySt where
  run : Option AsyRun
  applying : List AsyApply
  /-- step 64 has landed and the flash record is still to be written (R139) -/
  toFlash : List AsyApply
  /-- requests whose deferral has been reported, with the reason (R128) -/
  deferred : List (Nat × Nat)
  /-- stored coefficient sets by channel: what the channel uses while CORR_EN is 1 (R117) -/
  stored : List (Nat × CoefSet)
  /-- channels whose next flash write must go over the copy that failed at start-up, with that copy (R139) -/
  badCopy : List (Nat × Nat)
  /-- sets loaded from flash and waiting for the epoch (R139) -/
  loadDue : List (Nat × CoefSet × Nat)
deriving DecidableEq, Repr

/-- Stream time at reset: not running, no epoch, nothing pending (R28, R595). -/
def SysSt.init : SysSt where
  next := 0
  counting := false
  base := 0
  armed := false
  armSrc := 0
  armWait := 0
  armValue := none
  committed := none
  commitSrc := 0
  msgDue := false
  pend := []
  arrivals := 0
  decided := none
  armAfterStop := false
  stopReq := false
  stopTaken := false
  draining := false
  fresh := false
  spans := []
  windows := []
  seconds := 0

/-- Ingest at reset: disabled. -/
def IngSt.init : IngSt where
  iclk := 0
  polDone := false
  lemc := 0
  lastCap := 0
  lastMark := 0
  arr := []
  autoDue := false
  upDue := 0
  zeroFrom := []
  capPhase := 0
  mbCount := []
  mbFlagged := []
  freshEn := false

/-- No sample released, nothing running. -/
def DspSt.init : DspSt where
  streams := []
  corNext := []
  coefs := []
  ddc := []
  zc := []
  cd := []

/-- Assayer at reset: no run, every channel at the identity set (R116). -/
def AsySt.init : AsySt where
  run := none
  applying := []
  toFlash := []
  deferred := []
  stored := []
  badCopy := []
  loadDue := []

/-! ### Spectral engine (chapter 6) -/

/-- A run of a spectral channel under one frame-defining configuration (R171, R173). -/
structure SpxSeg where
  src : Nat
  log2n : Nat
  win : Nat
  ovl : Nat
  sched : Nat
  cgc : Int
  /-- sample period, group delay and downconverter n of the input -/
  p : Nat
  gw : Nat
  nddc : Nat
  /-- the user window as it stood at the start (R180) -/
  uwin : List (Nat × Word)
  anchor : Tick
  /-- index of the next frame -/
  k : Nat
  /-- no frame at or after this landing -/
  stop : Option Tick
  /-- samples stamped at or after this time are taken as zero and mark TAIL (R175, R615) -/
  cut : Option Tick
deriving DecidableEq, Repr

/-- A delivered frame (R184): its stamp, configuration, flags and marks (bit 0 SETTLING, bit 1 TAIL, bit 2 OVF) and
its N bin powers in centred order. -/
structure Frame where
  t : Tick
  log2n : Nat
  win : Nat
  ovl : Nat
  src : Nat
  nddc : Nat
  p : Nat
  cgc : Int
  shift : Nat
  fl : Nat
  marks : Nat
  bins : List Nat
deriving DecidableEq, Repr

/-- A spectrum record as Hoop takes it from the record writer (R235). -/
structure SpecRec where
  t : Tick
  last : Tick
  fl : Nat
  marks : Nat
  /-- the contributing span -/
  lo : Tick
  hi : Tick
  bytes : List Byte
deriving DecidableEq, Repr

/-- The open group and the accumulation of a trace (R190, R191). -/
structure TraceSt where
  nfr : Nat
  tFirst : Tick
  tLast : Tick
  /-- stamp of the first frame of the accumulation, none after a clear -/
  tAcc : Option Tick
  /-- per-column sums of the group (mode 1) or values of the last frame (mode 0) -/
  grp : List Nat
  /-- per-column accumulation of modes 2 to 4 -/
  acc : List Int
  grpFl : Nat
  accFl : Nat
  marks : Nat
  csid : Nat
  /-- configuration of the group's frames, from its first frame -/
  frame : Option Frame
  /-- landings at which the trace starts afresh and that no frame has passed yet, with a clear of the accumulation -/
  brk : List Tick
deriving DecidableEq, Repr

/-- The state of the spectral engine that no register shows. -/
structure SpxSt where
  segs : List (Nat × List SpxSeg)
  /-- traces by 4c + t -/
  traces : List (Nat × TraceSt)
  uwin : List (Nat × Word)
  /-- frames delivered and still needed by Hoop KIND 2, Cykin and export consumers, newest first, by channel -/
  frames : List (Nat × List Frame)
  /-- spectrum records written, newest first, by 4c + t (R235) -/
  recs : List (Nat × List SpecRec)
deriving DecidableEq, Repr

/-! ### Triggering (chapter 7) -/

/-- An event of a trigger source (R199): its stamp, its DFLAGS, LATE and the crossing of R203, and the span of frames it
rests on is already in its flags. -/
structure TrgEv where
  t : Tick
  fl : Nat
  late : Bool
  xv : Bool
  xf : Nat
deriving DecidableEq, Repr

/-- A trigger source (R199): its events, its state changes with the flags of their spans, the landings at which its
input started or stopped, newest first each, and the stream time through which a Cykin line has reported (R213). -/
structure SrcSt where
  evs : List TrgEv
  states : List (Tick × Bool × Nat)
  runs : List (Tick × Bool)
  upto : Option Tick
deriving DecidableEq, Repr

/-- A comparator TDc.k or ZPp (R201 to R204). -/
structure CmpSt where
  /-- first stream time it has not reported through -/
  next : Tick
  /-- compared value, stamp and flags of the predecessor; none after a start or change -/
  prev : Option (Int × Tick × Nat)
  armR : Bool
  armF : Bool
  /-- the state at the predecessor -/
  hi : Bool
  /-- landings that change the comparator and that it has not reached yet -/
  brk : List Tick
deriving DecidableEq, Repr

/-- A mask evaluator (R207, R208). -/
structure MaskSt where
  /-- verdict of the predecessor: true is OUT -/
  prev : Option Bool
  run : Nat
  runFl : Nat
  brk : List Tick
deriving DecidableEq, Repr

/-- A density-region source (R209): counts and flags of the latest frames, newest first. -/
structure RegionSt where
  counts : List (Nat × Nat)
  on : Bool
  brk : List Tick
deriving DecidableEq, Repr

/-- What lands on a trigger unit at a stream time (R215, R219 to R221). -/
inductive TuAct where
  | enable | disable | arm | force | change
deriving DecidableEq, Repr

/-- The states of a trigger unit (TUn.STATUS.STATE). -/
inductive TuState where
  | off | armed | holdoff | disarmed | stalled
deriving DecidableEq, Repr

/-- A trigger unit (R215 to R221). -/
structure TuSt where
  st : TuState
  /-- stream time through which the unit has handled -/
  done : Option Tick
  /-- t_A and the flags gathered since, while in WAIT, with the A event's LATE and crossing -/
  wait : Option (TrgEv × Nat)
  count : Nat
  /-- end of the holdoff in progress or last recorded -/
  holdEnd : Option Tick
  /-- what has landed and has not been handled yet, oldest first -/
  acts : List (Tick × TuAct)
  fseq : Nat
deriving DecidableEq, Repr

/-- A trigger as the consumers see it (R223, R230). -/
structure Trig where
  tu : Nat
  t : Tick
  tA : Tick
  src : Nat
  fl : Nat
  marks : Nat
  ch : Nat
  fseq : Nat
deriving DecidableEq, Repr

/-- A TRIG_OUT pin (R228, R229): the scheduled pulses, oldest first, whether a pulse is in progress, the pin level. -/
structure ToutSt where
  queue : List (Tick × Tick)
  inPulse : Bool
  level : Bool
deriving DecidableEq, Repr

/-- A TRIG_IN pin (R210): the level last sampled, and the edge that produced the latest event. -/
structure TinSt where
  level : Bool
  lastEv : Option Tick
deriving DecidableEq, Repr

/-- The state of the trigger engine that no register shows. -/
structure TrgSt where
  /-- mask points that differ from the reset pair, keyed by MASK_ADDR (R205) -/
  mask : List (Nat × Word)
  /-- sources by their code of R200 -/
  src : List (Nat × SrcSt)
  /-- comparators: 0–7 TD, 8–15 ZP -/
  cmp : List (Nat × CmpSt)
  masks : List (Nat × MaskSt)
  regions : List (Nat × RegionSt)
  tins : List (Nat × TinSt)
  tus : List (Nat × TuSt)
  touts : List (Nat × ToutSt)
  /-- triggers asserted, newest first, for the consumers that map them later (Hoop, Cykin, export) -/
  trigs : List Trig
deriving DecidableEq, Repr

/-- The spectral engine at reset: no channel runs. -/
def SpxSt.init : SpxSt where
  segs := []
  traces := []
  uwin := []
  frames := []
  recs := []

/-- The trigger engine at reset: every unit OFF, every mask point at its reset pair. -/
def TrgSt.init : TrgSt where
  mask := []
  src := []
  cmp := []
  masks := []
  regions := []
  tins := []
  tus := []
  touts := []
  trigs := []

/-! ### Module power and housekeeping (chapter 2) -/

/-- The state of the power path that no register shows. -/
structure PwrSt where
  /-- VIN has risen through 8.7 V and not fallen through 8.3 V: AUX_3V3 is supplied (R66, R67) -/
  accepted : Bool
  /-- the rails run, from the start of a start-up to the end of a shutdown (R66) -/
  rails : Bool
  /-- the module stays off until MOD_EN has been low for 10 ms or input power is restored (R71, R558, R579) -/
  latched : Bool
  /-- the surge stopper has disconnected the input (R71) -/
  disc : Bool
  /-- a rail was not in regulation at 12 ms: ALERT_N is driven low (R558) -/
  startFail : Bool
  /-- the overvoltage accumulator in ms (R71) -/
  accum : Nat
  /-- output pins in high impedance, by pin ID of R73 -/
  hiz : List Nat
  /-- re-enabled pins that have not yet held for 10 ms (R73) -/
  watch : List Nat
  /-- the ordered shutdown in progress, by its cause (R579) -/
  shut : Option Nat
  /-- SHDN_TMO has passed in that shutdown -/
  shutTimedOut : Bool
  /-- the throttle level that R69 needs to hold ICORE at or below 300 A -/
  coreLevel : Nat
deriving DecidableEq, Repr

/-- A set of conversions of a housekeeping slot (R77, R80, R81, R83). -/
structure HkSet where
  /-- the slot register as it stood at the start of the set (R80) -/
  cfg : Word
  sum : Nat
  done : Nat
  warm : Bool
deriving DecidableEq, Repr

/-- The state of housekeeping that no register shows. -/
structure HkSt where
  /-- sets in progress, by slot -/
  sets : List (Nat × HkSet)
  /-- slots with an edge skipped since their previous result (R78) -/
  skipped : List Nat
  /-- the slot whose conversion is in the converter -/
  busy : Option Nat
  /-- slots of the running scan whose sets have not ended, in ascending order (R77) -/
  scan : List Nat
  /-- the 500 µs count of R82 runs -/
  refCount : Bool
deriving DecidableEq, Repr

/-- Power at reset: the module is off and VIN has not been accepted; every PWR register reads 0 (R595). -/
def PwrSt.init : PwrSt where
  accepted := false
  rails := false
  latched := false
  disc := false
  startFail := false
  accum := 0
  hiz := []
  watch := []
  shut := none
  shutTimedOut := false
  coreLevel := 0

/-- Housekeeping at reset: nothing converts. -/
def HkSt.init : HkSt where
  sets := []
  skipped := []
  busy := none
  scan := []
  refCount := false

/-! ### Configuration images and start-up (chapter 21) -/

/-- One entry of an image: the register, the bits written and their value (R555). -/
structure ImgEntry where
  addr : Nat
  mask : Nat
  value : Nat
deriving DecidableEq, Repr

/-- An overlay apply that is pending: its overlay, its landing, its arrival (R41) and the entries captured (R565). -/
structure Apply where
  index : Nat
  landing : Tick
  seq : Nat
  entries : List ImgEntry
deriving DecidableEq, Repr

/-- The state of start-up, images and resets that no register shows. -/
structure CfgSt where
  /-- the step of R557 reached: 0 while the rails ramp, then the PHASE last entered -/
  stage : Nat
  /-- EPOCH_AUTO of the base image in use (R560) -/
  epochAuto : Bool
  /-- overlay applies pending, oldest first (R565) -/
  applies : List Apply
  /-- the reset waiting for its drain: its kind (R568) -/
  rst : Option Nat
  /-- the drain of that reset has begun: programming has ended and EN = 0 has been written to every unit -/
  rstDrain : Bool
  /-- programming in progress: its TARGET, the staged bytes and whether its check passed (R563) -/
  prog : Option (Nat × List Byte × Bool)
  /-- PHASE before standby (R569) -/
  standbyPrev : Nat
  /-- gate bits that standby set, by domain (R569) -/
  standbyGated : List Nat
deriving DecidableEq, Repr

/-- Start-up at reset: the rails have not yet ramped. -/
def CfgSt.init : CfgSt where
  stage := 0
  epochAuto := false
  applies := []
  rst := none
  rstDrain := false
  prog := none
  standbyPrev := 0
  standbyGated := []

/-! ### Health (chapter 22) -/

/-- The steps of a return after a takeover (R585). -/
inductive TakePhase where
  /-- CHS covers the channel and no retest runs -/
  | covered
  /-- a retest has started and no decision point has followed it -/
  | retest
  /-- the reload is due at the next landing -/
  | reload
  /-- the channel runs live from L1; the compare begins at Lc -/
  | live (l1 : Tick)
  /-- outputs are compared from Lc -/
  | compare (lc : Tick)
  /-- outputs from Lb are staged; CHS is freed when they have been taken -/
  | staged (lb : Tick)
deriving DecidableEq, Repr

/-- A replay takeover of one channel (R582). -/
structure Takeover where
  ch : Nat
  /-- the replay offset O -/
  o : Nat
  tx : Tick
  phase : TakePhase
  /-- CHS itself has failed while it covers the channel: outputs carry MEM (R587) -/
  bad : Bool
deriving DecidableEq, Repr

/-- The equaliser of one lane under a re-plan: its code, the code it steps to and the code it stepped from (R575). Lane
keys are 0 to 63 for ingest lanes and 64 + 4p + l for lane l of Byora port p. -/
structure EqStep where
  lane : Nat
  now : Int
  goal : Int
  start : Int
  /-- the change was withdrawn after a flagged multiblock -/
  dropped : Bool
deriving DecidableEq, Repr

/-- A re-plan whose steps are still to land (R574, R575). -/
structure Replan where
  /-- a decision point has followed the computation -/
  armed : Bool
  eq : List EqStep
  /-- HBM trims become pending at the next landing -/
  trims : Bool
  /-- classes changed so far, as a mask -/
  changed : Nat
deriving DecidableEq, Repr

/-- The state of the health unit that no register shows. -/
structure AgeSt where
  /-- minutes with the die at or above 95.0 °C, cumulative (R573) -/
  hotMin : Nat
  /-- highest die temperature since the previous entry, 0.1 °C -/
  tmax : Int
  /-- faults of the catalogue, cumulative over every start -/
  faultsCum : Nat
  /-- stream time and event code of the last fault -/
  lastT : Nat
  lastCode : Nat
  replan : Option Replan
  /-- classes whose NOW has been reported below 0, and whose PROJ has been reported negative (R577) -/
  nowNeg : List Nat
  projNeg : List Nat
  takeovers : List Takeover
  /-- channels whose outputs carry MEM without cover (R587) -/
  uncovered : List Nat
  /-- equaliser codes by lane key, relative to those at start-up -/
  eqCode : List (Nat × Int)
  /-- generator states of the perturbation targets, by target (R589) -/
  gen : List (Nat × Nat)
  /-- thermal throttle level (R578) -/
  level : Nat
  /-- seconds of power-on time not yet counted in POM, and hot seconds not yet counted in HOT_MIN -/
  powerSec : Nat
  hotSec : Nat
  /-- compression engines out of service (R587) -/
  engOut : List Nat
deriving DecidableEq, Repr

/-- Health at reset: no entry in the ledger, nothing covered. -/
def AgeSt.init : AgeSt where
  hotMin := 0
  tmax := 0
  faultsCum := 0
  lastT := 0
  lastCode := 0
  replan := none
  nowNeg := []
  projNeg := []
  takeovers := []
  uncovered := []
  eqCode := []
  gen := []
  level := 0
  powerSec := 0
  hotSec := 0
  engOut := []

/-! ### Hoop (chapter 8) -/

/-- An element of a writer's stream (R234, R236): its stamp, bytes, flags, marks and contributing span. -/
structure Elem where
  t : Tick
  bytes : List Byte
  fl : Nat
  marks : Nat
  lo : Tick
  hi : Tick
deriving DecidableEq, Repr

/-- What lands on a writer (R240, R247 to R249, R615). -/
inductive HwAct where
  /-- EN landed as 1, or an ARM landed -/
  | enable | arm
  | disable
  /-- the source stopped, the source changed, stream time stopped, the writer restarts after an epoch -/
  | srcStop | srcChange | stop | restart
deriving DecidableEq, Repr

/-- The states of a writer (R240). -/
inductive HwState where
  | off | armed | post | done
deriving DecidableEq, Repr

/-- The record in progress of a writer in POST (R243, R245). -/
structure HwRec where
  kj : Nat
  pre : Nat
  left : Nat
  tTrig : Tick
  src : Nat
  marks : Nat
  hit : Nat
  fl : Nat
deriving DecidableEq, Repr

/-- A completed record as Scrivener takes it (R314): where its header and its slot lie. -/
structure HoopRec where
  rseq : Nat
  hdr : Nat
  slot : Nat
  slotBytes : Nat
  cap : Nat
  size : Nat
  first : Nat
  nsamp : Nat
  t0 : Tick
  t1 : Tick
  fl : Nat
deriving DecidableEq, Repr

/-- A header that waits for the record's data writes (R245). -/
structure HwHeader where
  addr : Nat
  bytes : List Byte
  rseq : Nat
  tTrig : Tick
  fl : Nat
  /-- cause of R247 for a partial record -/
  cause : Option Nat
  desc : HoopRec
deriving DecidableEq, Repr

/-- A writer (R234 to R249). -/
structure HwSt where
  st : HwState
  slot : Nat
  /-- fill index of the next element -/
  k : Nat
  /-- the elements of the current fill, newest first: flags, marks and spans for the header -/
  fill : List Elem
  /-- landing of the arm, and first stamp of the current fill -/
  armL : Tick
  start : Tick
  /-- stamp of the last element committed or passed over -/
  last : Tick
  rec' : Option HwRec
  /-- the source as it stands for the elements now taken: KIND and IDX -/
  kind : Nat
  idx : Nat
  /-- landing at which the held geometry is ready (R249), and that the event 0x0701 is still due for this landing -/
  ready : Option Tick
  armEv : Option Tick
  acts : List (Tick × HwAct)
  headers : List HwHeader
  rseq : Nat
  /-- NEED exceeded CAP at the last landing (R242), and the source ran -/
  overCap : Bool
  srcRun : Bool
deriving DecidableEq, Repr

/-! ### Density planes and spectrogram (chapter 9) -/

/-- A density channel (R262 to R271). -/
structure DenSt where
  /-- live counters that are not zero, by 4,096·row + column -/
  plane : List (Nat × Nat)
  /-- EN landings, newest first -/
  on : List (Tick × Bool)
  /-- landings of R267 whose restart pass is still to come, oldest first -/
  restarts : List Tick
  /-- all passes at or before this stream time have acted -/
  cur : Tick
  /-- PLOG in use, and the value that takes over at a pass (R265) -/
  plog : Nat
  plogNext : Option (Nat × Tick)
  /-- the restart pass of the present accumulation -/
  t0 : Tick
  /-- a walk in progress, with its pass when it copies the snapshot -/
  walk : Option (Option Tick)
deriving DecidableEq, Repr

/-- The density engine. -/
structure DenAll where
  ch : List (Nat × DenSt)
  /-- the open spectrogram groups, by channel -/
  sg : List (Nat × TraceSt)
deriving DecidableEq, Repr

/-- The density engine at reset: every counter 0 (R262). -/
def DenAll.init : DenAll where
  ch := []
  sg := []

/-! ### Gallery (chapter 10) -/

/-- What a latch fixes for one pane (R290 to R292): the words of its active set, the generation sampled, the newest
spectrogram line and its slot (R283), and the trace store (R284). -/
structure PaneShow where
  words : List Nat
  gen : Nat
  line : Nat
  slot : Nat
  record : List Byte
deriving DecidableEq, Repr

/-- A pane (R289 to R296). -/
structure PaneSt where
  /-- the words of its armed set -/
  armed : Option (List Nat)
  /-- as the last latch fixed it, and as the frame in progress shows it -/
  act : PaneShow
  cur : PaneShow
  /-- latches that have changed BASE (R280) -/
  baseGen : Nat
  /-- the running CRC of the frame in progress (R295), none before its first fetched line -/
  crc : Option Nat
  /-- the run of the freeze detector (R296): signature, count, first generation; none before its first counted frame -/
  run : Option (Nat × Nat × Nat)
deriving DecidableEq, Repr

/-- Gallery. -/
structure GalSt where
  panes : List (Nat × PaneSt)
  /-- palette entries that are not 0, by PAL_ADDR (R285) -/
  pal : List (Nat × Word)
  /-- the frame in progress or about to begin (R279) -/
  frame : Nat
  /-- its line 0 has begun, its latch has taken place, it was aborted, it has retired -/
  begun : Bool
  latched : Bool
  aborted : Bool
  retired : Bool
  /-- lines of it that have been fetched -/
  fetched : Nat
  /-- the pixels of the line last sent, as the link carries them (R287) -/
  scan : List (Nat × Nat × Nat)
  /-- link training is in progress (R299) -/
  training : Bool
deriving DecidableEq, Repr

/-- Gallery at reset: disabled, no sink. -/
def GalSt.init : GalSt where
  panes := []
  pal := []
  frame := 0
  begun := false
  latched := false
  aborted := false
  retired := false
  fetched := 0
  scan := []
  training := false

/-! ### Scrivener (chapters 11 and 12) -/

/-- A run of a recorded stream from its start to its stop (R305 to R307, R313, R318). -/
structure StrSt where
  start : Tick
  stop : Option Tick
  kind : Nat
  idx : Nat
  /-- packed width b, and whether its blocks are compressed -/
  width : Nat
  comp : Bool
  /-- records handed on so far; the first stamp that a sample stream has not handed on -/
  taken : Nat
  next : Tick
  /-- bytes of the present record already carried by earlier blocks -/
  part : Nat
  /-- stamp of the last element recorded -/
  prev : Tick
  /-- the open gap: first and last stamp, elements, reason (R313, R314) -/
  gap : Option (Tick × Tick × Nat × Nat)
deriving DecidableEq, Repr

/-- A folio in staging (R309, R312, R317). -/
structure Folio where
  sid : Nat
  lseq : Nat
  bseq : Nat
  t0 : Tick
  t1 : Tick
  nelem : Nat
  fl : Nat
  marks : Nat
  greason : Nat
  payload : List Byte
  /-- raw reason of R309, none for a coded block -/
  raw : Option Nat
  /-- the engine that holds it, none once its bytes are final -/
  engine : Option Nat
  bytes : List Byte
  /-- staging it holds outside the reserve -/
  held : Nat
deriving DecidableEq, Repr

/-- A run of samples read ahead in a playback: from t0, n samples, recorded ones or zeros with GAP (R325, R326). -/
structure PbRun where
  t0 : Tick
  n : Nat
  data : List (Int × Int)
  gap : Bool
  fl : Nat
deriving DecidableEq, Repr

/-- A playback in progress (R322 to R327). -/
structure PbSt where
  tRec : Tick
  rid : Nat
  drives : List Nat
  su : Nat
  /-- KIND 0 streams: stream number, channel, packed width -/
  streams : List (Nat × Nat × Nat)
  /-- next folio by logical offset, the last valid LSEQ, the end of the log reached -/
  off : Nat
  lseq : Option Nat
  done : Bool
  endLseq : Option Nat
  /-- read-ahead by stream, oldest first, and the next stamp each expects -/
  ahead : List (Nat × List PbRun)
  expect : List (Nat × Tick)
  /-- recorded changes by landing: kind, register, lowest bit, width and value (R324) -/
  journal : List (Tick × PendKind × Nat × Nat × Nat × Nat)
  /-- recorded coefficient records by landing (R137) -/
  cal : List (Tick × List Byte)
  /-- recorded external events: code, stamp, flags, late (R214) -/
  xlog : List (Nat × Tick × Nat × Bool)
  /-- epoch applied; why it is to end at the next landing; it has stopped with this cause -/
  running : Bool
  stopReq : Option Nat
  ended : Option Nat
deriving DecidableEq, Repr

/-- Scrivener. -/
structure ScrSt where
  /-- the contents of the drives by port: bytes of the namespace that are not 0 -/
  drives : List (Nat × List Host.Cell)
  /-- commands that have been issued a second time: port and opcode (R329) -/
  retried : List (Nat × Nat)
  /-- ports that failed in this recording and are written no more (R320) -/
  dead : List Nat
  /-- the runs of each stream, oldest first -/
  streams : List (Nat × List StrSt)
  folios : List Folio
  lseq : Nat
  /-- BSEQ of the log stream S15 -/
  logSeq : Nat
  /-- logical offset of the next folio written, LSEQ of the last folio written, of the last one flushed (R319) -/
  off : Nat
  written : Option Nat
  flushed : Option Nat
  tRec : Tick
  /-- drives of the recording in ascending port order; label bytes 0x20 to 0x2F as at its start; the 16-byte descriptors
  of its streams (R316) -/
  used : List Nat
  label : List Byte
  desc : List (Nat × List Byte)
  loss : Bool
  lossSeen : List Nat
  /-- entries of S15 not yet in a block: stamp and bytes -/
  log : List (Tick × List Byte)
  /-- cause with which the recording is to close at the next landing, and with which it closes -/
  closeReq : Option Nat
  cause : Nat
  /-- completed Hoop records by writer, newest first -/
  hoop : List (Nat × List HoopRec)
  /-- Tally queue entries by input, newest first; an entry without bytes is one the queue lost (R314) -/
  tally : List (Nat × List SpecRec)
  /-- spectrogram lines by channel, newest first -/
  lines : List (Nat × List SpecRec)
  pb : Option PbSt
deriving DecidableEq, Repr

/-- Scrivener at reset: idle, the drives blank to it. -/
def ScrSt.init : ScrSt where
  drives := []
  retried := []
  dead := []
  streams := []
  folios := []
  lseq := 0
  logSeq := 0
  off := 0
  written := none
  flushed := none
  tRec := 0
  used := []
  label := []
  desc := []
  loss := false
  lossSeen := []
  log := []
  closeReq := none
  cause := 0
  hoop := []
  tally := []
  lines := []
  pb := none

/-! ### Weaver (chapter 13) -/

/-- An entry of the sequence table (R355). -/
structure WvEntry where
  start : Nat
  len : Nat
  /-- 0 WAVE, 1 PAT, 2 HALT -/
  kind : Nat
  cond : Nat
  repM1 : Nat
  next : Nat
  forever : Bool
  jump : Nat
  idle0 : Nat
  idle1 : Nat
deriving DecidableEq, Repr

/-- A jump request that waits for its stamp (R359): the origins of the requests with that stamp (bit 0 triggers, bit 1
Tally events, bit 2 host), or a stop with its cause (R365). -/
structure WvReq where
  s : Tick
  orig : Nat
  stop : Option Nat
deriving DecidableEq, Repr

/-- A Weaver engine (R349, R357 to R369). -/
structure EngSt where
  /-- the start of a first pass that has not begun, and whether a START named it -/
  first : Option Tick
  byStart : Bool
  /-- the entry that plays, its contents, and the contents of NEXT and JUMP as read at the start of the pass -/
  cur : Nat
  ent : WvEntry
  nxt : WvEntry
  jmp : WvEntry
  /-- start of the pass, passes of the entry still to follow it -/
  b : Tick
  left : Nat
  /-- pattern engine: the next vector of the pass and its start -/
  vec : Nat
  vt : Tick
  /-- a pending jump: target, its contents, whether it waits for the pass after the present one; a pending stop: cause,
  the same -/
  jump : Option (Nat × WvEntry × Bool)
  stop : Option (Nat × Bool)
  reqs : List WvReq
  /-- first idle element of an underrun, the resynchronisation that is to be reported, idle ticks so far -/
  under : Option Tick
  resync : Option Tick
  shift : Nat
deriving DecidableEq, Repr

/-- A pattern edge that a vector has placed and that has not been released: pin, tick, half tick, level (R373). -/
structure PatEdge where
  pin : Nat
  t : Tick
  half : Nat
  level : Bool
deriving DecidableEq, Repr

/-- Weaver. -/
structure WvrSt where
  /-- words of the sequence table that differ from reset, by SEQ_ADDR -/
  seq : List (Nat × Word)
  eng : List (Nat × EngSt)
  /-- a transmit link waits for an LEMC edge (R371) -/
  linkDue : Bool
  /-- the words at the DACs, and the levels of the pattern pins before inversion -/
  dac0 : Nat
  dac1 : Nat
  pat : Nat
  edges : List PatEdge
deriving DecidableEq, Repr

/-- Weaver at reset. -/
def WvrSt.init : WvrSt where
  seq := []
  eng := []
  linkDue := false
  dac0 := 0
  dac1 := 0
  pat := 0
  edges := []

/-! ### Tally (chapter 14) -/

/-- A stamped edge (R382): stamp in 1/256 tick, its sequence number if it is tallied, rising or falling, in holdover,
stamped with the uniform table or during a calibration step. -/
structure TlyEdge where
  stamp : Nat
  seq : Nat
  rising : Bool
  hld : Bool
  uncal : Bool
deriving DecidableEq, Repr

/-- A stepping of a table (R391): the old and the new one, the step last landed. -/
structure TlyStep where
  input : Nat
  old : List Nat
  new : List Nat
  j : Nat
deriving DecidableEq, Repr

/-- A measurement unit (R395): the arm's arrival in 1/256 tick, the edge that opened the window. -/
structure FmSt where
  armAt : Nat
  opened : Option TlyEdge
deriving DecidableEq, Repr

/-- Tally, by input. -/
structure TlySt where
  /-- selected edges since the prescaler restarted -/
  pre : List (Nat × Nat)
  /-- the last stamped edge, tallied or gate, in 1/256 tick before TIN and DESKEW -/
  last : List (Nat × Nat)
  /-- sequence number after the last stored entry -/
  stored : List (Nat × Nat)
  /-- stamped tallied edges and gate edges, newest first -/
  edges : List (Nat × List TlyEdge)
  gates : List (Nat × List TlyEdge)
  /-- tables in effect, centre[0] to centre[31]; an unlisted input uses the uniform table -/
  tables : List (Nat × List Nat)
  /-- phase counts of the newest valid table -/
  counts : List (Nat × List Nat)
  /-- inputs whose first table waits for a landing, with whether its decision point has passed -/
  whole : List (Nat × Bool)
  steps : List TlyStep
  /-- the decision point of the first step has passed -/
  armed : Bool
  /-- inputs computed while a stepping was in progress -/
  waiting : List Nat
  fm : List (Nat × FmSt)
deriving DecidableEq, Repr

/-- Tally at reset: nothing stamped, every table uniform. -/
def TlySt.init : TlySt where
  pre := []
  last := []
  stored := []
  edges := []
  gates := []
  tables := []
  counts := []
  whole := []
  steps := []
  armed := false
  waiting := []
  fm := []

/-! ### Cykin cores (chapters 15 and 16) -/

/-- A write that an issued instruction has still to make to a core's registers (R407). Vectors hold 16 parts, I and Q of
lane 0 first. -/
inductive CoreWrite where
  | d (n : Nat) (v : List Int)
  | ac (n : Nat) (v : List Int)
  | reg (r : Nat) (v : Nat)
  | lc (v : Nat)
  | lb (v : Nat)
  | le (v : Nat)
  | sr (v : Nat)
  | ie (b : Bool)
  | ov (n : Nat)
  | imask (v : Nat)
  | cause (b : Nat)
  | causeClr (mask : Nat)
  | ipc (v : Nat)
  | isr (v : Nat)
  | facc (v : Nat)
  | faccOr (v : Nat)
deriving DecidableEq, Repr

/-- Such a write with the cycle at whose end it is made, and its place among writes of one cycle (R447). -/
structure PipeOp where
  at' : Nat
  rank : Nat
  w : CoreWrite
deriving DecidableEq, Repr

/-- A far load that stalls a core (R405, R409): its device address, its size, and the register it writes: D, every lane of
D, or a scalar register. -/
structure FarLoad where
  addr : Nat
  /-- 0 LD, 1 LDR, 2 LDA -/
  form : Nat
  reg : Nat
deriving DecidableEq, Repr

/-- An input ring of a core (R413 to R415): items stored, popped and released so far, items lost since the last stored
one. -/
structure RingSt where
  stored : Nat
  popped : Nat
  freed : Nat
  lostN : Nat
deriving DecidableEq, Repr

/-- A Cykin core (R400): its registers as committed, the writes in flight, and its place in the program. -/
structure CoreSt where
  d : List (Nat × List Int)
  ac : List (Nat × List Int)
  /-- An at n, Mn at 8 + n -/
  a : List (Nat × Nat)
  lc : Nat
  lb : Nat
  le : Nat
  sr : Nat
  imask : Nat
  icause : Nat
  ipc : Nat
  isr : Nat
  facc : Nat
  /-- the cycle at which the next instruction issues, in issue cycles -/
  cycle : Nat
  pipe : List PipeOp
  /-- the next instruction stands in a delay slot; the target that follows it -/
  slot : Bool
  target : Option Nat
  /-- TRAP has issued; RUN = 0 waits for a boundary -/
  trap : Bool
  stopping : Bool
  far : Option FarLoad
  oseq : Nat
  rings : List (Nat × RingSt)
deriving DecidableEq, Repr

/-- A run of a feed (R411, R412): the landing of its start, its configuration, elements and items taken, its stop. -/
structure FeedRun where
  start : Tick
  stop : Option Tick
  kind : Nat
  idx : Nat
  item : Nat
  sel : Nat
  ffdec : Nat
  cluster : Nat
  cmask : Nat
  ring : Nat
  taken : Nat
  k : Nat
  /-- the run goes on after a stop of its source: items keep their numbers -/
  cont : Bool
deriving DecidableEq, Repr

/-- The Cykin clusters. -/
structure CykSt where
  cores : List (Nat × CoreSt)
  feeds : List (Nat × List FeedRun)
deriving DecidableEq, Repr

/-- The clusters at reset: every core RESET, every feed off. -/
def CykSt.init : CykSt where
  cores := []
  feeds := []

/-! ### Clocks (chapter 20) and memory (chapter 18) -/

/-- A move of the core PLL (R540): where it goes, the divider's exponent, and whether the new source is locked. -/
structure ClkMove where
  old : Nat
  new : Nat
  refmode : Nat
  /-- divider 2^exp in effect -/
  exp : Nat
  locked : Bool
deriving DecidableEq, Repr

/-- A domain asked to gate or restarting (R547, R548): the idle acknowledgement, the divider's exponent, the direction of
its ramp. -/
structure GateSt where
  ack : Bool
  exp : Nat
  up : Bool
deriving DecidableEq, Repr

/-- The state of the clocks that no register shows. -/
structure ClkSt where
  /-- consecutive good windows of REF_IN and the frequency code they found (R534) -/
  goodWindows : Nat
  goodFreq : Nat
  move : Option ClkMove
  /-- REFMODE of the core PLL in effect (R538) -/
  refmode : Nat
  /-- 0x0107 has been raised for the present SEL (R535) -/
  waited : Bool
  gates : List (Nat × GateSt)
  /-- PLLs whose holdover has reached HOLD_LIM (R542) -/
  limited : List Nat
deriving DecidableEq, Repr

/-- Clocks at reset: the core PLL on the TRO, no domain gated. -/
def ClkSt.init : ClkSt where
  goodWindows := 0
  goodFreq := 0
  move := none
  refmode := 0
  waited := false
  gates := []
  limited := []

/-- A request that waits for the memory system to leave self-refresh (R496): its port (10 for the patrol), address,
bytes to write, and what the symbol code finds (0 good, 1 corrected, 2 uncorrectable). -/
structure MemReq where
  port : Nat
  addr : Nat
  write : Option (List Byte)
  found : Nat
deriving DecidableEq, Repr

/-- The state of the memory system that no register shows. -/
structure HbmSt where
  /-- trims that a re-plan has made pending and no retraining pass has applied (R575) -/
  pending : List Nat
  /-- 8-byte codewords that hold poison, by address (R499) -/
  poison : List Nat
  /-- postponed refreshes, by pseudo-channel (R489) -/
  owed : List (Nat × Nat)
  /-- consecutive windows above 4 (R488); the event has been raised for the present run -/
  hot : Nat
  hotDone : Bool
  /-- bytes served to each port beyond whole MiB (PORTp.BYTES) -/
  served : List (Nat × Nat)
  waiting : List MemReq
  /-- a retraining pass starts after self-refresh (R496) -/
  passDue : Bool
  /-- full patrol passes (R500) -/
  scrub : Nat
deriving DecidableEq, Repr

/-- The memory system at reset. -/
def HbmSt.init : HbmSt where
  pending := []
  poison := []
  owed := []
  hot := 0
  hotDone := false
  served := []
  waiting := []
  passDue := false
  scrub := 0

/-! ### Host interface and Porter (chapter 17) -/

/-- Where a command came from (R462, R464): the local ring, or a remote module through a port, with the number its
originator gave it. -/
inductive CmdFrom where
  | ring
  | remote (port node rseq : Nat)
deriving DecidableEq, Repr

/-- A completion that waits to be written (R456): its result, CID, status, CLAMPED, Porter channel or 0xFFFF, and
whether its writing signals the channel's vector (R469). -/
structure Cpl where
  result : Nat
  cid : Nat
  status : Nat
  clamped : Bool
  src : Nat
  irq : Bool
deriving DecidableEq, Repr

/-- The host interface beyond its registers. -/
structure HifSt where
  /-- CMD_TAIL, CPL_HEAD and EVT_HEAD as last polled -/
  tail : Nat
  cplHead : Nat
  evtHead : Nat
  cplPhase : Bool
  evtPhase : Bool
  /-- commands fetched and not decoded, oldest first -/
  fetched : List (List Byte)
  /-- remote commands waiting to be decoded (R462, R521) -/
  remote : List (CmdFrom × List Byte)
  /-- the last decoded command was a local one -/
  lastLocal : Bool
  /-- completions due that no room was found for -/
  due : List Cpl
  /-- events lost since the last marker (R457) -/
  lost : Nat
  /-- entries written since the last message of vectors 0 and 1 (R463) -/
  cplNew : Bool
  evtNew : Bool
  /-- MSI-X table words that differ from reset, and pending bits (R463) -/
  msix : List (Nat × Word)
  pba : List Nat
  /-- HIF.CTRL.EN has been cleared and fetched commands remain (R474) -/
  closing : Bool
  /-- what the last host read returned -/
  readData : List Byte
  readPoison : Bool
  /-- HIF_PERST_N is asserted (R475, R558) -/
  perst : Bool
deriving DecidableEq, Repr

/-- A Porter transfer or fence (R466, R470), with its order of acceptance. -/
structure PtrItem where
  seq : Nat
  cid : Nat
  from' : CmdFrom
  fence : Bool
  irq : Bool
  sfix : Bool
  dfix : Bool
  /-- width of a fixed side in bytes -/
  fw : Nat
  count : Nat
  src : Nat
  dst : Nat
  clamped : Bool
  /-- the command's arrival stream time (R39, R522) -/
  tdec : Tick
deriving DecidableEq, Repr

/-- Porter beyond its registers: queues by channel, fences over every channel, acceptances counted. -/
structure PtrSt where
  queues : List (Nat × List PtrItem)
  fences : List PtrItem
  seq : Nat
deriving DecidableEq, Repr

/-- The host interface at reset: disabled. -/
def HifSt.init : HifSt where
  tail := 0
  cplHead := 0
  evtHead := 0
  cplPhase := true
  evtPhase := true
  fetched := []
  remote := []
  lastLocal := false
  due := []
  lost := 0
  cplNew := false
  evtNew := false
  msix := []
  pba := []
  closing := false
  readData := []
  readPoison := false
  perst := false

/-- Porter at reset: every queue empty. -/
def PtrSt.init : PtrSt where
  queues := []
  fences := []
  seq := 0

/-! ### Byora (chapter 19) -/

/-- A link-state record (R508): serial, node ID, version, and for each UP port the neighbour's serial and port. -/
structure LinkRec where
  serial : Nat
  id : Option Nat
  ver : Nat
  links : List (Nat × Nat × Nat)
deriving DecidableEq, Repr

/-- A trigger or epoch message (R516). -/
structure PMsg where
  epoch : Bool
  hops : Nat
  origin : Nat
  line : Nat
  fl : Nat
  t : Tick
  lseq : Nat
deriving DecidableEq, Repr

/-- A cell that the module gives to a port or a route (R508, R509, R514, R521 to R524). -/
inductive ByoCell where
  | hello (port serial : Nat) (id : Option Nat) (low dist : Nat)
  | linkState (port : Nat) (r : LinkRec)
  | assign (serial id : Nat)
  | p (port : Nat) (m : PMsg)
  | copy (port : Nat) (m : PMsg)
  | command (dest rseq : Nat) (cmd : List Byte)
  | completion (node rseq rstat result cid status : Nat) (clamped : Bool) (tdec : Tick)
  | element (dest ring : Nat) (bytes : List Byte) (bhz : Nat)
deriving DecidableEq, Repr

/-- A remote command whose completion has not returned (R522). -/
structure RemoteOut where
  rseq : Nat
  dest : Nat
  tag : Nat
  cid : Nat
  evt : Bool
  timedOut : Bool
deriving DecidableEq, Repr

/-- A run of an export (R523): its start, stop, configuration and elements taken. -/
structure XpRun where
  start : Tick
  stop : Option Tick
  kind : Nat
  idx : Nat
  tumask : Nat
  dest : Nat
  ring : Nat
  bhz : Nat
  taken : Nat
deriving DecidableEq, Repr

/-- The last message received from an origin on a line (R518). -/
structure LineRx where
  origin : Nat
  line : Nat
  lseq : Nat
  t : Tick
deriving DecidableEq, Repr

/-- Byora beyond its registers. -/
structure ByoSt where
  /-- neighbour's serial, lowest serial it knows and its distance from it, by port (R508) -/
  nbrs : List (Nat × Nat × Nat × Nat)
  /-- link-state database, own record included -/
  db : List LinkRec
  /-- the root's serial as learned -/
  root : Option Nat
  /-- the database has changed since the table was installed; since IDs were assigned -/
  dirty : Bool
  unserved : Bool
  /-- IDs reserved for departed modules (R510) -/
  reserved : List Nat
  /-- routing table: hops and MASK by destination ID (R511) -/
  routes : List (Nat × Nat × Nat)
  /-- next LSEQ of each line -/
  lseq : List (Nat × Nat)
  /-- last C copy and last P cell taken of each origin and line -/
  copies : List LineRx
  taken : List LineRx
  /-- epochs taken from P cells -/
  epochs : List Tick
  /-- cells given to the links, oldest first -/
  sent : List ByoCell
  /-- remote send ring: polled tail and head, entries fetched and not sent, next RSEQ -/
  rsTail : Nat
  rcHead : Nat
  rsHead : Nat
  rcTail : Nat
  rcPhase : Bool
  rseq : Nat
  out : List RemoteOut
  /-- remote completion entries that no room was found for -/
  rcDue : List (List Byte)
  /-- exports: runs, and whether the last element was dropped, by export -/
  xp : List (Nat × List XpRun)
  xpLoss : List Nat
deriving DecidableEq, Repr

/-- Byora at reset: no neighbour known, this module its own root. -/
def ByoSt.init : ByoSt where
  nbrs := []
  db := []
  root := none
  dirty := false
  unserved := false
  reserved := []
  routes := []
  lseq := []
  copies := []
  taken := []
  epochs := []
  sent := []
  rsTail := 0
  rcHead := 0
  rsHead := 0
  rcTail := 0
  rcPhase := true
  rseq := 0
  out := []
  rcDue := []
  xp := []
  xpLoss := []

/-! ### The whole state -/

/-- The module: the queue of waiting commands, the registers with their shadows, the memories, the events not yet
delivered, and the state of every unit that no register shows. -/
structure State where
  /-- the commands that are waiting, first in, first out -/
  pending : List Instr
  /-- registers whose word differs from its reset word, by BAR0 offset (R595); every register of every unit lives here -/
  regs : List (Nat × Word)
  /-- read shadows of the 64-bit pairs, by the offset of the high word (R14, R15); an unlisted shadow is 0 -/
  rsh : List (Nat × Word)
  /-- write shadows of the writable pairs, by the offset of the low word (R16); an unlisted shadow is the low word of the reset value -/
  wsh : List (Nat × Word)
  /-- device memory of R23: HBM, the on-die SRAM window and host memory, by 48-bit device address; an unlisted byte reads 0 -/
  mem : List Host.Cell
  /-- events raised and not yet written to the event ring, oldest first (R457) -/
  evq : List Event
  /-- the next event sequence number ESEQ (R457) -/
  eseq : Nat
  /-- the number of free values drawn so far: the model's own counter, no state of the module -/
  free : Nat
  /-- configurations that landings have replaced, newest first (R40) -/
  past : List PastCfg
  /-- stream time -/
  sys : SysSt
  /-- ingest -/
  ing : IngSt
  /-- streams, downconverters, zoom channels, capture decimators -/
  dsp : DspSt
  /-- Assayer -/
  asy : AsySt
  /-- spectral engine -/
  spx : SpxSt
  /-- trigger engine -/
  trg : TrgSt
  /-- module power -/
  pwr : PwrSt
  /-- housekeeping -/
  hk : HkSt
  /-- the serial NOR flash by flash offset (R554); an unlisted byte reads 0 -/
  flash : List Host.Cell
  /-- start-up, images and resets -/
  cfg : CfgSt
  /-- health -/
  age : AgeSt
  /-- Hoop writers -/
  hoop : List (Nat × HwSt)
  /-- density planes and spectrogram -/
  den : DenAll
  /-- Gallery -/
  gal : GalSt
  /-- Scrivener and the drives -/
  scr : ScrSt
  /-- Weaver -/
  wvr : WvrSt
  /-- Tally -/
  tly : TlySt
  /-- Cykin cores and feeds -/
  cyk : CykSt
  /-- clocks -/
  clk : ClkSt
  /-- the memory system -/
  hbm : HbmSt
  /-- the host interface -/
  hif : HifSt
  /-- Porter -/
  ptr : PtrSt
  /-- Byora -/
  byo : ByoSt
deriving DecidableEq, Repr

/-- Why a step stops with a fault. The spec gives the module no stop of this kind: every command of the table has an
effect, so nothing raises it. Safe: a stop that never happens hides nothing. -/
inductive Fault where
  /-- Raised by no meaning: the spec gives every command an effect. Safe. -/
  | none
deriving DecidableEq, Repr

/-- Why a command is refused. -/
inductive Refusal where
  /-- Raised only by an arm of `exec` whose command has no meaning yet. Safe: nothing is claimed of such a command. -/
  | notModelled (mnemonic : String)
deriving DecidableEq, Repr

/-- The module right after reset: every register at the value of chapter 23 (R595), stream time not running, nothing in
memory (R557), no work held by any unit, no command waiting. -/
def State.reset : State where
  pending := []
  regs := []
  rsh := []
  wsh := []
  mem := []
  evq := []
  eseq := 0
  free := 0
  past := []
  sys := SysSt.init
  ing := IngSt.init
  dsp := DspSt.init
  asy := AsySt.init
  spx := SpxSt.init
  trg := TrgSt.init
  pwr := PwrSt.init
  hk := HkSt.init
  flash := []
  cfg := CfgSt.init
  age := AgeSt.init
  hoop := []
  den := DenAll.init
  gal := GalSt.init
  scr := ScrSt.init
  wvr := WvrSt.init
  tly := TlySt.init
  cyk := CykSt.init
  clk := ClkSt.init
  hbm := HbmSt.init
  hif := HifSt.init
  ptr := PtrSt.init
  byo := ByoSt.init

end Sys2Proof.Machine
end

