-- ==== Sys2Proof/Machine/Ops.lean ====
section
/-! DEFINITION. The named operations over registers, stream times, events and counters that every unit's meaning is
written with. Registers are read and written as natural numbers below 2^32; `Fld` names one field of one register. -/

namespace Sys2Proof.Machine

/-- What a meaning answers. -/
abbrev Out := Host.Outcome State Fault Refusal

/-! ### Bits and numbers -/

/-- Bits [lo+w−1:lo] of a number. -/
def bits (n lo w : Nat) : Nat := n / 2 ^ lo % 2 ^ w

/-- A w-bit number read as two's complement. -/
def sext (w n : Nat) : Int :=
  let m := n % 2 ^ w
  if 2 * m < 2 ^ w then (m : Int) else (m : Int) - ((2 ^ w : Nat) : Int)

/-- The w-bit two's complement encoding of an integer, modulo 2^w. -/
def encI (w : Nat) (x : Int) : Nat := (x % ((2 ^ w : Nat) : Int)).toNat

/-- One or zero. -/
def b2n (b : Bool) : Nat := if b then 1 else 0

/-- Bit i of a number. -/
def bit (n i : Nat) : Bool := n / 2 ^ i % 2 = 1

/-- A number with bit i set. -/
def setBit (n i : Nat) : Nat := if bit n i then n else n + 2 ^ i

/-- A number with bit i clear. -/
def clearBit (n i : Nat) : Nat := if bit n i then n - 2 ^ i else n

/-- The multiple of m at or below x. -/
def floorTo (m x : Nat) : Nat := x / m * m

/-- The multiple of m at or above x. -/
def ceilTo (m x : Nat) : Nat := (x + m - 1) / m * m

/-- Arithmetic shift right: division by 2^k toward minus infinity (R10). -/
def sar (x : Int) (k : Nat) : Int := x / ((2 ^ k : Nat) : Int)

/-- An integer held to a range. -/
def clampI (lo hi x : Int) : Int := if x < lo then lo else if hi < x then hi else x

/-! ### Stream times (R25, R26) -/

/-- Of two stream times, whether `a` is `b` or earlier: `b` lies less than 2^63 ticks ahead of it (R26). -/
def tle (a b : Tick) : Bool := (b - a).toNat < 2 ^ 63

/-- Whether `a` is earlier than `b` (R26). -/
def tlt (a b : Tick) : Bool := tle a b && (a != b)

/-- The later of two stream times. -/
def tmax (a b : Tick) : Tick := if tle a b then b else a

/-- The earlier of two stream times. -/
def tmin (a b : Tick) : Tick := if tle a b then a else b

/-- A stream time moved by a number of ticks, modulo 2^64. -/
def tadd (a : Tick) (n : Nat) : Tick := a + BitVec.ofNat 64 n

/-- A stream time moved back. -/
def tsub (a : Tick) (n : Nat) : Tick := a - BitVec.ofNat 64 n

/-- The multiple of m at or after a stream time; m is a power of two (R38). -/
def tceil (m : Nat) (a : Tick) : Tick := BitVec.ofNat 64 (ceilTo m a.toNat)

/-- A stream time as an 8-byte event item. -/
def EvItem.t (a : Tick) : EvItem := .w8 a.toNat

/-! ### Register words and fields -/

/-- The field's value in a word. -/
def Fld.get (f : Fld) (w : Nat) : Nat := bits w f.lo f.width

/-- A word with the field replaced. -/
def Fld.put (f : Fld) (w v : Nat) : Nat :=
  w % 2 ^ f.lo + v % 2 ^ f.width * 2 ^ f.lo + w / 2 ^ (f.lo + f.width) * 2 ^ (f.lo + f.width)

/-- Two fields that share no bit of the register map. -/
def Fld.apart (f g : Fld) : Bool := f.off != g.off || decide (f.lo + f.width ≤ g.lo) || decide (g.lo + g.width ≤ f.lo)

/-- The word of the register at a BAR0 offset: the value in effect. -/
def State.rd (s : State) (off : Nat) : Nat := (Assoc.get (RegMap.resetWord off) s.regs off).toNat

/-- The register at a BAR0 offset given a new word. -/
def State.wr (s : State) (off v : Nat) : State :=
  { s with regs := Assoc.put (RegMap.resetWord off) s.regs off (BitVec.ofNat 32 v) }

/-- The effective value of a field. -/
def State.get (s : State) (f : Fld) : Nat := f.get (s.rd f.off)

/-- A field given a new value; the other fields of its word keep theirs. -/
def State.set (s : State) (f : Fld) (v : Nat) : State := s.wr f.off (f.put (s.rd f.off) v)

/-- Whether a field is not zero. -/
def State.on (s : State) (f : Fld) : Bool := s.get f != 0

/-- A field read as two's complement. -/
def State.getI (s : State) (f : Fld) : Int := sext f.width (s.get f)

/-- Bit i of a field. -/
def State.onBit (s : State) (f : Fld) (i : Nat) : Bool := bit (s.get f) i

/-- Bit i of a field set. -/
def State.setB (s : State) (f : Fld) (i : Nat) : State := s.set f (setBit (s.get f) i)

/-- Bit i of a field cleared. -/
def State.clrB (s : State) (f : Fld) (i : Nat) : State := s.set f (clearBit (s.get f) i)

/-- Bit i of a field set or cleared. -/
def State.putB (s : State) (f : Fld) (i : Nat) (b : Bool) : State := if b then s.setB f i else s.clrB f i

/-- A counter moved up, holding at its field's largest value. -/
def State.bump (s : State) (f : Fld) (n : Nat := 1) : State := s.set f (min (s.get f + n) (2 ^ f.width - 1))

/-- A counter moved up modulo its width. -/
def State.count (s : State) (f : Fld) (n : Nat := 1) : State := s.set f (s.get f + n)

/-- A 64-bit pair, by the offset of its low word. -/
def State.rd64 (s : State) (off : Nat) : Nat := s.rd off + 2 ^ 32 * s.rd (off + 4)

/-- A 64-bit pair given a new value. -/
def State.wr64 (s : State) (off v : Nat) : State := (s.wr off (v % 2 ^ 32)).wr (off + 4) (v / 2 ^ 32 % 2 ^ 32)

/-- A 64-bit pair as a stream time. -/
def State.rdT (s : State) (off : Nat) : Tick := BitVec.ofNat 64 (s.rd64 off)

/-- A stream time written to a 64-bit pair. -/
def State.wrT (s : State) (off : Nat) (t : Tick) : State := s.wr64 off t.toNat

/-! ### The configuration in effect at a stream time (R40) -/

/-- The register map in effect for samples stamped `t`: the oldest replaced configuration whose landing is later than
`t`, else the present one (R40). -/
def regsAt (cur : List (Nat × Word)) (t : Tick) : List PastCfg → List (Nat × Word)
  | [] => cur
  | p :: ps => if tlt t p.till then regsAt p.regs t ps else cur

/-- The word of a register in effect for samples stamped `t` (R40). -/
def State.rdAt (s : State) (t : Tick) (off : Nat) : Nat :=
  (Assoc.get (RegMap.resetWord off) (regsAt s.regs t s.past) off).toNat

/-- A field in effect for samples stamped `t` (R40). -/
def State.getAt (s : State) (t : Tick) (f : Fld) : Nat := f.get (s.rdAt t f.off)

/-- The same, as two's complement. -/
def State.getIAt (s : State) (t : Tick) (f : Fld) : Int := sext f.width (s.getAt t f)

/-- The same, as a truth value. -/
def State.onAt (s : State) (t : Tick) (f : Fld) : Bool := s.getAt t f != 0

/-- A 64-bit pair in effect for samples stamped `t`. -/
def State.rd64At (s : State) (t : Tick) (off : Nat) : Nat := s.rdAt t off + 2 ^ 32 * s.rdAt t (off + 4)

/-! ### Events, counters, free values -/

/-- An event is raised (R22, R457, R474): it takes the next ESEQ and waits for the event ring, or is counted as lost
while HIF.CTRL.EN is 0. -/
def State.raise (s : State) (code : Nat) (data : List EvItem := []) : State :=
  if s.on Fd.HIF_CTRL_EN then { s with evq := s.evq ++ [⟨code, s.eseq, data⟩], eseq := s.eseq + 1 }
  else { s.bump Fd.HIF_EVT_LOST with eseq := s.eseq + 1, hif := { s.hif with lost := s.hif.lost + 1 } }

/-- An event is raised if a condition holds. -/
def State.raiseIf (s : State) (c : Bool) (code : Nat) (data : List EvItem := []) : State :=
  if c then s.raise code data else s

/-- One clamp is counted (R20). -/
def State.clamped (s : State) (n : Nat := 1) : State := s.bump Fd.SYS_CLAMP_COUNT n

/-- The next number of the model's own counter of free values; the counter moves on. -/
def State.fresh (s : State) : State := { s with free := s.free + 1 }

/-- The window of stream time of R613: the landing interval that holds the stream time released, or one window while
stream time does not run. -/
def State.landWindow (s : State) : Nat :=
  if s.sys.counting then 1 + s.sys.next.toNat / 2 ^ s.get Fd.SYS_LANDING_CFG_K else 0

/-- An event limited to one in a window for its subject (R613). -/
def State.raiseOnce (s : State) (subject window code : Nat) (data : List EvItem := []) : State :=
  if s.sys.windows.any (fun w => w.1 == code && w.2.1 == subject && w.2.2 == window) then s
  else
    let kept := s.sys.windows.filter (fun w => !(w.1 == code && w.2.1 == subject))
    ({ s with sys := { s.sys with windows := (code, subject, window) :: kept } }).raise code data

/-- An event limited to one in a landing interval (R613). -/
def State.raisePerLanding (s : State) (subject code : Nat) (data : List EvItem := []) : State :=
  s.raiseOnce subject s.landWindow code data

/-- An event limited to one in a second (R613). -/
def State.raisePerSecond (s : State) (subject code : Nat) (data : List EvItem := []) : State :=
  s.raiseOnce subject s.sys.seconds code data

/-- Whether stream time runs (SYS.ST_STATUS.RUN). -/
def State.run (s : State) : Bool := s.on Fd.SYS_ST_STATUS_RUN

/-- Whether ingest is enabled. -/
def State.ingEn (s : State) : Bool := s.on Fd.ING_CTRL_EN

/-- The landing interval in effect, 2^K ticks (R38). -/
def State.interval (s : State) : Nat := 2 ^ s.get Fd.SYS_LANDING_CFG_K

/-- The stamp of the newest sample released at the ingest point. -/
def State.tRel (s : State) : Tick := s.sys.next - 1

/-- A state changed only if a condition holds; else unchanged. -/
def State.when (s : State) (c : Bool) (f : State → State) : State := if c then f s else s

/-- A state changed by an item if there is one. -/
def State.withSome {α : Type} (s : State) (o : Option α) (f : α → State → State) : State :=
  match o with
  | some a => f a s
  | none => s

/-- A state changed by each item of a list in turn. -/
def State.each {α : Type} (s : State) (l : List α) (f : α → State → State) : State := l.foldl (fun s a => f a s) s

/-! ### Tables of a unit's instances -/

/-- The entry of an instance, or the one given for instances that hold none. -/
def look {α : Type} (d : α) (m : List (Nat × α)) (k : Nat) : α := Assoc.get d m k

/-- The table with the entry of an instance replaced. -/
def keep {α : Type} (m : List (Nat × α)) (k : Nat) (v : α) : List (Nat × α) := Assoc.insert k v (Assoc.erase k m)

/-- The table without an entry for an instance. -/
def drop {α : Type} (m : List (Nat × α)) (k : Nat) : List (Nat × α) := Assoc.erase k m

end Sys2Proof.Machine
end

