-- ==== Sys2Proof/Machine/Memory.lean ====
section
/-! DEFINITION. Device memory: bytes by 48-bit device address (R23), little-endian (R5). An unlisted byte reads 0: the
start-up initialises memory to zeros (R557), and host memory the model starts as zeros too. Which addresses decode, and
which region rules a requester meets, stand here once. -/

namespace Sys2Proof.Machine

/-- The canonical form of memory: addresses strictly rising and no listed byte zero. -/
def Memory.wf (m : List Host.Cell) : Bool := Assoc.wf (fun _ => 0#8) m

/-- One byte. -/
def Memory.byte (m : List Host.Cell) (a : Nat) : Byte := Assoc.get 0#8 m a

/-- One byte stored. -/
def Memory.put (m : List Host.Cell) (a : Nat) (v : Byte) : List Host.Cell := Assoc.put 0#8 m a v

/-- n bytes from an address. -/
def Memory.load (m : List Host.Cell) (a : Nat) : Nat → List Byte
  | 0 => []
  | n + 1 => Memory.byte m a :: Memory.load m (a + 1) n

/-- Bytes stored from an address on. -/
def Memory.store (m : List Host.Cell) (a : Nat) : List Byte → List Host.Cell
  | [] => m
  | b :: bs => Memory.store (Memory.put m a b) (a + 1) bs

/-- The n bytes of a number, little-endian (R5). -/
def le : Nat → Nat → List Byte
  | 0, _ => []
  | n + 1, v => BitVec.ofNat 8 v :: le n (v / 256)

/-- The number that bytes spell, little-endian (R5). -/
def ofLe : List Byte → Nat
  | [] => 0
  | b :: bs => b.toNat + 256 * ofLe bs

/-- The signed number of bytes. -/
def ofLeI (bs : List Byte) : Int := sext (8 * bs.length) (ofLe bs)

/-- n zero bytes. -/
def zeros (n : Nat) : List Byte := List.replicate n 0#8

/-- The regions of R23. -/
inductive Region where
  | hbm | sram | regs | host | undecoded
deriving DecidableEq, Repr

/-- The region of a 48-bit device address (R23). -/
def regionOf (a : Nat) : Region :=
  if a < 0x001800000000 then .hbm
  else if 0x010000000000 ≤ a ∧ a < 0x010009000000 then .sram
  else if 0x020000000000 ≤ a ∧ a < 0x020004000000 then .regs
  else if 2 ^ 47 ≤ a ∧ a < 2 ^ 48 then .host
  else .undecoded

/-- The device address of a host address (R23). -/
def hostAddr (a : Nat) : Nat := 2 ^ 47 + a % 2 ^ 47

/-- n bytes of device memory, as the unit that owns them reads them. -/
def State.load (s : State) (a n : Nat) : List Byte := Memory.load s.mem a n

/-- A little-endian number in device memory. -/
def State.loadN (s : State) (a n : Nat) : Nat := ofLe (s.load a n)

/-- Poison ends where a codeword is overwritten in full (R499). -/
def clearPoison (poison : List Nat) (a n : Nat) : List Nat := poison.filter (fun w => !(decide (a ≤ w) && decide (w + 8 ≤ a + n)))

/-- Whether a range of memory touches a codeword that holds poison (R499). -/
def State.poisoned (s : State) (a n : Nat) : Bool := s.hbm.poison.any (fun w => decide (w < a + n) && decide (a < w + 8))

/-- Bytes written to device memory by the unit that owns them. -/
def State.store (s : State) (a : Nat) (bs : List Byte) : State :=
  { s with mem := Memory.store s.mem a bs, hbm := { s.hbm with poison := clearPoison s.hbm.poison a bs.length } }

end Sys2Proof.Machine
end

