-- ==== Sys2Proof/Machine/Operands.lean ====
section
/-! DEFINITION. The number formats the units share: saturation, power levels, complex products and CRC-32C (R7 to R11). -/

namespace Sys2Proof.Machine

/-- Saturation to a signed w-bit value. -/
def satI (w : Nat) (x : Int) : Int := clampI (-((2 ^ (w - 1) : Nat) : Int)) (((2 ^ (w - 1) : Nat) : Int) - 1) x

/-- Saturation to 16 bits, with whether it changed the value. -/
def sat16 (x : Int) : Int × Bool := let y := satI 16 x; (y, y != x)

/-- One bit step of the reflected CRC-32C (R11). -/
def crcStep (c : Nat) : Nat := if c % 2 = 1 then Nat.xor (c / 2) 0x82F63B78 else c / 2

/-- One byte of CRC-32C. -/
def crcByte (c : Nat) (b : Byte) : Nat :=
  let x := Nat.xor c b.toNat
  crcStep (crcStep (crcStep (crcStep (crcStep (crcStep (crcStep (crcStep x)))))))

/-- CRC-32C (R11): Castagnoli, reflected, initial value and final XOR 0xFFFF_FFFF. -/
def crc32c (bs : List Byte) : Nat := Nat.xor (bs.foldl crcByte 0xFFFFFFFF) 0xFFFFFFFF

/-- A block of bytes followed by its CRC-32C. -/
def withCrc (bs : List Byte) : List Byte := bs ++ le 4 (crc32c bs)

/-- Whether the last four bytes are the CRC-32C of those before them. -/
def crcGood (bs : List Byte) : Bool :=
  4 ≤ bs.length && ofLe (bs.drop (bs.length - 4)) == crc32c (bs.take (bs.length - 4))

/-- The n bytes at an offset of a byte list, as a number. -/
def fieldAt (bs : List Byte) (off n : Nat) : Nat := ofLe ((bs.drop off).take n)

/-- The bytes of ASCII codes in a number's little-endian spelling are `le`; a byte list with bytes put at an offset. -/
def putAt (bs : List Byte) (off : Nat) (v : List Byte) : List Byte := bs.take off ++ v ++ bs.drop (off + v.length)

/-- The largest of a list of numbers. -/
def maxL (l : List Nat) : Nat := l.foldl max 0

/-- The sum of a list. -/
def sumL (l : List Nat) : Nat := l.foldl (· + ·) 0

/-- The sum of a list of integers. -/
def sumI (l : List Int) : Int := l.foldl (· + ·) 0

/-- The least of a list of integers, if there is one. -/
def minI? : List Int → Option Int
  | [] => none
  | x :: xs => some (xs.foldl min x)

/-- The least of a list of numbers, if there is one. -/
def minN? : List Nat → Option Nat
  | [] => none
  | x :: xs => some (xs.foldl min x)

end Sys2Proof.Machine
end

