-- ==== Sys2Proof/Machine/Flags.lean ====
section
/-! DEFINITION. Determinism flags (R49 to R54): spans of stream time that carry a DFLAGS bit, the flags of an output from
the span it rests on, and the sticky union with its first-raise event. -/

namespace Sys2Proof.Machine

/-- The DFLAGS bits of R50. -/
def Df.mem : Nat := 0x01
def Df.fab : Nat := 0x02
def Df.ing : Nat := 0x04
def Df.hld : Nat := 0x08
def Df.stu : Nat := 0x10
def Df.gap : Nat := 0x20
def Df.sby : Nat := 0x40

/-- Whether a flagged span touches the contributing span from `a` to `b`, both ends included (R51). -/
def FlagSpan.touches (f : FlagSpan) (a b : Tick) : Bool :=
  tle f.lo b && (match f.hi with
    | none => true
    | some h => tlt a h)

/-- The flags of the spans that touch [a, b] on some channel of a mask (R50, R51). -/
def spanFlags (s : State) (chans : Nat) (a b : Tick) : Nat :=
  s.sys.spans.foldl (fun acc f =>
    if Nat.land f.chans chans != 0 && f.touches a b then Nat.lor acc f.bits else acc) 0

/-- A flagged span is noted. -/
def addSpan (bits chans : Nat) (lo : Tick) (hi : Option Tick) (s : State) : State :=
  { s with sys := { s.sys with spans := ⟨bits, chans, lo, hi⟩ :: s.sys.spans } }

/-- The open spans of some bits on exactly these channels end at a stream time. -/
def closeSpans (bits chans : Nat) (hi : Tick) (s : State) : State :=
  { s with sys := { s.sys with spans := s.sys.spans.map (fun f =>
      if f.bits = bits ∧ f.chans = chans ∧ f.hi = none then { f with hi := some hi } else f) } }

/-- Every channel, as a mask. -/
def allChans : Nat := 15

/-- An output with flags is delivered: DFLAG_STICKY takes their union, and for each of bits 5 to 0 the first raising
after a clear raises event 0x0018 with the stream time of the output (R54). -/
def stick (fl : Nat) (t : Tick) (s : State) : State :=
  if fl = 0 then s
  else (List.range 7).foldl (fun s i =>
    if bit fl i && !s.onBit Fd.SYS_DFLAG_STICKY_BITS i then
      (s.setB Fd.SYS_DFLAG_STICKY_BITS i).raiseIf (decide (i < 6)) 0x0018 [.w4 i, .t t]
    else s) s

/-- Samples of a channel already released or corrected from a stream time on take further flags: the keys of the
channel's released and corrected streams are c and 4 + c. -/
def flagSamples (c : Nat) (lo : Tick) (hi : Option Tick) (bits : Nat) (s : State) : State :=
  let mark (x : Samp) : Samp :=
    if tle lo x.t && (hi.all (fun h => tlt x.t h)) then { x with fl := Nat.lor x.fl bits } else x
  { s with dsp := { s.dsp with streams := s.dsp.streams.map (fun e =>
      if e.1 = c ∨ e.1 = 4 + c then (e.1, e.2.map mark) else e) } }

/-- Samples of a channel before a stream time are taken as zero and carry MEM (R583). -/
def zeroSamples (c : Nat) (before : Tick) (s : State) : State :=
  let mark (x : Samp) : Samp := if tlt x.t before then { x with i := 0, q := 0, fl := Nat.lor x.fl Df.mem } else x
  { s with dsp := { s.dsp with streams := s.dsp.streams.map (fun e =>
      if e.1 = c ∨ e.1 = 4 + c then (e.1, e.2.map mark) else e) } }

/-- A channel's outputs carry flags from a stream time on: a span without an end, and the samples already held. -/
def flagFrom (c : Nat) (lo : Tick) (bits : Nat) (s : State) : State :=
  addSpan bits (2 ^ c) lo none (flagSamples c lo none bits s)

/-- Such a span ends. -/
def endFlag (c : Nat) (bits : Nat) (hi : Tick) (s : State) : State := closeSpans bits (2 ^ c) hi s

end Sys2Proof.Machine
end

