-- ==== Sys2Proof/Machine/StreamTime.lean ====
section
/-! DEFINITION. The epoch, the stop, and the pending store (R28 to R44): arming, the fabric epoch, decision points and
what waits for a landing. What a landing does stands in `Machine/Landing.lean`. -/

namespace Sys2Proof.Machine

/-! ### Landings and the pending store -/

/-- The first landing whose decision point has not been performed and lies at or after the next sample (R38, R39). -/
def nextLanding (s : State) : Tick :=
  let cand := tceil s.interval (tadd s.sys.next 1024)
  match s.sys.decided with
  | some l => if cand = l then tadd l s.interval else cand
  | none => cand

/-- NEXT_LAND and LAND_CTRL.COUNT follow the state (R42). -/
def refreshLand (s : State) : State :=
  let s1 := s.set Fd.SYS_LAND_CTRL_COUNT s.sys.pend.length
  if s.sys.counting then s1.wrT 0x120 (nextLanding s1) else s1

/-- Whether an entry is the one that a write to this field would replace (R42). -/
def PendEntry.same (e : PendEntry) (kind : PendKind) (off lo : Nat) : Bool :=
  e.kind == kind && e.off == off && e.lo == lo && !e.taken

/-- A change arrives for the pending store (R39, R42): it replaces the value pending for the same landing, or takes a
new entry, or is discarded while the store is full. -/
def pendChange (kind : PendKind) (off lo width value : Nat) (s : State) : State :=
  let e : PendEntry := ⟨s.sys.arrivals, kind, off, lo, width, value, false⟩
  if s.sys.pend.any (fun p => p.same kind off lo) then
    let rest := s.sys.pend.filter (fun p => !p.same kind off lo)
    { s with sys := { s.sys with pend := rest ++ [e], arrivals := s.sys.arrivals + 1 } }
  else if 4096 ≤ s.sys.pend.length then (s.set Fd.SYS_LAND_CTRL_OVF 1).raise 0x0016 [.w4 off]
  else refreshLand { s with sys := { s.sys with pend := s.sys.pend ++ [e], arrivals := s.sys.arrivals + 1 } }

/-- Whether an entry may be taken for landing L: a new K is taken only where the old and the new grid both hold L
(R44). -/
def PendEntry.takes (s : State) (l : Tick) (e : PendEntry) : Bool :=
  if e.off = Fd.SYS_LANDING_CFG_K.off then l.toNat % 2 ^ e.value == 0 && l.toNat % s.interval == 0 else true

/-- The pending changes that a decision point takes (R39, R43). -/
def takePending (l : Tick) (s : State) : State :=
  let hold := s.on Fd.SYS_LAND_CTRL_HOLD
  let pend := if hold then s.sys.pend
    else s.sys.pend.map (fun e => if e.takes s l then { e with taken := true } else e)
  let sys := { s.sys with
    pend := pend
    decided := some l
    stopTaken := s.sys.stopReq
    stopReq := false }
  refreshLand { s with sys := sys }

/-- The stream time of the next decision point (R38). -/
def nextDecision (s : State) : Tick := tsub (nextLanding s) 1024

/-- HOLD_WRITE (R43): SYS.LAND_CTRL.HOLD takes a value at once. -/
def execHoldWrite (hold : Bool) (s : State) : Out := .next (s.set Fd.SYS_LAND_CTRL_HOLD (b2n hold))

/-! ### Epoch and stop -/

/-- An epoch is armed (R29, R30): refused while stream time runs and while a committed epoch is pending. `src` is what
EPOCH_SRC will read. -/
def epochArm (src : Nat) (s : State) : State :=
  if s.run || s.sys.committed.isSome then s.raise 0x0011
  else { s with sys := { s.sys with armed := true, armSrc := src, armWait := 0, armValue := none } }

/-- EPOCH_ARM (R29, R30, R536): a write of 1 to EPOCH_CTRL.ARM. -/
def execEpochArm (s : State) : Out := .next (epochArm 1 s)

/-- Stream time is asked to stop at the next landing (R31). -/
def epochStop (s : State) : State :=
  if s.sys.counting then { s with sys := { s.sys with stopReq := true } } else s

/-- EPOCH_STOP (R31): a write of 1 to EPOCH_CTRL.STOP. -/
def execEpochStop (s : State) : Out := .next (epochStop s)

/-- Whether the module is the fabric root (R33, R509). -/
def State.isRoot (s : State) : Bool := s.on Fd.BYO_STATUS_ROOT

/-- A write of 1 to EPOCH_CTRL.BROADCAST (R33): on the root the own epoch is armed for the second capture from now, and
the epoch message is due half a SYSREF period after the first. -/
def epochBroadcast (s : State) : State :=
  if !s.isRoot then s
  else if s.run || s.sys.committed.isSome then s.raise 0x0011
  else { s with sys := { s.sys with armed := true, armSrc := 2, armWait := 1, armValue := none, msgDue := true } }

/-- EPOCH_BROADCAST (R33). -/
def execEpochBroadcast (s : State) : Out := .next (epochBroadcast s)

/-- A write of EPOCH_CTRL: STOP acts before ARM, and an ARM written with a STOP waits until RUN has cleared (R31). -/
def epochCtrlWrite (w : Nat) (s : State) : State :=
  let stop := bit w 1
  let s1 := if stop then epochStop s else s
  let s2 := if bit w 0 then
      if stop && s1.run then { s1 with sys := { s1.sys with armAfterStop := true } } else epochArm 1 s1
    else s1
  if bit w 2 then epochBroadcast s2 else s2

/-- The SYSREF period in ticks: SR_CFG.PERIOD extended multiblocks (R34, R37). -/
def fabricImplied (e : Tick) (n period : Nat) : Tick := tadd e (n * period)

end Sys2Proof.Machine
end

