-- ==== Sys2Proof/Machine/Ingest.lean ====
section
/-! DEFINITION. Ingest (R86 to R113): link modes, SYSREF capture and scan, lane states, the release delay, channel states
and multiblock verdicts. What the lanes and the capture clock see (arrivals, verdicts, scan patterns) comes with the
commands. Releasing a beat stands in `Machine/Beat.lean`. -/

namespace Sys2Proof.Machine

/-! ### Link modes (R87, R89) -/

/-- One row of the table of R87: converters, lanes, container bits, multiblocks in an EMB, the EMB in ticks, the sample
rate range in kHz, hold H and capacity C in ticks. -/
structure LinkMode where
  m : Nat
  lanes : Nat
  nprime : Nat
  e : Nat
  emb : Nat
  fsLo : Nat
  fsHi : Nat
  hold : Nat
  cap : Nat

/-- IM0 to IM7 (R87). -/
def linkMode (i : Nat) : LinkMode :=
  match i with
  | 0 => ⟨1, 16, 16, 1, 2048, 7760000, 25600000, 4128, 8192⟩
  | 1 => ⟨1, 16, 12, 3, 8192, 10350000, 25600000, 5504, 10912⟩
  | 2 => ⟨1, 8, 16, 1, 1024, 3880000, 15750000, 2080, 4096⟩
  | 3 => ⟨1, 8, 12, 3, 4096, 5180000, 21000000, 2768, 5456⟩
  | 4 => ⟨2, 16, 16, 1, 1024, 3880000, 12800000, 2080, 4096⟩
  | 5 => ⟨2, 16, 12, 3, 4096, 5180000, 12800000, 2768, 5456⟩
  | 6 => ⟨2, 8, 16, 1, 512, 1940000, 7870000, 1056, 2048⟩
  | _ => ⟨1, 4, 16, 1, 512, 1940000, 7870000, 1056, 2048⟩

/-- The link mode in effect. -/
def State.im (s : State) : LinkMode := linkMode (s.get Fd.ING_MODE)

/-- Whether the input is complex (R87). -/
def State.isComplex (s : State) : Bool := s.im.m == 2

/-- Whether a channel is enabled in CH_EN. -/
def State.chEn (s : State) (c : Nat) : Bool := s.onBit Fd.ING_CTRL_CH_EN c

/-- Whether a lane is used: of an enabled channel and below L (R89). -/
def laneUsed (s : State) (lane : Nat) : Bool := s.chEn (lane / 16) && decide (lane % 16 < s.im.lanes)

/-- The used lanes of a channel. -/
def usedLanes (s : State) (c : Nat) : List Nat := (List.range s.im.lanes).map (fun l => 16 * c + l)

/-- The enabled channels. -/
def enabledChans (s : State) : List Nat := (List.range 4).filter (fun c => s.chEn c)

/-- The state field of a lane (ING.LSTATEk). -/
def laneFld (lane : Nat) : Fld := ⟨0x30030 + 4 * (lane / 8), 4 * (lane % 8), 4⟩

/-- The state field of a channel (ING.CH_STATUS.STATE). -/
def chanFld (c : Nat) : Fld := ⟨0x3001C, 4 * c, 4⟩

/-- A lane's state by R96: 0 OFF, 1 CDR, 2 SHLOCK, 3 EMBLOCK, 4 ALIGNED, 5 FAULT. -/
def State.lane (s : State) (l : Nat) : Nat := s.get (laneFld l)

/-- A channel's state by R101: 0 OFF, 1 ACQUIRE, 2 UP, 3 DOWN, 4 ALIGN_FAIL. -/
def State.chan (s : State) (c : Nat) : Nat := s.get (chanFld c)

/-- Whether every used lane of a channel is in one of some states. -/
def lanesIn (s : State) (c : Nat) (sts : List Nat) : Bool := (usedLanes s c).all (fun l => sts.contains (s.lane l))

/-- ARRc reports the earliest and latest arrival over the used lanes of its channel (R97). -/
def refreshArr (c : Nat) (s : State) : State :=
  let as := (usedLanes s c).filterMap (fun l => (s.ing.arr.find? (fun e => e.1 == l)).map Prod.snd)
  match minN? as with
  | none => s
  | some lo => (s.set (Fd.ING_ARR_EARLY c) lo).set (Fd.ING_ARR_LATE c) (maxL as)

/-- The release delay T_REL in ticks (R98). -/
def State.tRelease (s : State) : Nat := 64 + 16 * s.get Fd.ING_RBD

/-- RBD takes a value and T_REL reads it (R98). -/
def setRbd (v : Nat) (s : State) : State :=
  let s1 := s.set Fd.ING_RBD v
  s1.set Fd.ING_RBD_T_REL (64 + 16 * s1.get Fd.ING_RBD)

/-- Whether an arrival lets a lane join and stay ALIGNED (R98). -/
def arrivalFits (s : State) (a : Nat) : Bool :=
  decide (a + s.im.hold ≤ s.tRelease) && decide (s.tRelease + 32 ≤ a + s.im.cap)

/-- The position within its EMB of the next sample to be released (R98, R100). -/
def embPos (s : State) : Nat :=
  if s.sys.counting then (s.sys.next - s.sys.base).toNat % s.im.emb
  else
    let back := (16 * s.ing.lemc + s.tRelease) % s.im.emb
    (16 * s.ing.iclk + (s.im.emb - back)) % s.im.emb

/-- The stream time at which samples stand that are released now, 0 while stream time is not running. -/
def timeNow (s : State) : Tick := if s.sys.counting then s.sys.next else 0

/-- The stream time at which a register write or a command arrives: what SYS.ST_NOW reads (R28, R39, R462). -/
def arrivalNow (s : State) : Tick := s.rdT 0x100

/-! ### Enabling and disabling (R91, R96, R101, R105) -/

/-- EN has changed from 0 to 1. -/
def ingEnable (s : State) : State :=
  let s1 := s.set Fd.ING_CTRL_EN 1
  let s2 := s1.each (List.range 64) (fun l s => s.set (laneFld l) (if laneUsed s l then 1 else 0))
  let s3 := s2.each (List.range 4) (fun c s => s.set (chanFld c) (if s.chEn c then 1 else 0))
  let s4 := (s3.set Fd.ING_SR_STATUS_COUNT 0).set Fd.ING_SR_STATUS_INVERTED 0
  let s5 := if s.run then s4 else s4.set Fd.ING_SR_STATUS_LEMC_SET 0
  { s5 with ing := { s5.ing with
    polDone := false, autoDue := s5.on Fd.ING_CTRL_AUTO_RBD, upDue := 0, arr := [], zeroFrom := []
    mbCount := [], mbFlagged := [], freshEn := true } }

/-- ING_ENABLE (R91, R96): ING.CTRL.EN changes from 0 to 1. -/
def execIngEnable (s : State) : Out := if s.ingEn then .next s else .next (ingEnable s)

/-- SYSREF_POLARITY_DECISION (R91): of 4,096 samples of the SYSREF level, `high` were high. -/
def execSysrefPolarityDecision (high : Nat) (s : State) : Out :=
  if !s.ingEn || s.ing.polDone then .next s
  else
    let inv := decide (2048 < high)
    let s1 := { s with ing := { s.ing with polDone := true } }.set Fd.ING_SR_STATUS_INVERTED (b2n inv)
    .next (s1.raiseIf inv 0x0207)

/-- EN is cleared (R37, R101, R105): every lane goes OFF; while stream time runs the enabled channels acquire again. -/
def ingDisable (s : State) : State :=
  let s1 := (s.set Fd.ING_CTRL_EN 0).set Fd.SYS_ST_STATUS_SYSREF_OK 0
  let s2 := s1.each (List.range 64) (fun l s => s.set (laneFld l) 0)
  let s3 := s2.each (List.range 4) (fun c s => s.set (chanFld c) (if s.run && s.chEn c then 1 else 0))
  { s3.set Fd.ING_SR_PHASE_SCANNING 0 with ing := { s3.ing with
    polDone := false, autoDue := false, upDue := 0, arr := [], zeroFrom := [], mbCount := [], mbFlagged := [] } }

/-- ING_DISABLE (R105): ING.CTRL.EN is cleared. -/
def execIngDisable (s : State) : Out := if s.ingEn then .next (ingDisable s) else .next s

/-! ### SYSREF (R29, R34, R37, R92) -/

/-- ICLK periods in an EMB. -/
def embClocks (s : State) : Nat := s.im.emb / 16

/-- An armed epoch is committed at a valid capture (R29, R33, R34, R536): E is given to the EMB that it marks. -/
def epochCommit (s : State) : State :=
  if !s.sys.armed || s.run || s.sys.committed.isSome || s.get Fd.CLK_SRC_ACT = 0 then s
  else if 0 < s.sys.armWait then { s with sys := { s.sys with armWait := s.sys.armWait - 1 } }
  else
    let e := s.sys.armValue.getD (s.rdT 0x108)
    { s with
      sys := { s.sys with committed := some e, commitSrc := s.sys.armSrc, armed := false, armValue := none }
      ing := { s.ing with lastMark := e } }

/-- The SYSREF period in ticks. -/
def sysrefTicks (s : State) : Nat := s.get Fd.ING_SR_CFG_PERIOD * s.im.emb

/-- The stream time of the first sample of the EMB that a capture marks (R29, R34, R37): T_REL after its LEMC edge has
passed; one SYSREF period after the last between the commitment of an epoch and its application; 0 otherwise. -/
def captureMark (s : State) : Tick :=
  if s.sys.counting then tadd s.sys.next (32 + s.tRelease)
  else if s.sys.committed.isSome then tadd s.ing.lastMark (sysrefTicks s)
  else 0

/-- SYSREF_CAPTURE (R37, R92): the first capture after EN sets the LEMC phase; a later one is checked against it. An LEMC
edge falls on the second ICLK edge after the capturing edge. -/
def sysrefCapture (s : State) : State :=
  if !s.ingEn || !s.ing.polDone || !s.on (Fd.PLL_STATUS_LOCK 1) then s
  else
    let edge := s.ing.iclk + 2
    let s1 := s.bump Fd.ING_SR_STATUS_COUNT
    let mark := captureMark s
    let cap := if s.sys.counting then mark else 0
    let seen (s : State) : State := { s with ing := { s.ing with lastCap := cap, lastMark := mark } }
    let set (s : State) : State := { s with ing := { s.ing with lemc := edge } }
    let ok (s : State) : State := s.set Fd.SYS_ST_STATUS_SYSREF_OK 1
    if !s.on Fd.ING_SR_STATUS_LEMC_SET then
      epochCommit (ok (set (seen (s1.set Fd.ING_SR_STATUS_LEMC_SET 1))))
    else if edge % embClocks s = s.ing.lemc % embClocks s then epochCommit (ok (seen s1))
    else if s.sys.counting then
      addSpan Df.ing allChans mark none
        (((seen s1).set Fd.SYS_ST_STATUS_ALIGN_ERR 1).raise 0x0015 [.t mark])
    else
      let s2 := (List.range 64).foldl (fun s l => if s.lane l = 4 then s.set (laneFld l) 3 else s) (ok (set (seen s1)))
      let s3 := (List.range 4).foldl (fun s c => if s.chan c = 0 then s else s.set (chanFld c) 1) s2
      epochCommit { s3 with ing := { s3.ing with upDue := 0 } }

/-- SYSREF_CAPTURE (R92). -/
def execSysrefCapture (s : State) : Out := .next (sysrefCapture s)

/-- PERIODIC_SYSREF_LOST (R37): four expected captures have passed with none seen. -/
def execPeriodicSysrefLost (s : State) : Out :=
  if s.ingEn && s.on Fd.ING_SR_CFG_PERIODIC then
    .next ((s.set Fd.SYS_ST_STATUS_SYSREF_OK 0).raise 0x0014 [.t s.ing.lastCap])
  else .next s

/-- A fabric epoch with E, `elapsed` SYSREF periods after the capture that was due (R34, R35, R37, R536): loaded at the
next capture while stream time does not run, else compared with it. -/
def fabricEpoch (epoch : Tick) (elapsed : Nat) (s : State) : State :=
  let implied := fabricImplied epoch elapsed (sysrefTicks s)
  if !s.on Fd.SYS_ST_STATUS_SYSREF_OK || s.get Fd.CLK_SRC_ACT = 0 then s.raise 0x0013 [.t implied]
  else if s.run then
    if implied = tadd s.ing.lastMark (sysrefTicks s) then s.raise 0x0012 [.t implied]
    else (s.set Fd.SYS_ST_STATUS_EPOCH_MISMATCH 1).raise 0x0013 [.t implied]
  else if s.sys.committed.isSome then s
  else { s with sys := { s.sys with armed := true, armSrc := 2, armWait := 0, armValue := some implied } }

/-- FABRIC_EPOCH_MESSAGE (R34, R35, R37, R536): an epoch message with E; `elapsed` SYSREF periods have passed since the
capture that was due (0 while it is still to come), so E + elapsed × P is what the next capture's EMB holds. `hops` set
the departure instant from which the due capture was counted. -/
def execFabricEpochMessage (epoch : Tick) (_hops elapsed : Nat) (s : State) : Out :=
  .next (fabricEpoch epoch elapsed s)

/-- SR_SCAN (R93): a scan starts, or is refused with reason 1. -/
def srScan (s : State) : State :=
  if s.ingEn && s.on Fd.ING_SR_CFG_PERIODIC && !s.run then s.set Fd.ING_SR_PHASE_SCANNING 1
  else s.raise 0x0206 [.w4 1]

/-- SR_SCAN (R93). -/
def execSrScan (s : State) : Out := .next (srScan s)

/-- SR_SCAN_END (R93): `change` is the first and last step of the one change of the captured period, none for any other
pattern. -/
def execSrScanEnd (change : Option (Fin 256 × Fin 256)) (s : State) : Out :=
  if !s.on Fd.ING_SR_PHASE_SCANNING then .next s
  else
    let s1 := s.set Fd.ING_SR_PHASE_SCANNING 0
    let fail := (s1.set Fd.ING_SR_PHASE_SCAN_OK 0).raise 0x0206 [.w4 2]
    match change with
    | none => .next fail
    | some (a, b) =>
      let spread := (b.val + 256 - a.val) % 256
      if spread < 16 then
        let edge := (a.val + spread / 2) % 256
        let phase := (edge + 128) % 256
        let s2 := ((s1.set Fd.ING_SR_PHASE_EDGE edge).set Fd.ING_SR_PHASE_PHASE phase).set Fd.ING_SR_PHASE_SCAN_OK 1
        .next ({ s2 with ing := { s2.ing with capPhase := phase } }.raise 0x0205 [.w4 edge, .w4 phase])
      else .next fail

/-- SR_PHASE_STEP (R94): the capture clock moves one step towards the written PHASE. -/
def execSrPhaseStep (s : State) : Out :=
  let p := s.get Fd.ING_SR_PHASE_PHASE
  let c := s.ing.capPhase
  let c' := if c < p then c + 1 else if p < c then c - 1 else c
  .next { s with ing := { s.ing with capPhase := c' } }

/-! ### Lanes and channels (R96 to R104) -/

/-- The POL_INV bit of a lane. -/
def polInv (lane : Nat) : Fld × Nat := if lane < 32 then (Fd.ING_POL_INV_LO, lane) else (Fd.ING_POL_INV_HI, lane - 32)

/-- LANE_SYNC_HEADER_LOCK (R96): a lane in CDR has its clock and 64 valid sync headers. -/
def execLaneSyncHeaderLock (lane : Fin 64) (s : State) : Out :=
  if s.lane lane.val = 1 then .next (s.set (laneFld lane.val) 2) else .next s

/-- An arrival is measured (R97). -/
def setArrival (lane a : Nat) (s : State) : State :=
  refreshArr (lane / 16) { s with ing := { s.ing with arr := keep s.ing.arr lane a } }

/-- LANE_PILOT_FOUND (R96, R97): a lane in SHLOCK finds the pilot pattern, true or inverted, and enters EMBLOCK with its
arrival measured. -/
def execLanePilotFound (lane : Fin 64) (inverted : Bool) (arrival : Nat) (s : State) : Out :=
  if s.lane lane.val = 2 then
    let p := polInv lane.val
    let s1 := setArrival lane.val arrival ((s.set (laneFld lane.val) 3).putB p.1 p.2 inverted)
    .next (s1.raiseIf inverted 0x020B [.w4 lane.val])
  else .next s

/-- A channel whose used lanes are all ALIGNED becomes UP at the next EMB (R104). -/
def upIfAligned (c : Nat) (s : State) : State :=
  if lanesIn s c [4] && s.chan c != 2 then { s with ing := { s.ing with upDue := setBit s.ing.upDue c } } else s

/-- LANE_JOIN (R98, R104): a lane in EMBLOCK whose arrival fits the bounds joins at an LEMC edge. -/
def execLaneJoin (lane : Fin 64) (arrival : Nat) (s : State) : Out :=
  let s1 := setArrival lane.val arrival s
  if s.lane lane.val = 3 && s.on Fd.ING_SR_STATUS_LEMC_SET && arrivalFits s arrival then
    let s2 := s1.set (laneFld lane.val) 4
    let ing := { s2.ing with mbCount := keep s2.ing.mbCount lane.val 0, mbFlagged := keep s2.ing.mbFlagged lane.val [] }
    .next (upIfAligned (lane.val / 16) { s2 with ing := ing })
  else if s.lane lane.val = 3 then .next s1
  else .next s

/-- The first tick, counted from the EMB start, of the earliest multiblock whose release has not begun (R102, R103). -/
def mbBoundary (im : LinkMode) (pos : Nat) : Nat :=
  if pos = 0 then 0
  else if pos ≤ im.emb / im.e then im.emb / im.e
  else if pos ≤ 2 * im.emb / im.e then 2 * im.emb / im.e
  else im.emb

/-- The first stream time that a channel releases as zero after a lane fault now, 0 while stream time does not run
(R103). -/
def firstZeroed (s : State) : Tick :=
  if s.sys.counting then tadd s.sys.next (mbBoundary s.im (embPos s) - embPos s) else 0

/-- A used lane of a channel left ALIGNED: the channel enters DOWN (R103, R106). -/
def chanDown (c : Nat) (s : State) : State :=
  if s.chan c = 3 then { s with ing := { s.ing with upDue := clearBit s.ing.upDue c } }
  else
    let z := firstZeroed s
    let s1 := ((s.set (chanFld c) 3).setB Fd.ING_CH_STATUS_WAS_DOWN c).bump (Fd.ING_ERR_FAULTS c)
    let zs := if s.chan c = 2 ∧ s.sys.counting then keep s1.ing.zeroFrom c z else s1.ing.zeroFrom
    { s1 with ing := { s1.ing with zeroFrom := zs, upDue := clearBit s1.ing.upDue c } }.raise 0x0202 [.w4 c, .t z]

/-- A lane in ALIGNED meets a cause of R103. -/
def laneFaultOne (lane cause : Nat) (s : State) : State :=
  (s.set (laneFld lane) 5).raise 0x0201 [.w4 lane, .w4 cause]

/-- The lanes that meet a cause in one ICLK period enter FAULT, and their channels enter DOWN (R103, R106). -/
def laneFaults (lanes : List (Nat × Nat)) (s : State) : State :=
  let hit := lanes.filter (fun l => s.lane l.1 = 4)
  let s1 := s.each hit (fun l s => laneFaultOne l.1 l.2 s)
  s1.each ((List.range 4).filter (fun c => hit.any (fun l => l.1 / 16 == c))) chanDown

/-- LANE_FAULT (R103, R106): lanes in ALIGNED meet a cause in the same ICLK period. -/
def execLaneFault (lanes : List (Fin 64 × Fin 6)) (s : State) : Out :=
  .next (laneFaults (lanes.map (fun l => (l.1.val, l.2.val))) s)

/-- LANE_FAULT_RECOVERY (R96): 1,024 ICLK periods after its fault a lane returns to CDR. -/
def execLaneFaultRecovery (lane : Fin 64) (s : State) : Out :=
  if s.lane lane.val = 5 then .next (s.set (laneFld lane.val) 1) else .next s

/-- LANE_LOCK_LOST (R96): a used lane in CDR, SHLOCK or EMBLOCK returns to CDR at once, without an event. -/
def execLaneLockLost (lane : Fin 64) (s : State) : Out :=
  if 1 ≤ s.lane lane.val ∧ s.lane lane.val ≤ 3 then .next (s.set (laneFld lane.val) 1) else .next s

/-- A channel enters ALIGN_FAIL (R99, R104). -/
def chanAlignFail (c : Nat) (s : State) : State :=
  (s.set (chanFld c) 4).raise 0x0204 [.w4 c, .w4 (s.get (Fd.ING_ARR_EARLY c)), .w4 (s.get (Fd.ING_ARR_LATE c))]

/-- RBD computed over the lanes of some channels, once (R99). -/
def computeRbd (chans : List Nat) (s : State) : State :=
  let as := chans.flatMap (fun c => (usedLanes s c).filterMap (fun l => (s.ing.arr.find? (fun e => e.1 == l)).map Prod.snd))
  let s1 := { s with ing := { s.ing with autoDue := false } }
  match minN? as with
  | none => s1
  | some early =>
    let lo := maxL as + s.im.hold
    let hi := early + s.im.cap - 32
    if hi < lo then s1.each (enabledChans s1) chanAlignFail
    else
      let r := (lo + 192 + 15) / 16
      setRbd (if hi < 64 + 16 * r then (hi - 64) / 16 else r) s1

/-- Whether every used lane of a channel has reached EMBLOCK (R99). -/
def chanLocked (s : State) (c : Nat) : Bool := lanesIn s c [3, 4]

/-- AUTO_RBD (R99): every used lane of every enabled channel has reached EMBLOCK. -/
def execAutoRbd (s : State) : Out :=
  if s.ingEn && s.ing.autoDue && (enabledChans s).all (chanLocked s) then .next (computeRbd (enabledChans s) s)
  else .next s

/-- AUTO_RBD_TIMEOUT (R99): 2^20 ICLK periods after the first channel was ready, RBD is computed over those that are. -/
def execAutoRbdTimeout (s : State) : Out :=
  let ready := (enabledChans s).filter (chanLocked s)
  if s.ingEn && s.ing.autoDue && !ready.isEmpty then .next (computeRbd ready s) else .next s

/-- The tick span of multiblock `index`, counted from the epoch, rounded outward to whole ticks (R102). -/
def mbSpan (im : LinkMode) (base : Tick) (index : Nat) : Tick × Tick :=
  (tadd base (index * im.emb / im.e), tadd base (((index + 1) * im.emb + im.e - 1) / im.e))

/-- A re-plan's equaliser change of a lane is withdrawn after a flagged multiblock (R575). -/
def eqWithdraw (lane : Nat) (s : State) : State :=
  { s with age := { s.age with replan := s.age.replan.map (fun r =>
      { r with eq := r.eq.map (fun e => if e.lane = lane then { e with goal := e.start, dropped := true } else e) }) } }

/-- MULTIBLOCK (R102, R103, R113, R613): the verdict on multiblock `index` of a lane, counted from the epoch. A flagged
one marks its tick span with ING and is counted; CRC_LIMIT of them within 256 make cause 5. -/
def multiblock (lane index : Nat) (flagged : Bool) (s : State) : State :=
  if s.lane lane != 4 then s
  else
    let c := lane / 16
    let n := look 0 s.ing.mbCount lane
    let s1 := { s with ing := { s.ing with mbCount := keep s.ing.mbCount lane (n + 1) } }
    if !flagged then s1
    else
      let base := if s.sys.counting then some s.sys.base else s.sys.committed
      let span := base.map (fun b => mbSpan s.im b index)
      let s2 := s1.bump (Fd.ING_ERR_CRC c)
      let s3 := s2.withSome span (fun sp s => addSpan Df.ing (2 ^ c) sp.1 (some sp.2) s)
      let first := (span.map Prod.fst).getD 0
      let s4 := s3.raiseOnce lane (n / 256) 0x020A [.w4 lane, .t first]
      let hist := n :: (look [] s4.ing.mbFlagged lane).filter (fun i => n < i + 256)
      let s5 := eqWithdraw lane { s4 with ing := { s4.ing with mbFlagged := keep s4.ing.mbFlagged lane hist } }
      if s5.get Fd.ING_CRC_LIMIT ≤ hist.length then laneFaults [(lane, 5)] s5 else s5

/-- MULTIBLOCK (R102). -/
def execMultiblock (lane : Fin 64) (index : Nat) (flagged : Bool) (s : State) : Out :=
  .next (multiblock lane.val index flagged s)

/-- CHANNEL_ALIGN_FAIL (R104): an arrival has stayed outside the bounds for 64 consecutive EMBs. -/
def execChannelAlignFail (ch : Fin 4) (s : State) : Out :=
  if s.chan ch.val != 0 && s.chan ch.val != 2 && lanesIn s ch.val [3, 4] &&
      (usedLanes s ch.val).any (fun l => s.lane l = 3) then .next (chanAlignFail ch.val s)
  else .next s

/-- ERR_CLEAR (R106): any write clears every ERRc. -/
def execErrClear (s : State) : Out := .next (s.each (List.range 4) (fun c s => s.wr (0x30060 + 4 * c) 0))

/-! ### Re-clamping of the configuration (R112) -/

/-- The nearest value of a list, the lower of two equally near (R17, R18); the value itself where the list is empty. -/
def nearest (v : Nat) (l : List Nat) : Nat :=
  match l with
  | [] => v
  | x :: xs => xs.foldl (fun best y =>
      let db := if v ≤ best then best - v else v - best
      let dy := if v ≤ y then y - v else v - y
      if dy < db then y else if dy = db then min best y else best) x

/-- A field clamped to a list of legal values, counting a clamp (R17 to R20). -/
def clampTo (f : Fld) (legal : List Nat) (s : State) : State :=
  if legal.contains (s.get f) || legal.isEmpty then s else (s.set f (nearest (s.get f) legal)).clamped

/-- A field clamped to a range, counting a clamp (R17, R20). -/
def clampRange (f : Fld) (lo hi : Nat) (s : State) : State :=
  if s.get f < lo then (s.set f lo).clamped else if hi < s.get f then (s.set f hi).clamped else s

/-- The DEVCLK_DIV encodings that put DEVCLK in 50 to 1,600 MHz (R90). -/
def devclkLegal (s : State) : List Nat :=
  (List.range 4).filter (fun d =>
    decide (50000 * (16 * 2 ^ d) ≤ s.get Fd.ING_FS_KHZ) && decide (s.get Fd.ING_FS_KHZ ≤ 1600000 * (16 * 2 ^ d)))

/-- NRES, FS_KHZ, DEVCLK_DIV and PERIOD are held to what the other fields allow (R112). -/
def ingReclamp (s : State) : State :=
  let s1 := clampRange Fd.ING_MODE_NRES 0 (if s.im.nprime = 12 then 0 else 2) s
  let s2 := clampRange Fd.ING_FS_KHZ s.im.fsLo s.im.fsHi s1
  let s3 := clampTo Fd.ING_MODE_DEVCLK_DIV (devclkLegal s2) s2
  let s4 := clampRange Fd.ING_SR_CFG_PERIOD ((16384 + s.im.emb - 1) / s.im.emb) 65535 s3
  s4.set Fd.ING_RW_SPAN (if s4.isComplex then 2 ^ 20 else 2 ^ 21)

end Sys2Proof.Machine
end

