-- ==== Sys2Proof/Machine/Streams.lean ====
section
/-! DEFINITION. The sample streams and Assayer's correction (R114 to R117, R143): histories by stamp, the coefficient set
in effect at a stream time, and the corrected sample as a function of the released ones. Stream keys: 0–3 released, 4–7
corrected, 8–11 downconverter outputs, 16–79 zoom outputs. -/

namespace Sys2Proof.Machine

/-! ### Histories -/

/-- The samples of a stream, newest first. -/
def State.stream (s : State) (key : Nat) : List Samp := look [] s.dsp.streams key

/-- The sample with a stamp, if the stream has delivered one. -/
def sampAt (l : List Samp) (t : Tick) : Option Samp := l.find? (fun x => x.t == t)

/-- A sample is delivered to a stream. -/
def pushSamp (key : Nat) (x : Samp) (s : State) : State :=
  { s with dsp := { s.dsp with streams := keep s.dsp.streams key (x :: s.stream key) } }

/-- The union of the flags of a stream's samples stamped from a to b (R51, R144). -/
def flagsIn (l : List Samp) (a b : Tick) : Nat :=
  l.foldl (fun acc x => if tle a x.t && tle x.t b then Nat.lor acc x.fl else acc) 0

/-- The union of the marks of a stream's samples stamped from a to b. -/
def marksIn (l : List Samp) (a b : Tick) : Nat :=
  l.foldl (fun acc x => if tle a x.t && tle x.t b then Nat.lor acc x.marks else acc) 0

/-- SETTLING and TAIL as mark bits (R153, R159), and OVF of a frame. -/
def mkSettling : Nat := 1
def mkTail : Nat := 2
def mkOvf : Nat := 4

/-! ### Coefficients (R114, R116, R117) -/

/-- The identity coefficients (R116). -/
def Coef.identity : Coef := ⟨0, 4194304, 0, 0⟩

/-- The identity set for Q sub-converters. -/
def CoefSet.identity (q : Nat) : CoefSet := ⟨List.replicate q Coef.identity, 8192⟩

/-- Sub-converters per channel, ASY.CFG.Q. -/
def State.asyQ (s : State) : Nat := s.get Fd.ASY_CFG_Q

/-- The stored set of a channel. -/
def storedSet (s : State) (c : Nat) : CoefSet := look (CoefSet.identity s.asyQ) s.asy.stored c

/-- The set that a channel corrects with from now on: the identity while its CORR_EN bit is 0 (R117). -/
def liveSet (s : State) (c : Nat) : CoefSet :=
  if s.onBit Fd.ASY_CTRL_CORR_EN c then storedSet s c else CoefSet.identity s.asyQ

/-- The set in effect for samples stamped t, among the sets since their landings, newest first. -/
def setAt (t : Tick) (dflt : CoefSet) : List CoefSpan → CoefSet
  | [] => dflt
  | p :: ps => if tle p.since t then p.set else setAt t dflt ps

/-- A channel's set for samples stamped t. -/
def coefAt (s : State) (c : Nat) (t : Tick) : CoefSet :=
  setAt t (CoefSet.identity s.asyQ) (look [] s.dsp.coefs c)

/-- A channel corrects with a set from a stream time on. -/
def useSet (c : Nat) (since : Tick) (set : CoefSet) (csid : Nat) (s : State) : State :=
  let s1 := { s with dsp := { s.dsp with coefs := keep s.dsp.coefs c (⟨since, set, csid⟩ :: look [] s.dsp.coefs c) } }
  s1.set (Fd.ASY_DLY c) set.dly

/-- The CSID in effect at a stream time (R135). -/
def csidAt (s : State) (c : Nat) (t : Tick) : Nat :=
  ((look [] s.dsp.coefs c).find? (fun p => tle p.since t) |>.map CoefSpan.csid).getD 0x40

/-! ### Correction (R115) -/

/-- One component of a released sample, zero where none was released. -/
def comp (rel : List Samp) (im : Bool) (t : Tick) : Int :=
  match sampAt rel t with
  | some x => if im then x.q else x.i
  | none => 0

/-- The coefficients of the sub-converter of a stream time (R114). -/
def coefOf (set : CoefSet) (epoch t : Tick) : Coef :=
  set.sub.getD ((t - epoch).toNat % max 1 set.sub.length) Coef.identity

/-- v[t] of R115 for one component. -/
def correctV (x : Tick → Int) (k : Coef) (t : Tick) : Int :=
  let e := x (t - 1) - 2 * x t + x (t + 1)
  let d := if k.tau = 0 then 0
    else Config.differentiator ((List.range 31).map (fun j => x (tsub (tadd t j) 15)))
  k.g * (x t - k.o) / 4194304 + k.tau * d / 65536 + k.b * e / 32768

/-- u[t] of R115: v[t] saturated to 16 bits. -/
def correctU (x : Tick → Int) (set : CoefSet) (epoch t : Tick) : Int := satI 16 (correctV x (coefOf set epoch t) t)

/-- The integer part and the phase of the delay s_c: y[t] stands between u[t − k − 1] and u[t − k] (R115). -/
def delayParts (dly : Nat) : Int × Nat :=
  let d : Int := (dly : Int) - 8192
  (d / 256, (d % 256).toNat)

/-- A stream time moved back by an integer. -/
def tshift (t : Tick) (k : Int) : Tick := t - BitVec.ofInt 64 k

/-- y[t] of R115 for one component: u moved by the integer part, and by the fractional filter where there is a
fraction. -/
def correctY (x : Tick → Int) (set : CoefSet) (epoch t : Tick) : Int :=
  let p := delayParts set.dly
  let at0 := tshift t p.1
  if p.2 = 0 then correctU x set epoch at0
  else satI 16 (Config.interpolator p.2 ((List.range 64).map (fun j => correctU x set epoch (tsub (tadd at0 j) 32))))

/-- How far before and after t − s_c the released samples reach that influence a corrected sample (R51). -/
def correctReach (set : CoefSet) : Nat × Nat :=
  let frac := (delayParts set.dly).2 != 0
  let r := if set.sub.any (fun k => k.tau != 0) then 15 else if set.sub.any (fun k => k.b != 0) then 1 else 0
  (r + (if frac then 32 else 0), r + (if frac then 31 else 0))

/-- The corrected sample stamped t of channel c (R115, R51). -/
def correctedSample (s : State) (c : Nat) (t : Tick) : Samp :=
  let rel := s.stream c
  let set := coefAt s c t
  let i := correctY (comp rel false) set s.sys.base t
  let q := if s.isComplex then correctY (comp rel true) set s.sys.base t else 0
  let at0 := tshift t (delayParts set.dly).1
  let r := correctReach set
  ⟨t, i, q, flagsIn rel (tsub at0 r.1) (tadd at0 r.2), 0⟩

/-- Saturations of u that belong to the corrected sample stamped t (R115). -/
def correctSats (s : State) (c : Nat) (t : Tick) : Nat :=
  let rel := s.stream c
  let set := coefAt s c t
  let at0 := tshift t (delayParts set.dly).1
  let k := coefOf set s.sys.base at0
  let one (im : Bool) : Nat :=
    let v := correctV (comp rel im) k at0
    b2n (satI 16 v != v)
  one false + (if s.isComplex then one true else 0)

/-- Corrected samples that the released ones allow are delivered: a sample stamped t needs released ones up to t + 79.
`upto` is the first stamp not delivered. -/
def deliverCorrected (c : Nat) (upto : Tick) : Nat → State → State
  | 0, s => s
  | n + 1, s =>
    let t := look s.sys.base s.dsp.corNext c
    if tlt t upto then
      let x := correctedSample s c t
      let s1 := (pushSamp (4 + c) x s).bump (Fd.ASY_SAT c) (correctSats s c t)
      deliverCorrected c upto n { s1 with dsp := { s1.dsp with corNext := keep s1.dsp.corNext c (t + 1) } }
    else s

end Sys2Proof.Machine
end

