-- ==== Sys2Proof/Machine/Trig.lean ====
section
/-! DEFINITION. Floors of real functions, exact as R612 asks: cosines and sines by fixed-point series with far more
fraction bits than any entry needs, and exact values at the quarter turns. -/

namespace Sys2Proof.Machine

/-- π with 100 fraction bits. -/
def piFix : Nat := 3982441812995697363688351113952

/-- The terms x^(k+2)/…: an alternating fixed-point series with 100 fraction bits, `x2` the square of the argument, `t`
the present term and `k` its order. -/
def altSeries (x2 : Nat) : Nat → Nat → Nat → Int
  | 0, _, _ => 0
  | n + 1, t, k => (t : Int) - altSeries x2 n (t * x2 / 2 ^ 100 / ((k + 1) * (k + 2))) (k + 2)

/-- cos of 2π·j/n for j up to n/8, with 100 fraction bits. -/
def cosSmall (n j : Nat) : Int :=
  let x := 2 * piFix * j / n
  altSeries (x * x / 2 ^ 100) 18 (2 ^ 100) 0

/-- sin of 2π·j/n for j up to n/8, with 100 fraction bits. -/
def sinSmall (n j : Nat) : Int :=
  let x := 2 * piFix * j / n
  altSeries (x * x / 2 ^ 100) 18 x 1

/-- cos of 2π·j/n for j up to n/4, with 100 fraction bits, exact at both ends; n is a multiple of 8. -/
def cosQuarter (n j : Nat) : Int :=
  if j = 0 then ((2 ^ 100 : Nat) : Int)
  else if j = n / 4 then 0
  else if j ≤ n / 8 then cosSmall n j else sinSmall n (n / 4 - j)

/-- cos of 2π·k/n with 100 fraction bits, exact at the quarter turns. -/
def cosFix (n k : Nat) : Int :=
  let k := k % n
  let k := if n / 2 < k then n - k else k
  if k ≤ n / 4 then cosQuarter n k else -cosQuarter n (n / 2 - k)

/-- floor(a·cos(2π·k/n)) (R612). -/
def cosFloor (a n k : Nat) : Int := (a : Int) * cosFix n k / ((2 ^ 100 : Nat) : Int)

/-- floor(a·sin(2π·k/n)) (R612). -/
def sinFloor (a n k : Nat) : Int := cosFloor a n (k + n - n / 4)

/-- Terms of I0 from the square of half its argument, with 100 fraction bits. -/
def besselSeries (q : Nat) : Nat → Nat → Nat → Nat
  | 0, _, _ => 0
  | n + 1, t, k => t + besselSeries q n (t * q / 2 ^ 100 / ((k + 1) * (k + 1))) (k + 1)

/-- I0(x), with 100 fraction bits, from the fraction num/den = (x/2)². -/
def bessel0 (num den : Nat) : Nat := besselSeries (num * 2 ^ 100 / den) 100 (2 ^ 100) 0

end Sys2Proof.Machine
end

