-- ==== Sys2Proof/Machine/Ddc.lean ====
section
/-! DEFINITION. Downconverters, the zoom bank and capture decimators (R143 to R169). A filter's output is a function of
its stamp, its input history and the configuration of its run; an output is delivered once the last input of its span
has been delivered. -/

namespace Sys2Proof.Machine

/-- A complex sample. -/
abbrev Cx := Int × Int

/-! ### Oscillator and mixer (R146, R147) -/

/-- COS[k] of R147. -/
def ncoCos (k : Nat) : Int := cosFloor 131071 1048576 k

/-- SIN[k] of R147. -/
def ncoSin (k : Nat) : Int := sinFloor 131071 1048576 k

/-- The phase of an oscillator at stream time t (R146). -/
def ncoPhase (ftw poff : Nat) (t : Tick) : Nat := (ftw * t.toNat + poff) % 2 ^ 48

/-- The mixer (R147): a Q1.15 input times e^(−jθ), narrowed to Q2.22. -/
def mix (ftw poff : Nat) (t : Tick) (x : Cx) : Cx :=
  let k := ncoPhase ftw poff t / 2 ^ 28
  let c := ncoCos k
  let s := ncoSin k
  ((x.1 * c + x.2 * s) / 1024, (x.2 * c - x.1 * s) / 1024)

/-- The narrowing of R151: f fraction bits and the gain exponent. -/
def narrow (f osh : Nat) (v : Int) : Int × Bool := sat16 (v * ((2 ^ osh : Nat) : Int) / ((2 ^ (f - 15) : Nat) : Int))

/-! ### Half-band stages and the compensating FIR (R148 to R150) -/

/-- h[k] of HBS for odd k = 1, 3, … 47 (R149: N = 95, β = 10). -/
def hbsOdd : List Int :=
  [166542, -54607, 31698, -21543, 15672, -11789, 9008, -6924, 5314, -4056, 3063, -2285, 1676, -1207, 848, -582, 385,
   -248, 151, -88, 47, -23, 9, -3]

/-- h[k] of HBR for odd k = 1, 3, … 9 (R149: N = 19, β = 8). -/
def hbrOdd : List Int := [160744, -39436, 12315, -2888, 316]

/-- The coefficients of the stage that d more stages follow: HBR, but HBS for the last (R148). -/
def stageOdd (d : Nat) : List Int := if d = 0 then hbsOdd else hbrOdd

/-- How many inputs to each side of an output the last d stages and the compensating FIR reach, in input periods
(R148 to R150). -/
def reach : Nat → Nat
  | 0 => 16
  | d + 1 => 2 * reach d + (2 * (stageOdd d).length - 1)

/-- The output of a half-band stage at input number i (R149): the exact sum of products, 19 fraction bits dropped. -/
def halfBand (odd : List Int) (x : Array Cx) (i : Nat) : Cx :=
  let c := x.getD i (0, 0)
  let sum := (List.range odd.length).foldl (fun (acc : Cx) j =>
    let h := odd.getD j 0
    let a := x.getD (i + (2 * j + 1)) (0, 0)
    let b := x.getD (i - (2 * j + 1)) (0, 0)
    (acc.1 + h * (a.1 + b.1), acc.2 + h * (a.2 + b.2))) (262144 * c.1, 262144 * c.2)
  (sum.1 / 524288, sum.2 / 524288)

/-- The last d stages (R148): from the inputs within their reach of an output, the inputs of the FIR for it. Each stage
keeps every second of its outputs, the middle one among them. -/
def cascade : Nat → Array Cx → Array Cx
  | 0, x => x
  | d + 1, x =>
    let odd := stageOdd d
    cascade d ((List.range (2 * reach d + 1)).map (fun i => halfBand odd x (2 * i + (2 * odd.length - 1)))).toArray

/-- The 33-tap compensating FIR over its 33 inputs (R150), exact. -/
def compFir (coef : List Int) (x : Array Cx) : Cx :=
  let c := x.getD 16 (0, 0)
  let h0 := coef.getD 16 0
  (List.range 16).foldl (fun (acc : Cx) j =>
    let h := coef.getD (15 - j) 0
    let a := x.getD (17 + j) (0, 0)
    let b := x.getD (15 - j) (0, 0)
    (acc.1 + h * (a.1 + b.1), acc.2 + h * (a.2 + b.2))) (h0 * c.1, h0 * c.2)

/-- The group delay of configuration n (R148). -/
def ddcDelay (n : Nat) : Nat := if n = 0 then 0 else 88 * 2 ^ (n - 1) - 9

/-- A 20-bit coefficient register as a signed number. -/
def coef20 (w : Nat) : Int := sext 20 w

/-! ### Downconverters -/

/-- The register offset of a field of DDCc. -/
def ddcAt (c x : Nat) : Nat := 0x50000 + 0x100 * c + x

/-- FTW of DDCc in effect for samples stamped t. -/
def ddcFtw (s : State) (c : Nat) (t : Tick) : Nat := s.rd64At t (ddcAt c 0x04) % 2 ^ 48

/-- POFF of DDCc in effect for samples stamped t. -/
def ddcPoff (s : State) (c : Nat) (t : Tick) : Nat := s.rd64At t (ddcAt c 0x0C) % 2 ^ 48

/-- Whether a corrected sample stamped t enters a downconverter run; before its start, and from a stop of stream time on,
the input is zero (R153, R615). -/
def ddcTakes (g : DdcSeg) (t : Tick) : Bool := !(tlt t g.start || g.cut.any (fun l => tle l t))

/-- A sample after the mixer of DDCc (R147). -/
def ddcMix (s : State) (c : Nat) (x : Samp) : Cx := mix (ddcFtw s c x.t) (ddcPoff s c x.t) x.t (x.i, x.q)

/-- The mixed inputs of a downconverter run from r ticks before t to r ticks after it (R147, R153). -/
def ddcWindow (s : State) (c : Nat) (g : DdcSeg) (r : Nat) (t : Tick) : Array Cx :=
  let lo := tsub t r
  ((s.stream (4 + c)).filter (fun x => decide ((x.t - lo).toNat ≤ 2 * r) && ddcTakes g x.t)).foldr
    (fun x a => a.setIfInBounds (x.t - lo).toNat (ddcMix s c x)) (Array.replicate (2 * r + 1) (0, 0))

/-- The exact value and fraction bits of a downconverter output stamped t (R147 to R151). -/
def ddcValue (s : State) (c : Nat) (g : DdcSeg) (t : Tick) : Cx × Nat :=
  if g.n = 0 then ((ddcWindow s c g 0 t).getD 0 (0, 0), 22)
  else (compFir g.coef (cascade g.n (ddcWindow s c g (reach g.n) t)), 40)

/-- The marks of an output stamped t of a filter with group delay gd that started at `start` and lost its input at
`cut` (R153, R159). -/
def filterMarks (gd : Nat) (start : Tick) (cut : Option Tick) (t : Tick) : Nat :=
  (if tlt t (tadd start gd) then mkSettling else 0) +
  (if cut.any (fun l => tle l (tadd t gd) && tlt t l) then mkTail else 0)

/-- The output of DDCc stamped t, with the number of components saturated (R144, R148, R151). -/
def ddcOutput (s : State) (c : Nat) (g : DdcSeg) (t : Tick) : Samp × Nat :=
  let gd := ddcDelay g.n
  let fl := flagsIn (s.stream (4 + c)) (tsub t gd) (tadd t gd)
  let mk := filterMarks gd g.start g.cut t
  if g.n = 0 && !s.isComplex then
    let x := if ddcTakes g t then (sampAt (s.stream (4 + c)) t).map Samp.i else none
    (⟨t, x.getD 0, 0, fl, mk⟩, 0)
  else
    let v := ddcValue s c g t
    let i := narrow v.2 g.osh v.1.1
    let q := narrow v.2 g.osh v.1.2
    (⟨t, i.1, q.1, fl, mk⟩, b2n i.2 + b2n q.2)

/-- Whether a run of a filter has ended: its next output would be stamped at or after its stop. -/
def segDone (stop : Option Tick) (nxt : Tick) : Bool := stop.any (fun l => tle l nxt)

/-- The outputs of a downconverter run that its input allows are delivered: `upto` is the first corrected stamp not yet
delivered. -/
def runDdc (c : Nat) (upto : Tick) : Nat → DdcSeg → State → DdcSeg × State
  | 0, g, s => (g, s)
  | n + 1, g, s =>
    if segDone g.stop g.nxt then (g, s)
    else if tlt (tadd g.nxt (ddcDelay g.n)) upto || g.cut.isSome then
      let o := ddcOutput s c g g.nxt
      let s1 := (pushSamp (8 + c) o.1 s).bump (Fd.DDC_SAT c) o.2
      let s2 := stick o.1.fl o.1.t (s1.set (Fd.DDC_STATUS_SETTLING c) (b2n (bit o.1.marks 0)))
      runDdc c upto n { g with nxt := tadd g.nxt (2 ^ g.n) } s2
    else (g, s)

/-- Whether a downconverter runs: a run without a stop (R154). -/
def ddcRunning (s : State) (c : Nat) : Bool := (look [] s.dsp.ddc c).any (fun g => g.stop.isNone)

/-- Every run of DDCc delivers what it can; a run that has delivered its last output ends, and QUIESCENT sets when none
is left (R153). -/
def stepDdc (c : Nat) (upto : Tick) (fuel : Nat) (s : State) : State :=
  let r := (look [] s.dsp.ddc c).reverse.foldl (fun (acc : List DdcSeg × State) g =>
    let q := runDdc c upto fuel g acc.2
    (q.1 :: acc.1, q.2)) ([], s)
  let left := r.1.filter (fun g => !segDone g.stop g.nxt)
  let s1 := { r.2 with dsp := { r.2.dsp with ddc := keep r.2.dsp.ddc c left } }
  if left.isEmpty && !(look [] s.dsp.ddc c).isEmpty then
    (s1.set (Fd.DDC_STATUS_QUIESCENT c) 1).set (Fd.DDC_STATUS_SETTLING c) 0
  else s1

/-- The stamps of a downconverter are the multiples of D_w at or after its start (R143). -/
def ddcStart (c : Nat) (l : Tick) (s : State) : State :=
  let n := s.get (Fd.DDC_CTRL_DEC c)
  let coef := (List.range 17).map (fun k => coef20 (s.get (Fd.DDC_COEF c k)))
  let g : DdcSeg := ⟨n, s.get (Fd.DDC_CTRL_OSH c), coef, l, none, none, tceil (2 ^ n) l⟩
  let s1 := { s with dsp := { s.dsp with ddc := keep s.dsp.ddc c (g :: look [] s.dsp.ddc c) } }
  let s2 := ((s1.set (Fd.DDC_STATUS_RUNNING c) 1).set (Fd.DDC_STATUS_QUIESCENT c) 0).set (Fd.DDC_GDELAY c) (ddcDelay n)
  (s2.set (Fd.DDC_STATUS_SETTLING c) (b2n (0 < n))).raise 0x0401 [.w4 c, .t l]

/-- A downconverter stops at L (R153); `cut` says that its input ends there too (R615). -/
def ddcStop (c : Nat) (l : Tick) (cut : Bool) (s : State) : State :=
  let upd (g : DdcSeg) : DdcSeg :=
    { g with stop := some (g.stop.getD l), cut := if cut && g.cut.isNone then some l else g.cut }
  let was := ddcRunning s c
  let s1 := { s with dsp := { s.dsp with ddc := keep s.dsp.ddc c ((look [] s.dsp.ddc c).map upd) } }
  if was then (s1.set (Fd.DDC_STATUS_RUNNING c) 0).raise 0x0402 [.w4 c, .t l] else s1

/-! ### Zoom bank (R157 to R164) -/

/-- The register offset of a field of ZCz. -/
def zcAt (z x : Nat) : Nat := 0x51000 + 0x40 * z + x

/-- FTW of ZCz in effect for samples stamped t. -/
def zcFtw (s : State) (z : Nat) (t : Tick) : Nat := s.rd64At t (zcAt z 0x0C) % 2 ^ 48

/-- POFF of ZCz in effect for samples stamped t. -/
def zcPoff (s : State) (z : Nat) (t : Tick) : Nat := s.rd64At t (zcAt z 0x14) % 2 ^ 48

/-- The group delay of a zoom run over its source: (T − 1)/2 source periods (R158). -/
def zcDelay (g : ZcSeg) : Nat := (g.taps.length - 1) * g.pw

/-- Tap k of T = 2·length − 1 symmetric taps held as the first half and the centre (R157). -/
def zcTap (taps : List Int) (k : Nat) : Int :=
  let h := taps.length - 1
  taps.getD (if k ≤ h then k else 2 * h - k) 0

/-- The source sample of a zoom run at a stamp, zero before its start and from the source's stop on (R153, R159). -/
def zcIn (src : List Samp) (g : ZcSeg) (t : Tick) : Cx :=
  if tlt t g.start || g.cut.any (fun l => tle l t) then (0, 0)
  else match sampAt src t with
    | some x => (x.i, x.q)
    | none => (0, 0)

/-- The exact value of a zoom output stamped t, with 40 fraction bits (R157). -/
def zcValue (s : State) (z : Nat) (g : ZcSeg) (t : Tick) : Cx :=
  let src := s.stream (8 + g.src)
  let h := g.taps.length - 1
  (List.range (2 * h + 1)).foldl (fun (acc : Cx) k =>
    let u := tsub (tadd t (k * g.pw)) (h * g.pw)
    let m := mix (zcFtw s z u) (zcPoff s z u) u (zcIn src g u)
    let c := zcTap g.taps k
    (acc.1 + c * m.1, acc.2 + c * m.2)) (0, 0)

/-- The output of ZCz stamped t, with the number of components saturated (R144, R151, R153, R157). -/
def zcOutput (s : State) (z : Nat) (g : ZcSeg) (t : Tick) : Samp × Nat :=
  let src := s.stream (8 + g.src)
  let gz := zcDelay g
  let a := tsub t gz
  let b := tadd t gz
  let v := zcValue s z g t
  let i := narrow 40 g.osh v.1
  let q := narrow 40 g.osh v.2
  let own := filterMarks (gz + g.gw) g.start none t
  let tail := if g.cut.any (fun l => tle l b && tlt t l) then mkTail else 0
  (⟨t, i.1, q.1, flagsIn src a b, Nat.lor (Nat.lor own tail) (marksIn src (tmax a g.start) b)⟩, b2n i.2 + b2n q.2)

/-- The zoom outputs that the source allows are delivered: `upto` is the first source stamp not yet delivered. -/
def runZc (z : Nat) (upto : Tick) : Nat → ZcSeg → State → ZcSeg × State
  | 0, g, s => (g, s)
  | n + 1, g, s =>
    if segDone g.stop g.nxt then (g, s)
    else if tlt (tadd g.nxt (zcDelay g)) upto || g.cut.isSome then
      let o := zcOutput s z g g.nxt
      let s1 := (pushSamp (16 + z) o.1 s).bump (Fd.ZC_SAT z) o.2
      let s2 := (s1.set (Fd.ZC_STATUS_SETTLING z) (b2n (bit o.1.marks 0))).set (Fd.ZC_STATUS_TAIL z) (b2n (bit o.1.marks 1))
      runZc z upto n { g with nxt := tadd g.nxt (g.pw * g.dz) } (stick o.1.fl o.1.t s2)
    else (g, s)

/-- Whether a zoom channel runs (R154). -/
def zcRunning (s : State) (z : Nat) : Bool := (look [] s.dsp.zc z).any (fun g => g.stop.isNone)

/-- The first stamp that DDCc has not delivered yet, while or after it ran. -/
def ddcNext (s : State) (c : Nat) : Tick :=
  match (look [] s.dsp.ddc c).reverse with
  | g :: _ => g.nxt
  | [] => match s.stream (8 + c) with
    | x :: _ => x.t + 1
    | [] => s.sys.base

/-- Every run of ZCz delivers what it can (R153). -/
def stepZc (z : Nat) (fuel : Nat) (s : State) : State :=
  match look [] s.dsp.zc z with
  | [] => s
  | gs =>
    let r := gs.reverse.foldl (fun (acc : List ZcSeg × State) g =>
      let q := runZc z (ddcNext acc.2 g.src) fuel g acc.2
      (q.1 :: acc.1, q.2)) ([], s)
    let left := r.1.filter (fun g => !segDone g.stop g.nxt)
    let s1 := { r.2 with dsp := { r.2.dsp with zc := keep r.2.dsp.zc z left } }
    if left.isEmpty then
      let s2 := (s1.set (Fd.ZC_STATUS_QUIESCENT z) 1).set (Fd.ZC_STATUS_SETTLING z) 0
      if (List.range 64).all (fun y => (look [] s2.dsp.zc y).isEmpty) then s2.set Fd.ZB_STATUS_QUIESCENT 1 else s2
    else s1

/-- A load as a fraction: (T + 1)/2 · F_s / (1.6 GHz · P_z) (R160). -/
def zcLoad (s : State) (taps pz : Nat) : Nat × Nat := (taps * s.get Fd.ING_FS_KHZ, 1600000 * pz)

/-- The sum of fractions. -/
def fracSum (l : List (Nat × Nat)) : Nat × Nat :=
  l.foldl (fun a b => (a.1 * b.2 + b.1 * a.2, a.2 * b.2)) (0, 1)

/-- The zoom channels of a lane that run (R160). -/
def laneZcs (s : State) (lane : Nat) : List Nat :=
  ((List.range 4).map (fun k => lane + 16 * k)).filter (fun z => zcRunning s z)

/-- The load of a running zoom channel. -/
def loadOf (s : State) (z : Nat) : Nat × Nat :=
  match (look [] s.dsp.zc z).find? (fun g => g.stop.isNone) with
  | some g => zcLoad s g.taps.length (g.pw * g.dz)
  | none => (0, 1)

/-- The load of a lane (R160). -/
def laneLoad (s : State) (lane : Nat) : Nat × Nat := fracSum ((laneZcs s lane).map (loadOf s))

/-- A load in 1/256 of the capacity of 64 (R160). -/
def load256 (f : Nat × Nat) : Nat := 4 * f.1 / f.2

/-- Whether a load fits the capacity. -/
def loadFits (f : Nat × Nat) : Bool := f.1 ≤ 64 * f.2

/-- ZB.LOADl and ZB.RUN follow the running channels. -/
def refreshZb (z : Nat) (s : State) : State :=
  let s1 := s.set (Fd.ZB_LOAD (z % 16)) (load256 (laneLoad s (z % 16)))
  if z < 32 then s1.putB Fd.ZB_RUN_LO z (zcRunning s z) else s1.putB Fd.ZB_RUN_HI (z - 32) (zcRunning s z)

/-- A zoom start at landing L (R157, R158, R160): refused where its lane would exceed its capacity (reason 1) or its
source does not run (reason 2). -/
def zcStart (z : Nat) (l : Tick) (s : State) : State :=
  let c := s.get (Fd.ZC_CTRL_SRC z)
  let lane := z % 16
  match (look [] s.dsp.ddc c).find? (fun g => g.stop.isNone) with
  | none => (s.set (Fd.ZC_STATUS_REFUSED z) 1).raise 0x0405 [.w4 z, .w4 2, .w4 (load256 (laneLoad s lane))]
  | some d =>
    let pw := 2 ^ d.n
    let dz := s.get (Fd.ZC_DEC z)
    let half := (s.get (Fd.ZC_TAPS_T z) + 1) / 2
    let new := fracSum [laneLoad s lane, zcLoad s half (pw * dz)]
    if !loadFits new then
      (s.set (Fd.ZC_STATUS_REFUSED z) 1).raise 0x0405 [.w4 z, .w4 1, .w4 (load256 (laneLoad s lane))]
    else
      let base := s.get (Fd.ZC_TAPS_BASE z)
      let taps := (List.range half).map (fun k => coef20 (s.get (Fd.ZB_CM (base + k))))
      let g : ZcSeg := ⟨c, pw, ddcDelay d.n, dz, s.get (Fd.ZC_CTRL_OSH z), taps, l, none, none, l⟩
      let s1 := { s with dsp := { s.dsp with zc := keep s.dsp.zc z (g :: look [] s.dsp.zc z) } }
      let s2 := ((s1.set (Fd.ZC_STATUS_RUNNING z) 1).set (Fd.ZC_STATUS_QUIESCENT z) 0).set (Fd.ZC_STATUS_SETTLING z) 1
      let s3 := (s2.set Fd.ZB_STATUS_QUIESCENT 0).set (Fd.ZC_GDELAY z) (ddcDelay d.n + zcDelay g)
      (refreshZb z (s3.wrT (zcAt z 0x24) l)).raise 0x0404 [.w4 z, .t l]

/-- A zoom channel stops at L with a cause (R153, R159, R161, R615); `cut` says that its source ends there. -/
def zcStop (z : Nat) (l : Tick) (cause : Nat) (cut : Bool) (s : State) : State :=
  let upd (g : ZcSeg) : ZcSeg :=
    { g with stop := some (g.stop.getD l), cut := if cut && g.cut.isNone then some l else g.cut }
  let was := zcRunning s z
  let s1 := { s with dsp := { s.dsp with zc := keep s.dsp.zc z ((look [] s.dsp.zc z).map upd) } }
  if was then (refreshZb z (s1.set (Fd.ZC_STATUS_RUNNING z) 0)).raise 0x0406 [.w4 z, .t l, .w4 cause] else s1

/-- Zoom channels stop, highest first, until a lane fits (R161). -/
def laneRecheck (l : Tick) (lane : Nat) : Nat → State → State
  | 0, s => s
  | n + 1, s =>
    if loadFits (laneLoad s lane) then s
    else match (laneZcs s lane).getLast? with
      | some z => laneRecheck l lane n (zcStop z l 2 false s)
      | none => s

/-- CM words in the range of a running zoom channel (R164). -/
def cmInUse (s : State) (w : Nat) : Bool :=
  (List.range 64).any (fun z => zcRunning s z && decide (s.get (Fd.ZC_TAPS_BASE z) ≤ w) &&
    decide (w ≤ s.get (Fd.ZC_TAPS_BASE z) + (s.get (Fd.ZC_TAPS_T z) - 1) / 2))

/-! ### Capture decimators (R165, R166) -/

/-- The stream a source of R165 names. -/
def srcKey (kind idx : Nat) : Nat :=
  match kind with
  | 0 => 4 + idx
  | 1 => 8 + idx
  | 2 => 16 + idx
  | _ => idx

/-- The period in ticks of a source of R165, with the present configuration. -/
def srcPeriod (s : State) (kind idx : Nat) : Nat :=
  match kind with
  | 1 => match look [] s.dsp.ddc idx with
    | g :: _ => 2 ^ g.n
    | [] => 2 ^ s.get (Fd.DDC_CTRL_DEC idx)
  | 2 => match look [] s.dsp.zc idx with
    | g :: _ => g.pw * g.dz
    | [] => 2 ^ s.get (Fd.DDC_CTRL_DEC (s.get (Fd.ZC_CTRL_SRC idx))) * s.get (Fd.ZC_DEC idx)
  | _ => 1

/-- The runs of a capture decimator, newest first. -/
def State.cdRuns (s : State) (n : Nat) : List CdSt := look [] s.dsp.cd n

/-- A capture decimator starts afresh at L (R166). -/
def cdRestart (n : Nat) (l : Tick) (s : State) : State :=
  let r : CdSt := ⟨l, srcKey (s.get (Fd.CD_CTRL_KIND n)) (s.get (Fd.CD_CTRL_IDX n)), s.get (Fd.CD_DEC n), none⟩
  { s with dsp := { s.dsp with cd := keep s.dsp.cd n (r :: s.cdRuns n) } }.wr64 (0x50A08 + 0x20 * n) 0

/-- The decimators whose source is this stream start afresh at L. -/
def cdRestartKey (key : Nat) (l : Tick) (s : State) : State :=
  s.each ((List.range 8).filter (fun n => srcKey (s.get (Fd.CD_CTRL_KIND n)) (s.get (Fd.CD_CTRL_IDX n)) == key))
    (fun n s => cdRestart n l s)

/-- A decimator without an anchor takes the first source sample at or after its change (R166). -/
def cdAnchor (n : Nat) (s : State) : State :=
  match s.cdRuns n with
  | [] => s
  | r :: rest =>
    if r.anchor.isSome then s
    else match ((s.stream r.key).filter (fun x => tle r.since x.t)).getLast? with
      | none => s
      | some x =>
        let s1 := { s with dsp := { s.dsp with cd := keep s.dsp.cd n ({ r with anchor := some x.t } :: rest) } }
        (s1.wrT (0x50A08 + 0x20 * n) x.t).raise 0x0407 [.w4 n, .t x.t]

/-- Every D-th element of a list, from the first. -/
def everyNth {α : Type} (d : Nat) (l : List α) : List α :=
  (l.zipIdx.filter (fun x => x.2 % d == 0)).map Prod.fst

/-- The samples that runs of a decimator keep, oldest first, those of the newest run being stamped before `till`
(R165, R166). -/
def cdKept (s : State) (till : Option Tick) : List CdSt → List Samp
  | [] => []
  | r :: rest =>
    let mine := match r.anchor with
      | none => []
      | some a => everyNth r.d (((s.stream r.key).filter (fun x => tle a x.t && till.all (fun l => tlt x.t l))).reverse)
    cdKept s (some r.since) rest ++ mine

/-- The samples a decimator keeps, oldest first. -/
def cdSamples (s : State) (n : Nat) : List Samp := cdKept s none (s.cdRuns n)

/-! ### At a landing (R156) -/

/-- Whether a field's entry landed now. -/
def landedAt (landed : List (Nat × Nat)) (f : Fld) : Bool := landed.contains (f.off, f.lo)

/-- Steps 1 to 3 and 5 of R156 at landing L: downconverter starts and stops, zoom stops and starts, decimator changes.
A start is tried when RUN lands as 1 or at the first landing after an epoch. -/
def ddcLand (l : Tick) (landed : List (Nat × Nat)) (s : State) : State :=
  let fresh := s.sys.fresh
  let s1 := s.each (List.range 4) (fun c s =>
    let want := s.on (Fd.DDC_CTRL_RUN c)
    if want && !ddcRunning s c && (fresh || landedAt landed (Fd.DDC_CTRL_RUN c)) then
      cdRestartKey (8 + c) l (ddcStart c l s)
    else if !want && ddcRunning s c then ddcStop c l false s else s)
  let s2 := s1.each (List.range 64) (fun z s =>
    let srcDead := (look [] s.dsp.zc z).any (fun g => g.stop.isNone && !ddcRunning s g.src)
    if srcDead then zcStop z l 1 true s
    else if !s.on (Fd.ZC_CTRL_RUN z) && zcRunning s z then zcStop z l 0 false s
    else
      -- a draining run whose source has stopped takes the missing samples as zero
      let cutDraining (g : ZcSeg) : ZcSeg :=
        if g.stop.isSome && g.cut.isNone && !ddcRunning s g.src then { g with cut := some l } else g
      { s with dsp := { s.dsp with zc := s.dsp.zc.map (fun e => if e.1 = z then (e.1, e.2.map cutDraining) else e) } })
  let s3 := s2.each (List.range 64) (fun z s =>
    if s.on (Fd.ZC_CTRL_RUN z) && !zcRunning s z && (fresh || landedAt landed (Fd.ZC_CTRL_RUN z)) then
      let t := zcStart z l s
      if zcRunning t z then cdRestartKey (16 + z) l t else t
    else s)
  let s4 := if s3.ing.freshEn then s3.each (List.range 16) (fun lane s => laneRecheck l lane 4 s) else s3
  s4.each (List.range 8) (fun n s =>
    let mine := [Fd.CD_CTRL_KIND n, Fd.CD_CTRL_IDX n, Fd.CD_DEC n]
    if fresh || mine.any (landedAt landed) then cdRestart n l s else s)

/-- A stop of stream time at L (R615): every running filter stops there and its last outputs take the missing input as
zero. -/
def ddcStopAll (l : Tick) (s : State) : State :=
  let s1 := s.each (List.range 4) (fun c s => ddcStop c l true s)
  let s2 := s1.each (List.range 4) (fun c s => stepDdc c l 1048576 s)
  let s3 := s2.each (List.range 64) (fun z s => zcStop z l 3 true s)
  s3.each (List.range 64) (fun z s => stepZc z 1048576 s)

/-- The front-end history of a channel in ticks: the longest contributing span of its corrected samples and downconverter
outputs (R129). -/
def filterHistory (s : State) (c : Nat) : Nat :=
  let r := correctReach (liveSet s c)
  let corr := r.1 + r.2 + 1
  match look [] s.dsp.ddc c with
  | g :: _ => 2 * ddcDelay g.n + corr
  | [] => corr

/-- SAT_CLEAR of ZB (R167): every DDC and ZC saturation counter is cleared. -/
def zbSatClear (s : State) : State :=
  (s.each (List.range 4) (fun c s => s.set (Fd.DDC_SAT c) 0)).each (List.range 64) (fun z s => s.set (Fd.ZC_SAT z) 0)

end Sys2Proof.Machine
end

