-- ==== Sys2Proof/Machine/Image.lean ====
section
/-! DEFINITION. Configuration images (R554 to R556): where flash holds them, their format, and when one is valid. -/

namespace Sys2Proof.Machine

/-- A decoded image (R555). -/
structure Image where
  index : Nat
  flags : Nat
  gen : Nat
  epoch : Nat
  entries : List ImgEntry
deriving DecidableEq, Repr

/-- Bytes of flash (R554). -/
def State.flashLoad (s : State) (a n : Nat) : List Byte := Memory.load s.flash a n

/-- Bytes written to flash. -/
def State.flashStore (s : State) (a : Nat) (bs : List Byte) : State := { s with flash := Memory.store s.flash a bs }

/-- Where copy k of the base image lies in flash (R554). -/
def baseCopyAt (k : Nat) : Nat := 0x04000000 + k * 0x00400000

/-- Where copy k of overlay i lies in flash (R554). -/
def overlayCopyAt (i k : Nat) : Nat := 0x04800000 + i * 0x2000 + k * 0x1000

/-- Where overlay i lies in the overlay store (R564). -/
def overlayStoreAt (i : Nat) : Nat := 0x010008400000 + i * 0x1000

/-- The bits of a register that some field covers, that an RO field covers, and that a WO field covers. -/
def regMasks (d : RegDesc) : Nat × Nat × Nat :=
  d.fields.foldl (fun m f =>
    let bitsOf := (2 ^ f.width - 1) * 2 ^ f.lo
    (m.1 + bitsOf, m.2.1 + (if f.acc = .ro then bitsOf else 0), m.2.2 + (if f.acc = .wo then bitsOf else 0))) (0, 0, 0)

/-- Whether an image may hold an entry (R556): it addresses a register outside CFG, HIF, PTR and SYS 0x0108 to 0x0124,
covers no reserved and no RO bit, and in an overlay no WO field. -/
def entryValid (overlay : Bool) (e : ImgEntry) : Bool :=
  let unit := e.addr / 0x10000
  e.addr % 4 == 0 && decide (e.addr < 0x04000000) && e.mask != 0 &&
  !(unit == 20 || unit == 14 || unit == 15) && !(decide (0x108 ≤ e.addr) && decide (e.addr ≤ 0x124)) &&
  match RegMap.find e.addr with
  | none => false
  | some (d, _, _) =>
    let m := regMasks d
    Nat.land e.mask m.1 == e.mask && Nat.land e.mask m.2.1 == 0 && !(overlay && Nat.land e.mask m.2.2 != 0)

/-- The entries of an image (R555). -/
def readEntries (bs : List Byte) : Nat → List ImgEntry
  | 0 => []
  | n + 1 => readEntries bs n ++
    [⟨fieldAt bs (0x20 + 12 * n) 4, fieldAt bs (0x24 + 12 * n) 4, fieldAt bs (0x28 + 12 * n) 4⟩]

/-- An image read from bytes, if it is valid (R555, R556): `overlay` is the overlay number it must carry, none for the
base image. -/
def readImage (overlay : Option Nat) (bs : List Byte) : Option Image :=
  let n := fieldAt bs 0x0C 4
  let len := 36 + 12 * n
  let img : Image := ⟨fieldAt bs 6 1, fieldAt bs 7 1, fieldAt bs 8 4, fieldAt bs 0x10 8, readEntries bs n⟩
  let head := match overlay with
    | none => fieldAt bs 0 4 == 0x42474643 && img.index == 0 && decide (img.flags < 4) && decide (n ≤ 349522)
    | some i => fieldAt bs 0 4 == 0x4F474643 && img.index == i && img.flags == 0 && img.epoch == 0 && decide (n ≤ 338)
  if head && fieldAt bs 4 2 == 1 && fieldAt bs 0x18 8 == 0 && decide (len ≤ bs.length) && crcGood (bs.take len) &&
    img.entries.all (entryValid overlay.isSome) then some img else none

/-- The image of a flash copy: its length comes from its own NENT. -/
def flashImage (s : State) (overlay : Option Nat) (a : Nat) : Option Image :=
  let n := Memory.load s.flash (a + 0x0C) 4
  readImage overlay (s.flashLoad a (36 + 12 * min (ofLe n) 349522))

/-- The copy that R559 chooses of two: valid, and of two valid ones the higher GEN; copy 0 of two equal ones. -/
def chooseCopy {α : Type} (gen : α → Nat) (c0 c1 : Option α) : Option (Nat × α) :=
  match c0, c1 with
  | none, none => none
  | some a, none => some (0, a)
  | none, some b => some (1, b)
  | some a, some b => if gen a < gen b then some (1, b) else some (0, a)

end Sys2Proof.Machine
end

