-- ==== Sys2Proof/Machine/Assayer.lean ====
section
/-! DEFINITION. Assayer (R114 to R142): requests and deferral, the phases of a run over CHS, estimation, gradual
application, the calibration log and the flash records. The estimator's binary64 answers are `Config.estimator`. -/

namespace Sys2Proof.Machine

/-! ### Records (R136, R138, R139) -/

/-- A calibration record (R138). -/
def calRecord (c q run flags : Nat) (land : Tick) (die conv spur : Nat) (set : CoefSet) : List Byte :=
  let head := le 4 0x43595341 ++ le 2 1 ++ le 1 c ++ le 1 q ++ le 4 run ++ le 4 flags ++ le 8 land.toNat ++ le 2 die ++
    le 2 conv ++ le 2 spur ++ le 2 0 ++ le 4 set.dly ++ zeros 12
  let body := (List.range q).flatMap (fun i =>
    let k := set.sub.getD i Coef.identity
    le 2 (encI 16 k.o) ++ le 2 (encI 16 k.b) ++ le 4 (encI 32 k.tau) ++ le 4 (encI 24 k.g) ++ le 4 0)
  withCrc (head ++ body)

/-- A record read back: channel, Q, run number and set, if its check passes (R138, R139). -/
def readCalRecord (bs : List Byte) : Option (Nat × Nat × Nat × CoefSet) :=
  let q := fieldAt bs 7 1
  let rec' := bs.take (0x34 + 16 * q)
  if fieldAt rec' 0 4 == 0x43595341 && fieldAt rec' 4 2 == 1 && decide (1 ≤ q) && decide (q ≤ 64) && crcGood rec' then
    let sub := (List.range q).map (fun i =>
      let b := 0x30 + 16 * i
      (⟨sext 16 (fieldAt rec' b 2), ((fieldAt rec' (b + 8) 3 : Nat) : Int), sext 32 (fieldAt rec' (b + 4) 4),
        sext 16 (fieldAt rec' (b + 2) 2)⟩ : Coef))
    some (fieldAt rec' 6 1, q, fieldAt rec' 8 4, ⟨sub, fieldAt rec' 0x20 4 % 16384⟩)
  else none

/-- Where copy k of channel c's record lies in flash (R139). -/
def calCopyAt (c k : Nat) : Nat := 0x01000000 + c * 0x2000 + k * 0x1000

/-- A change of coefficients is written to the calibration update log (R136): the ring is full when the next slot would
reach LOG_RD. -/
def asyLog (c run flags : Nat) (land : Tick) (spur : Nat) (set : CoefSet) (s : State) : State :=
  let wr := s.get Fd.ASY_LOG_WR
  let nxt := (wr + 1) % max 1 (s.get Fd.ASY_LOG_SIZE)
  if nxt = s.get Fd.ASY_LOG_RD then (s.set Fd.ASY_STATUS_LOG_OVF 1).raise 0x030C [.w4 c, .w4 run]
  else
    let bytes := calRecord c s.asyQ run (Nat.lor flags 32) land (s.get Fd.AGE_TDIE) (s.get (Fd.ASY_CONV_TEMP c)) spur set
    (s.store (s.rd64 0x400D0 + 2048 * wr) bytes).set Fd.ASY_LOG_WR nxt

/-! ### Requests and starts (R126 to R128) -/

/-- Whether Scrivener plays back (R128 reason 4). -/
def State.inPlayback (s : State) : Bool := s.get Fd.SCR_STATUS_STATE = 3

/-- The run that holds CHS or waits to: none once it has reached APPLY. -/
def asyHolds (s : State) : Bool := s.asy.run.any (fun r => r.phase != .apply)

/-- Whether a channel has a run queued, running or applying (R126). -/
def asyBusy (s : State) (c : Nat) : Bool :=
  s.onBit Fd.ASY_STATUS_QUEUED c || s.asy.run.any (fun r => r.ch == c) || s.asy.applying.any (fun a => a.ch == c)

/-- The reason that defers a queued run (R128). -/
def deferReason (s : State) (c : Nat) : Option Nat :=
  if !s.age.takeovers.isEmpty || s.on Fd.AGE_STATUS_CHS_FAIL then some 1
  else if s.chan c != 2 then some 2
  else if !s.on Fd.ASY_CTRL_EN then some 3
  else if s.inPlayback then some 4
  else none

/-- STATUS follows the run and the applications. -/
def refreshAsy (s : State) : State :=
  let mask := s.asy.applying.foldl (fun m a => setBit m a.ch) 0
  let s1 := s.set Fd.ASY_STATUS_APPLYING mask
  s1.set Fd.ASY_STATUS_QUIESCENT (b2n (s.asy.run.isNone && s.asy.applying.isEmpty))

/-- The number a phase reads as in STATUS.PHASE. -/
def AsyPhase.code : AsyPhase → Nat
  | .idle => 0
  | .shadow => 1
  | .compare => 2
  | .cover => 3
  | .retShadow => 4
  | .retCompare => 5
  | .apply => 6

/-- The run in progress takes a phase. -/
def asySetRun (r : AsyRun) (s : State) : State :=
  { s with asy := { s.asy with run := some r } }.set Fd.ASY_STATUS_PHASE r.phase.code

/-- A queued run starts if CHS is free (R126). -/
def asyStart (c : Nat) (s : State) : State :=
  let set := storedSet s c
  let r : AsyRun := ⟨c, .idle, s.sys.next, false, 0, 0, 0, false, false, set, [0, 0, 0, 0, 0], false, 0, 0, none⟩
  let s1 := ((s.clrB Fd.ASY_STATUS_QUEUED c).clrB Fd.ASY_STATUS_DEFERRED c).set Fd.ASY_STATUS_CH c
  let s2 := { s1 with asy := { s1.asy with deferred := s1.asy.deferred.filter (fun d => d.1 != c) } }
  (asySetRun r (s2.set Fd.ASY_STATUS_CHS_OWNER 1)).set Fd.ASY_STATUS_QUIESCENT 0

/-- A deferral is noted, and reported once for the request and reason (R128). -/
def asyDefer (c reason : Nat) (s : State) : State :=
  let s1 := s.setB Fd.ASY_STATUS_DEFERRED c
  if s.asy.deferred.contains (c, reason) then s1
  else { s1 with asy := { s1.asy with deferred := (c, reason) :: s1.asy.deferred } }.raise 0x0304 [.w4 c, .w4 reason]

/-- The queue is looked at: in channel order, each queued run is deferred, waits, or starts while CHS is free. A run that
has been deferred starts only at a landing (R126, R128). -/
def asyQueue (atLanding : Bool) (s : State) : State :=
  s.each [0, 1, 2, 3] (fun c s =>
    if !s.onBit Fd.ASY_STATUS_QUEUED c then s
    else match deferReason s c with
      | some r => asyDefer c r s
      | none =>
        let applying := s.asy.applying.any (fun a => a.ch == c)
        if asyHolds s || applying || (s.onBit Fd.ASY_STATUS_DEFERRED c && !atLanding) then s else asyStart c s)

/-- A run of a channel is requested (R126): merged with one that is queued, running or applying. -/
def asyRequest (c : Nat) (s : State) : State :=
  if asyBusy s c then s else s.setB Fd.ASY_STATUS_QUEUED c

/-- Runs of the channels of a mask are requested. -/
def asyReq (mask : Nat) (s : State) : State :=
  asyQueue false (s.each ([0, 1, 2, 3].filter (fun c => bit mask c)) asyRequest)

/-- ASY_REQ (R126): channel bits written to CTRL.REQ. -/
def execAsyReq (chans : BitVec 4) (s : State) : Out := .next (asyReq chans.toNat s)

/-- The start-up runs: one for every enabled channel (R126). -/
def asyStartUpRuns (s : State) : State :=
  asyQueue false (s.each (enabledChans s) asyRequest)

/-- Whether every start-up run has ended or is deferred (R557). -/
def asyStartUpDone (s : State) : Bool :=
  s.asy.run.isNone && s.asy.applying.isEmpty &&
  [0, 1, 2, 3].all (fun c => !s.onBit Fd.ASY_STATUS_QUEUED c || s.onBit Fd.ASY_STATUS_DEFERRED c)

/-! ### The end of a run (R127, R133) -/

/-- The reference temperatures of a channel are recorded at the end of its run (R127). -/
def asyTref (c : Nat) (s : State) : State :=
  (s.set (Fd.ASY_TREF_DIE c) (s.get Fd.AGE_TDIE)).set (Fd.ASY_TREF_CONV c) (s.get (Fd.ASY_CONV_TEMP c))

/-- The run ends and CHS is free. -/
def asyClose (s : State) : State :=
  match s.asy.run with
  | none => s
  | some r =>
    let s1 := { s with asy := { s.asy with run := none } }.set Fd.ASY_STATUS_PHASE 0
    let s2 := if s1.get Fd.ASY_STATUS_CHS_OWNER = 1 then s1.set Fd.ASY_STATUS_CHS_OWNER 0 else s1
    refreshAsy (asyTref r.ch s2)

/-- The run ends and the queue is looked at. -/
def asyEnd (atLanding : Bool) (s : State) : State := asyQueue atLanding (asyClose s)

/-- The run aborts with a reason (R133): outcome 2, event 0x0308, nothing applied; the queue is not looked at yet. -/
def asyDrop (reason : Nat) (s : State) : State :=
  match s.asy.run with
  | none => s
  | some r => asyClose ((s.set (Fd.ASY_RESULT_OUTCOME r.ch) 2).raise 0x0308 [.w4 r.ch, .w4 reason])

/-- The run aborts with a reason and the queue is looked at (R133). -/
def asyAbortNow (reason : Nat) (atLanding : Bool) (s : State) : State := asyQueue atLanding (asyDrop reason s)

/-- The run ends early (R133): before COVER at once; from COVER on it goes back through RETURN_SHADOW; in APPLY the steps
continue. -/
def asyAbort (reason : Nat) (s : State) : State :=
  match s.asy.run with
  | none => s
  | some r =>
    match r.phase with
    | .idle => asyAbortNow reason false s
    | .shadow => asyAbortNow reason false s
    | .compare => asyAbortNow reason false s
    | .apply => s
    | _ => if r.abort.isSome then s else asySetRun { r with abort := some reason } s

/-- ASY_ABORT (R133): a write of 1 to CTRL.ABORT, reason 1. -/
def execAsyAbort (s : State) : Out := .next (asyAbort 1 s)

/-- What a write that clears CTRL.EN does (R133, reason 2; R128, reason 3). -/
def asyEnWrite (s : State) : State := if s.on Fd.ASY_CTRL_EN then asyQueue false s else asyQueue false (asyAbort 2 s)

/-! ### Estimation (R118 to R124) -/

/-- The released and corrected samples of a channel in [a, a + n). -/
def windowOf (l : List Samp) (a : Tick) (n : Nat) : List Samp :=
  (l.filter (fun x => tle a x.t && tlt x.t (tadd a n))).reverse

/-- The freed pipeline's stream before the delay stage over a window, with a trial set (R118, R119). -/
def trialWindow (s : State) (c : Nat) (set : CoefSet) (a : Tick) (n : Nat) : List (Int × Int) :=
  let rel := s.stream c
  (List.range n).map (fun i =>
    let t := tadd a i
    (correctU (comp rel false) set s.sys.base t, if s.isComplex then correctU (comp rel true) set s.sys.base t else 0))

/-- Quantities of R121: offset, gain, skew, bandwidth, delay. -/
def quantities : List Nat := [0, 1, 2, 3, 4]

/-- The code of a quantity (R121), the first condition in the order listed that applies; `over` says that the new
coefficient left its legal range. -/
def estCode (s : State) (c : Nat) (e : Config.Estimate) (clipped : Bool) (late : Bool) (q : Nat) : Nat :=
  let pair := s.onBit Fd.ASY_XREF_PAIR c && s.get Fd.ASY_XREF_REF != c
  let masked := if q < 4 then !s.onBit Fd.ASY_CFG_EST_MASK q else !pair
  let refUp := s.chan (s.get Fd.ASY_XREF_REF) = 2
  if clipped then 3
  else if e.lowPower && q != 0 then 1
  else if e.unsteady && (q = 1 || q = 2 || q = 3) then 2
  else if e.flat && q = 2 then 5
  else if e.open_ && q = 2 then 6
  else if q = 4 && !masked && (e.delay.isNone || !refUp) then 7
  else if masked then 8
  else if late then 9
  else 0

/-- Whether a code leaves the quantity's update in force: valid, or saturated and applied at the limit. -/
def codeApplies (k : Nat) : Bool := k = 0 || k = 9

/-- The legal ranges of R116. -/
def clampCoef (k : Coef) : Coef :=
  ⟨clampI (-4096) 4095 k.o, clampI 2097152 6291456 k.g, clampI (-32768) 32767 k.tau, clampI (-8192) 8191 k.b⟩

/-- The unclamped update of a sub-converter (R120). -/
def rawUpdate (e : Config.Estimate) (i : Nat) (k : Coef) : Coef :=
  ⟨k.o + e.dOfs.getD i 0, e.gain.getD i k.g, k.tau - e.dSkew.getD i 0, k.b - e.dBw.getD i 0⟩

/-- The update of a sub-converter for the quantities in force (R120, R121). -/
def updateCoef (codes : List Nat) (e : Config.Estimate) (i : Nat) (k : Coef) : Coef :=
  let u := clampCoef (rawUpdate e i k)
  let on (q : Nat) : Bool := codeApplies (codes.getD q 8)
  ⟨if on 0 then u.o else k.o, if on 1 then u.g else k.g, if on 2 then u.tau else k.tau, if on 3 then u.b else k.b⟩

/-- Whether some sub-converter's update of a quantity leaves its legal range. -/
def updateOver (set : CoefSet) (e : Config.Estimate) (q : Nat) : Bool :=
  if q = 4 then
    let d := (set.dly : Int) - e.delay.getD 0
    decide (d < 0) || decide (16383 < d)
  else set.sub.zipIdx.any (fun k =>
    let r := rawUpdate e k.2 k.1
    let u := clampCoef r
    match q with
    | 0 => r.o != u.o
    | 1 => r.g != u.g
    | 2 => r.tau != u.tau
    | _ => r.b != u.b)

/-- The trial set after an iteration (R120, R122). -/
def updateSet (codes : List Nat) (e : Config.Estimate) (set : CoefSet) : CoefSet :=
  let d := if codeApplies (codes.getD 4 8) then (clampI 0 16383 ((set.dly : Int) - e.delay.getD 0)).toNat else set.dly
  ⟨set.sub.zipIdx.map (fun k => updateCoef codes e k.2 k.1), d⟩

/-- Whether every change of an iteration lies within the limits of R120. -/
def withinLimits (a b : CoefSet) : Bool :=
  (a.sub.zip b.sub).all (fun p =>
    decide ((p.1.o - p.2.o).natAbs ≤ 2) && decide ((p.1.g - p.2.g).natAbs ≤ 16) &&
    decide ((p.1.tau - p.2.tau).natAbs ≤ 16) && decide ((p.1.b - p.2.b).natAbs ≤ 4))

/-- The estimator's answer for a window and a trial set. -/
def estimate (s : State) (c : Nat) (set : CoefSet) (a : Tick) (n : Nat) : Config.Estimate :=
  let pairs (k : Nat) : List (Int × Int) := (windowOf (s.stream (4 + k)) a n).map (fun x => (x.i, x.q))
  Config.estimator s.asyQ ((a - s.sys.base).toNat % max 1 s.asyQ) (set.sub.map Coef.g) (trialWindow s c set a n)
    (pairs (s.get Fd.ASY_XREF_REF)) (pairs c)

/-- The first landing at or after a stream time. -/
def landingFrom (s : State) (t : Tick) : Tick := tceil s.interval t

/-- The window after this one starts: estimating and loading take one landing interval (R133's worked example). -/
def nextWindow (s : State) (r : AsyRun) : Tick :=
  landingFrom s (tadd r.win (2 ^ s.get Fd.ASY_CFG_WIN + s.interval))

/-- Five codes as RESULTc.CODES holds them. -/
def packCodes (codes : List Nat) : Nat := sumL (codes.zipIdx.map (fun k => k.1 * 16 ^ k.2))

/-- The codes that are not 0 are reported (R121). -/
def reportCodes (c : Nat) (codes : List Nat) (s : State) : State :=
  let s1 := s.set (Fd.ASY_RESULT_CODES c) (packCodes codes)
  s1.each codes.zipIdx (fun k s => s.raiseIf (k.1 != 0) 0x0307 [.w4 c, .w4 k.2, .w4 k.1])

/-- SPUR as dB16, 0x8000 where err is 0 (R8, R123). -/
def spurOf (e : Config.Estimate) : Int := match e.spur with
  | some x => satI 16 x
  | none => -32768

/-- The eye widths measured in a run (R124): a lane not ALIGNED reads 0xFF. -/
def setEyes (eyes : List (Nat × Nat)) (s : State) : State :=
  s.each eyes (fun p s =>
    let f : Fld := ⟨0x40100 + 4 * (p.1 / 4), 8 * (p.1 % 4), 8⟩
    s.set f (if s.lane p.1 = 4 then min p.2 64 else 0xFF))

/-- ESTIMATION_ITERATION (R118 to R124): the window in progress has been processed. A flagged window is discarded and
repeated up to 4 times; else the trial coefficients are updated, or the verification window gives SPUR and ends the
estimation. -/
def estimationIteration (eyes : List (Nat × Nat)) (s : State) : State :=
  match s.asy.run with
  | none => s
  | some r =>
    let n := 2 ^ s.get Fd.ASY_CFG_WIN
    let win := windowOf (s.stream r.ch) r.win n
    if r.phase != .cover || r.done || r.abort.isSome || win.length < n then s
    else
      let s0 := setEyes eyes s
      let flags := win.foldl (fun a x => Nat.lor a x.fl) 0
      if flags % 64 != 0 then
        let s1 := reportCodes r.ch [4, 4, 4, 4, 4] s0
        if 4 ≤ r.repeats then asyAbort 3 s1
        else asySetRun { r with repeats := r.repeats + 1, win := nextWindow s r } s1
      else
        let e := estimate s r.ch r.trial r.win n
        let w := trialWindow s r.ch r.trial r.win n
        let full (x : Int) : Bool := x == 32767 || x == -32768
        let clipped := decide (n < 1024 * (w.filter (fun x => full x.1 || (s.isComplex && full x.2))).length)
        if r.verify then
          let e0 := estimate s r.ch (storedSet s r.ch) r.win n
          let s1 := (s0.set (Fd.ASY_QUAL_ITER r.ch) r.iter).set (Fd.ASY_QUAL_SPUR r.ch) (encI 16 (spurOf e))
          let bad := !r.converged && decide (spurOf e0 ≤ spurOf e)
          let codes := if bad then [10, 10, 10, 10, 10] else r.codes
          let s2 := if bad then reportCodes r.ch codes s1 else s1
          asySetRun { r with done := true, codes := codes, spur := spurOf e, spur0 := spurOf e0, win := nextWindow s r } s2
        else
          let codes := quantities.map (fun q => estCode s r.ch e clipped (updateOver r.trial e q) q)
          let new := updateSet codes e r.trial
          let conv := withinLimits r.trial new
          let it := r.iter + 1
          let r1 := { r with iter := it, repeats := 0, trial := new, codes := codes, converged := conv }
          let last := conv || decide (s.get Fd.ASY_CFG_MAXIT ≤ it)
          asySetRun { r1 with win := nextWindow s r, verify := last } (reportCodes r.ch codes s0)

/-- ESTIMATION_ITERATION (R120). -/
def execEstimationIteration (eyes : List (Fin 64 × Nat)) (s : State) : Out :=
  .next (estimationIteration (eyes.map (fun p => (p.1.val, p.2))) s)

/-! ### Gradual application (R134 to R136) -/

/-- C_j = C_old + floor((C_new − C_old)·j/64) (R134). -/
def stepInt (old new : Int) (j : Nat) : Int := old + (new - old) * (j : Int) / 64

/-- The set at step j (R134). -/
def stepSet (old new : CoefSet) (j : Nat) : CoefSet :=
  ⟨(old.sub.zip new.sub).map (fun p =>
      ⟨stepInt p.1.o p.2.o j, stepInt p.1.g p.2.g j, stepInt p.1.tau p.2.tau j, stepInt p.1.b p.2.b j⟩),
    (stepInt old.dly new.dly j).toNat⟩

/-- The stored set of a channel becomes another, and the live path follows where CORR_EN is 1 (R117). -/
def asyStore (c : Nat) (l : Tick) (set : CoefSet) (csid : Nat) (s : State) : State :=
  let s1 := { s with asy := { s.asy with stored := keep s.asy.stored c set } }.set (Fd.ASY_CSID c) csid
  if s.onBit Fd.ASY_CTRL_CORR_EN c then useSet c l set csid s1 else s1

/-- A step of every gradual application lands at L (R134, R135): the log entry stands at step 1, and after step 64 the
flash record is due. -/
def asySteps (l : Tick) (s : State) : State :=
  s.each s.asy.applying (fun a s =>
    if a.step = 0 ∧ tlt l a.first then s
    else
      let j := a.step + 1
      let set := stepSet a.old a.new j
      let s1 := asyStore a.ch l set (a.run % 2 ^ 25 * 128 + j) s
      let a' := if j = 1 then { a with step := j, first := l } else { a with step := j }
      let s2 := if j = 1 then
          asyLog a.ch a.run a.flags l (encI 16 a.spur) a.new (s1.raise 0x0305 [.w4 a.ch, .w4 a.run, .t l])
        else s1
      let rest := s2.asy.applying.filter (fun b => b.ch != a.ch)
      if j = 64 then
        let s3 := { s2 with asy := { s2.asy with applying := rest, toFlash := s2.asy.toFlash ++ [a'] } }
        let s4 := refreshAsy (asyTref a.ch s3)
        if s4.asy.run.isNone && s4.get Fd.ASY_STATUS_CH = a.ch then s4.set Fd.ASY_STATUS_PHASE 0 else s4
      else { s2 with asy := { s2.asy with applying := rest ++ [a'] } })

/-- ASY_FLASH_RECORD_WRITE (R139): the record of the oldest completed application is written over the copy that fails its
check, or over the one with the lower RUN. -/
def execAsyFlashRecordWrite (s : State) : Out :=
  match s.asy.toFlash with
  | [] => .next s
  | a :: rest =>
    let c0 := readCalRecord (s.flashLoad (calCopyAt a.ch 0) 1076)
    let c1 := readCalRecord (s.flashLoad (calCopyAt a.ch 1) 1076)
    let run (x : Nat × Nat × Nat × CoefSet) : Nat := x.2.2.1
    let k := match c0, c1 with
      | none, _ => 0
      | some _, none => 1
      | some x, some y => if run y < run x then 1 else 0
    let bytes := calRecord a.ch s.asyQ a.run a.flags a.first (s.get (Fd.ASY_TREF_DIE a.ch))
      (s.get (Fd.ASY_TREF_CONV a.ch)) (encI 16 a.spur) a.new
    let s1 := { s with asy := { s.asy with toFlash := rest } }.flashStore (calCopyAt a.ch k) bytes
    .next (s1.raise 0x030B [.w4 a.ch, .w4 a.run])

/-- A change of CORR_EN or a return to the identity lands: the live path takes its set, and the log the change (R117,
R136). -/
def asyCorrLand (c : Nat) (l : Tick) (s : State) : State :=
  let csid := s.get (Fd.ASY_CSID c)
  asyLog c (csid / 128) 0 l 0x8000 (liveSet s c) (useSet c l (liveSet s c) csid s)

/-- A write that changes ASY.CFG.Q (R140): every channel returns to the identity set, and the change is logged. -/
def asyQWrite (s : State) : State :=
  s.each [0, 1, 2, 3] (fun c s =>
    let id := CoefSet.identity s.asyQ
    let s1 := { s with asy := { s.asy with stored := keep s.asy.stored c id } }
    asyLog c (s.get (Fd.ASY_CSID c) / 128) 0 s.sys.next 0x8000 id (useSet c s.sys.next id (s.get (Fd.ASY_CSID c)) s1))

/-! ### Start-up (R139) -/

/-- The records are read at start-up: the copy that passes and has the higher RUN waits for the epoch (R139). -/
def asyLoadRecords (s : State) : State :=
  let s1 := s.each [0, 1, 2, 3] (fun c s =>
    let r0 := readCalRecord (s.flashLoad (calCopyAt c 0) 1076)
    let r1 := readCalRecord (s.flashLoad (calCopyAt c 1) 1076)
    let run (x : Nat × Nat × Nat × CoefSet) : Nat := x.2.2.1
    match chooseCopy run r0 r1 with
    | none => s.raise 0x030A [.w4 c, .w4 2, .w4 0xFF]
    | some (k, (_, q, n, set)) =>
      let one := r0.isNone || r1.isNone
      let s2 := s.raiseIf one 0x030A [.w4 c, .w4 1, .w4 (1 - k)]
      if q != s.asyQ then s2.raise 0x030A [.w4 c, .w4 3, .w4 k]
      else { s2 with asy := { s2.asy with loadDue := s2.asy.loadDue ++ [(c, set, n)] } })
  let top := maxL (s1.asy.loadDue.map (fun d => d.2.2 + 1))
  s1.set Fd.ASY_RUN_NO top

/-- At an epoch the loaded sets and the live sets take effect from its first sample (R139); sets in effect before belong
to an earlier count of stream time. -/
def asyEpoch (e : Tick) (s : State) : State :=
  let s0 := { s with dsp := { s.dsp with coefs := [], corNext := [(0, e), (1, e), (2, e), (3, e)] } }
  let due := s.asy.loadDue
  let s1 := s0.each due (fun d s =>
    { s with asy := { s.asy with stored := keep s.asy.stored d.1 d.2.1 } }.set (Fd.ASY_CSID d.1) (d.2.2 % 2 ^ 25 * 128 + 64))
  let s2 := { s1 with asy := { s1.asy with loadDue := [] } }
  let s3 := s2.each [0, 1, 2, 3] (fun c s => useSet c e (liveSet s c) (s.get (Fd.ASY_CSID c)) s)
  s3.each due (fun d s => asyLog d.1 d.2.2 0 e 0x8000 d.2.1 s)

/-! ### Landings (R126 to R134) -/

/-- The temperature rule at a landing (R127). -/
def asyTempRule (s : State) : State :=
  if !s.on Fd.ASY_CTRL_AUTO_TEMP then s
  else
    let th : Nat := s.get Fd.ASY_TEMP_THRESH
    let moved (a b : Int) : Bool := decide (th < (a - b).natAbs)
    s.each (enabledChans s) (fun c s =>
      let die := s.get (Fd.ASY_TREF_DIE c) != 0x8000 && moved (s.getI Fd.AGE_TDIE) (s.getI (Fd.ASY_TREF_DIE c))
      let conv := s.get (Fd.ASY_TREF_CONV c) != 0x8000 && s.get (Fd.ASY_CONV_TEMP c) != 0x8000 &&
        moved (s.getI (Fd.ASY_CONV_TEMP c)) (s.getI (Fd.ASY_TREF_CONV c))
      if die || conv then asyRequest c s else s)

/-- At a decision point a started run becomes due (R130). -/
def asyDecide (s : State) : State :=
  { s with asy := { s.asy with run := s.asy.run.map (fun r => { r with due := true }) } }

/-- The run returns at Lr (R130, R134): it aborts if it was asked to, else its changes are applied from the next landing
on; CHS is free. -/
def asyReturn (r : AsyRun) (l : Tick) (s : State) : State :=
  let s1 := endFlag r.ch Df.sby l (s.raise 0x0303 [.w4 r.ch, .t l])
  match r.abort with
  | some reason => asyAbortNow reason true s1
  | none =>
    let run := s1.get Fd.ASY_RUN_NO
    let old := storedSet s1 r.ch
    let ch (q : Nat) : Bool := codeApplies (r.codes.getD q 8)
    let some_ (f : Coef → Int) : Bool := (old.sub.zip r.trial.sub).any (fun p => f p.1 != f p.2)
    let flags := b2n (ch 0 && some_ Coef.o) + 2 * b2n (ch 1 && some_ Coef.g) + 4 * b2n (ch 2 && some_ Coef.tau) +
      8 * b2n (ch 3 && some_ Coef.b) + 16 * b2n (ch 4 && old.dly != r.trial.dly)
    let s2 := (s1.set Fd.ASY_RUN_NO (run + 1)).set Fd.ASY_STATUS_CHS_OWNER 0
    if flags = 0 then asyEnd true (s2.set (Fd.ASY_RESULT_OUTCOME r.ch) 3)
    else
      let a : AsyApply := ⟨r.ch, run, old, r.trial, 0, tadd l s2.interval, flags, r.spur⟩
      let s3 := { s2 with asy := { s2.asy with run := none, applying := s2.asy.applying ++ [a] } }
      asyQueue true (refreshAsy ((s3.set Fd.ASY_STATUS_PHASE 6).set (Fd.ASY_RESULT_OUTCOME r.ch) 1))

/-- The phase of the run at landing L (R130). `hist` is HISTc. -/
def asyRunLand (l : Tick) (hist : Nat) (s : State) : State :=
  match s.asy.run with
  | none => s
  | some r =>
    match r.phase with
    | .idle =>
      if r.due then asySetRun { r with phase := .shadow, since := l } (s.raise 0x0301 [.w4 r.ch, .t l]) else s
    | .shadow => if tle (tadd r.since hist) l then asySetRun { r with phase := .compare, since := l } s else s
    | .compare =>
      if tle (tadd r.since s.interval) l then
        flagFrom r.ch l Df.sby (asySetRun { r with phase := .cover, since := l, win := l } (s.raise 0x0302 [.w4 r.ch, .t l]))
      else s
    | .cover =>
      if (r.abort.isSome && s.age.takeovers.isEmpty) || (r.done && tle r.win l) then
        asySetRun { r with phase := .retShadow, since := l } s
      else s
    | .retShadow => if tle (tadd r.since hist) l then asySetRun { r with phase := .retCompare, since := l } s else s
    | .retCompare => if tle (tadd r.since s.interval) l then asyReturn r l s else s
    | .apply => s

/-! ### Front-end faults during a run (R133) -/

/-- A front end of channel d faults (R133, R582): answers whether the replay takeover of d proceeds. A run that CHS only
shadowed or compared is queued again. -/
def asyFrontEndFault (d : Nat) (s : State) : State × Bool :=
  let requeue (r : AsyRun) : State := (asyDrop 5 s).setB Fd.ASY_STATUS_QUEUED r.ch
  match s.asy.run with
  | none => (s, true)
  | some r =>
    match r.phase with
    | .idle => (requeue r, true)
    | .shadow => (requeue r, true)
    | .compare => (requeue r, true)
    | .apply => (s, true)
    | _ =>
      if d = r.ch then (asyDrop 6 s, false)
      else ((asySetRun { r with abort := some 5 } s).setB Fd.ASY_STATUS_QUEUED r.ch, true)

/-- CHS faults while a run holds it (R133, reason 6): its channel is fed by its own pipeline again. -/
def asyChsFault (t : Tick) (s : State) : State :=
  match s.asy.run with
  | none => s
  | some r => endFlag r.ch Df.sby t (asyDrop 6 s)

/-- SAT_CLEAR of ASY (R141): every SATc is cleared. -/
def asySatClear (s : State) : State := s.each [0, 1, 2, 3] (fun c s => s.set (Fd.ASY_SAT c) 0)

end Sys2Proof.Machine
end

