-- ==== Sys2Proof/Machine/CykCode.lean ====
section
/-! DEFINITION. The Cykin instructions and their words (R428 to R431, R434 to R445): the decoder a core applies to an
instruction memory word, and the encoder it is checked against. -/

namespace Sys2Proof.Machine

/-- A memory operand (R406, R430): [An], or [An]+Mm with PM = 1. -/
structure CykMem where
  an : Fin 8
  mm : Option (Fin 8)
deriving DecidableEq, Repr

/-- The functions of VOP (R440). -/
inductive VopFn where
  | add | sub | adds | subs | sra | conj | cmuls | mov | swap
deriving DecidableEq, Repr

/-- The functions of ALUA (R438). -/
inductive AluFn where
  | add | sub | and | or | xor | sll | srl | sra
deriving DecidableEq, Repr

/-- A Cykin instruction with its fields. An address or modifier register is named by 8·S + its number (R429). -/
inductive CykInstr where
  | halt | nop | trap | reti | di | ei
  | br (t : BitVec 14)
  | call (r : Fin 16) (t : BitVec 14)
  | bz (r : Fin 16) (t : BitVec 14)
  | bnz (r : Fin 16) (t : BitVec 14)
  | bltz (r : Fin 16) (t : BitVec 14)
  | jr (r : Fin 16)
  | loop (cnt : BitVec 12) (le : BitVec 14)
  | loopr (an : Fin 8) (le : BitVec 14)
  | mvi (r : Fin 16) (imm : BitVec 16)
  | mvih (r : Fin 16) (imm : BitVec 16)
  | addi (r : Fin 16) (imm : BitVec 16)
  | alua (fn : AluFn) (rd ra rb : Fin 16)
  | mvts (r : Fin 16) (sreg : Fin 9)
  | mvfs (r : Fin 16) (sreg : Fin 9)
  | mvda (r : Fin 16) (d : Fin 16)
  | mvad (d : Fin 16) (r : Fin 16)
  | ld (d : Fin 16) (m : CykMem)
  | ldr (d : Fin 16) (m : CykMem)
  | st (d : Fin 16) (m : CykMem)
  | lda (r : Fin 16) (m : CykMem)
  | sta (r : Fin 16) (m : CykMem)
  | cyc (r : Fin 16)
  | vop (fn : VopFn) (dd da db : Fin 16) (sh : Fin 16)
  | ldac (ac : Fin 4) (da : Fin 16) (add u : Bool) (s : Fin 32)
  | mac (ac : Fin 4) (da db : Fin 16) (cj neg : Bool)
  | clr (ac : Fin 4)
  | ftap (ac : Fin 4) (aa ma ab mb : Fin 8) (cj : Bool)
  | mv (d : Fin 16) (ac : Fin 4) (s : Fin 32)
  | satmv (d : Fin 16) (ac : Fin 4) (s : Fin 32)
  | pop (an : Fin 8) (r : Fin 4)
  | free (r : Fin 4)
  | post (an : Fin 8)
  | tpost (m : Fin 8) (an : Fin 8) (p : Bool)
deriving DecidableEq, Repr

namespace CykCode

/-- A field of `w` bits from bit `lo` on. -/
def fld (n lo w : Nat) : Nat := n / 2 ^ lo % 2 ^ w

/-- One or zero. -/
def flag (b : Bool) : Nat := if b then 1 else 0

/-- An opcode in bits [31:26]. -/
def op (o : Nat) : Nat := o * 67108864

/-- An S bit and register field in bits [25:22]. -/
def regHi (r : Fin 16) : Nat := r.val * 4194304

/-- The An, Mm and PM fields of a memory operand (R430). -/
def memFields (m : CykMem) : Nat :=
  m.an.val * 524288 + (match m.mm with
    | none => 0
    | some k => k.val * 65536 + 32768)

/-- The FN number of a VOP function (R440). -/
def vopNum : VopFn → Nat
  | .add => 0
  | .sub => 1
  | .adds => 2
  | .subs => 3
  | .sra => 4
  | .conj => 5
  | .cmuls => 6
  | .mov => 7
  | .swap => 8

/-- The VOP function of an FN number; 9 to 15 are unassigned (R440). -/
def vopOf : Nat → Option VopFn
  | 0 => some .add
  | 1 => some .sub
  | 2 => some .adds
  | 3 => some .subs
  | 4 => some .sra
  | 5 => some .conj
  | 6 => some .cmuls
  | 7 => some .mov
  | 8 => some .swap
  | _ => none

/-- The FN number of an ALUA function (R438). -/
def aluNum : AluFn → Nat
  | .add => 0
  | .sub => 1
  | .and => 2
  | .or => 3
  | .xor => 4
  | .sll => 5
  | .srl => 6
  | .sra => 7

/-- The ALUA function of an FN number (R438). -/
def aluOf : Nat → Option AluFn
  | 0 => some .add
  | 1 => some .sub
  | 2 => some .and
  | 3 => some .or
  | 4 => some .xor
  | 5 => some .sll
  | 6 => some .srl
  | 7 => some .sra
  | _ => none

/-- Whether a VOP function takes Db (R440). -/
def vopBinary : VopFn → Bool
  | .add => true
  | .sub => true
  | .adds => true
  | .subs => true
  | .cmuls => true
  | _ => false

end CykCode

open CykCode

/-- The word of an instruction (R428 to R431). -/
def encodeCyk : CykInstr → Nat
  | .halt => 0
  | .nop => op 0x01
  | .trap => op 0x02
  | .reti => op 0x03
  | .di => op 0x04
  | .ei => op 0x05
  | .br t => op 0x06 + t.toNat
  | .call r t => op 0x07 + regHi r + t.toNat
  | .bz r t => op 0x08 + regHi r + t.toNat
  | .bnz r t => op 0x09 + regHi r + t.toNat
  | .bltz r t => op 0x0A + regHi r + t.toNat
  | .loop cnt le => op 0x0B + cnt.toNat * 16384 + le.toNat
  | .loopr an le => op 0x0C + an.val * 4194304 + le.toNat
  | .jr r => op 0x0D + regHi r
  | .mvi r imm => op 0x10 + regHi r + imm.toNat
  | .mvih r imm => op 0x11 + regHi r + imm.toNat
  | .addi r imm => op 0x12 + regHi r + imm.toNat
  | .alua fn rd ra rb => op 0x13 + regHi rd + ra.val * 262144 + rb.val * 16384 + aluNum fn * 2048
  | .mvts r sreg => op 0x14 + regHi r + sreg.val * 262144
  | .mvfs r sreg => op 0x15 + regHi r + sreg.val * 262144
  | .mvda r d => op 0x16 + regHi r + d.val * 262144
  | .mvad d r => op 0x17 + d.val * 4194304 + r.val * 262144
  | .ld d m => op 0x20 + d.val * 4194304 + memFields m
  | .ldr d m => op 0x21 + d.val * 4194304 + memFields m
  | .st d m => op 0x22 + d.val * 4194304 + memFields m
  | .lda r m => op 0x23 + regHi r + memFields m
  | .sta r m => op 0x24 + regHi r + memFields m
  | .tpost m an p => op 0x2E + an.val * 4194304 + m.val * 256 + flag p
  | .cyc r => op 0x2F + regHi r
  | .vop fn dd da db sh => op 0x30 + dd.val * 4194304 + da.val * 262144 + db.val * 16384 + vopNum fn * 1024 + sh.val
  | .ldac ac da add u s => op 0x37 + ac.val * 16777216 + da.val * 262144 + flag add * 8192 + flag u * 4096 + s.val
  | .mac ac da db cj neg => op 0x38 + ac.val * 16777216 + da.val * 262144 + db.val * 16384 + flag cj * 8192 + flag neg * 4096
  | .clr ac => op 0x39 + ac.val * 16777216
  | .ftap ac aa ma ab mb cj => op 0x3A + ac.val * 16777216 + aa.val * 2097152 + ma.val * 262144 + ab.val * 32768 +
      mb.val * 4096 + flag cj * 2048
  | .mv d ac s => op 0x3B + d.val * 4194304 + ac.val * 1048576 + s.val
  | .satmv d ac s => op 0x3C + d.val * 4194304 + ac.val * 1048576 + s.val
  | .pop an r => op 0x3D + an.val * 4194304 + r.val
  | .free r => op 0x3E + r.val
  | .post an => op 0x3F + an.val * 4194304

namespace CykCode

/-- A 4-bit field at `lo`. -/
def f4 (w lo : Nat) : Fin 16 := ⟨fld w lo 4, Nat.mod_lt _ (by decide)⟩

/-- A 3-bit field. -/
def f3 (w lo : Nat) : Fin 8 := ⟨fld w lo 3, Nat.mod_lt _ (by decide)⟩

/-- A 2-bit field. -/
def f2 (w lo : Nat) : Fin 4 := ⟨fld w lo 2, Nat.mod_lt _ (by decide)⟩

/-- A 5-bit field. -/
def f5 (w lo : Nat) : Fin 32 := ⟨fld w lo 5, Nat.mod_lt _ (by decide)⟩

/-- A one-bit field. -/
def f1 (w lo : Nat) : Bool := fld w lo 1 = 1

/-- The target or LE field. -/
def tgt (w : Nat) : BitVec 14 := BitVec.ofNat 14 w

/-- The immediate. -/
def imm (w : Nat) : BitVec 16 := BitVec.ofNat 16 w

/-- The memory operand of formats MD and MA. -/
def memOf (w : Nat) : CykMem := ⟨f3 w 19, if f1 w 15 then some (f3 w 16) else none⟩

/-- The special register of format X; 9 to 15 are unassigned (R437). -/
def sregOf (w : Nat) : Option (Fin 9) := if h : fld w 18 4 < 9 then some ⟨fld w 18 4, h⟩ else none

/-- The instruction that a word's opcode and fields name, whatever its reserved bits hold. -/
def fieldsOf (w : Nat) : Option CykInstr :=
  let r := f4 w 22
  match w / 67108864 with
  | 0x00 => some .halt
  | 0x01 => some .nop
  | 0x02 => some .trap
  | 0x03 => some .reti
  | 0x04 => some .di
  | 0x05 => some .ei
  | 0x06 => some (.br (tgt w))
  | 0x07 => some (.call r (tgt w))
  | 0x08 => some (.bz r (tgt w))
  | 0x09 => some (.bnz r (tgt w))
  | 0x0A => some (.bltz r (tgt w))
  | 0x0B => some (.loop (BitVec.ofNat 12 (fld w 14 12)) (tgt w))
  | 0x0C => some (.loopr (f3 w 22) (tgt w))
  | 0x0D => some (.jr r)
  | 0x10 => some (.mvi r (imm w))
  | 0x11 => some (.mvih r (imm w))
  | 0x12 => some (.addi r (imm w))
  | 0x13 => (aluOf (fld w 11 3)).map (fun fn => .alua fn r (f4 w 18) (f4 w 14))
  | 0x14 => (sregOf w).map (fun s => .mvts r s)
  | 0x15 => (sregOf w).map (fun s => .mvfs r s)
  | 0x16 => some (.mvda r (f4 w 18))
  | 0x17 => some (.mvad r (f4 w 18))
  | 0x20 => some (.ld r (memOf w))
  | 0x21 => some (.ldr r (memOf w))
  | 0x22 => some (.st r (memOf w))
  | 0x23 => some (.lda r (memOf w))
  | 0x24 => some (.sta r (memOf w))
  | 0x2E => some (.tpost (f3 w 8) (f3 w 22) (f1 w 0))
  | 0x2F => some (.cyc r)
  | 0x30 => (vopOf (fld w 10 4)).map (fun fn => .vop fn r (f4 w 18) (f4 w 14) (f4 w 0))
  | 0x37 => some (.ldac (f2 w 24) (f4 w 18) (f1 w 13) (f1 w 12) (f5 w 0))
  | 0x38 => some (.mac (f2 w 24) (f4 w 18) (f4 w 14) (f1 w 13) (f1 w 12))
  | 0x39 => some (.clr (f2 w 24))
  | 0x3A => some (.ftap (f2 w 24) (f3 w 21) (f3 w 18) (f3 w 15) (f3 w 12) (f1 w 11))
  | 0x3B => some (.mv r (f2 w 20) (f5 w 0))
  | 0x3C => some (.satmv r (f2 w 20) (f5 w 0))
  | 0x3D => some (.pop (f3 w 22) (f2 w 0))
  | 0x3E => some (.free (f2 w 0))
  | 0x3F => some (.post (f3 w 22))
  | _ => none

end CykCode

/-- Whether the operands keep the limits that the format gives beside the widths of its fields: a VOP function without
Db holds 0 there, and SH is 0 but for SRA (R440). -/
def CykInstr.wf : CykInstr → Bool
  | .vop fn _ _ db sh => (vopBinary fn || db == 0) && (fn == .sra || sh == 0)
  | _ => true

/-- The instruction of a word, none where its encoding is unassigned (R428): its opcode is listed, its enumerated fields
hold listed values, and every bit that the format marks 0 is 0. -/
def decodeCyk (w : Nat) : Option CykInstr :=
  match fieldsOf w with
  | none => none
  | some i => if encodeCyk i = w ∧ i.wf = true then some i else none

/-- Whether an instruction is a control transfer (R435). -/
def CykInstr.transfer : CykInstr → Bool
  | .br _ => true
  | .call _ _ => true
  | .bz _ _ => true
  | .bnz _ _ => true
  | .bltz _ _ => true
  | .jr _ => true
  | .loop _ _ => true
  | .loopr _ _ => true
  | .trap => true
  | .reti => true
  | _ => false

end Sys2Proof.Machine
end

