-- ==== Sys2Proof/Machine/Spectral.lean ====
section
/-! DEFINITION. The spectral engine (R170 to R198): frames on stream time, windows, the scaled transform, levels in dB16,
columns, traces and their records. A frame is a function of its stamp, its run and the input history. -/

namespace Sys2Proof.Machine

/-! ### Windows (R179, R180) -/

/-- A decimal-coefficient cosine-sum window at k/65,536: coefficients in units of 10^−9, signs alternating, floored with
18 fraction bits. -/
def cosSumWin (a : List Int) (k : Nat) : Int :=
  let sum := (a.zipIdx.map (fun p =>
    let c := cosFix 65536 (p.2 * k)
    if p.2 % 2 = 0 then p.1 * c else -(p.1 * c))).foldl (· + ·) 0
  sum * 262144 / (1000000000 * ((2 ^ 100 : Nat) : Int))

/-- A Kaiser window at k/65,536 with 18 fraction bits: (x/2)² is β²·k·(65,536 − k)/65,536² (R179). -/
def kaiserWin (beta k : Nat) : Int :=
  ((bessel0 (beta * beta * k * (65536 - k)) (65536 * 65536) * 262144 / bessel0 (beta * beta) 4 : Nat) : Int)

/-- Base-length coefficient k of a built-in window (R179). -/
def builtinWin (win k : Nat) : Int :=
  match win with
  | 0 => 262144
  | 1 => cosSumWin [500000000, 500000000] k
  | 2 => cosSumWin [358750000, 488290000, 141280000, 11680000] k
  | 3 => cosSumWin [215578950, 416631580, 277263158, 83578947, 6947368] k
  | w => kaiserWin (2 * (w - 3)) k

/-- CGC of a built-in window (R179). -/
def builtinCgc (win : Nat) : Int :=
  ([0, 770, 1139, 1705, 253, 561, 770, 923, 1043, 1142, 1227, 1300] : List Int).getD win 0

/-- Word k of a user window memory (R180). -/
def userWin (mem : List (Nat × Word)) (k : Nat) : Int :=
  coef20 (Assoc.get 0#32 mem (if k ≤ 32768 then k else 65536 - k)).toNat

/-- Coefficient for sample i of a frame of a run (R179, R180). -/
def frameWin (g : SpxSeg) (i : Nat) : Int :=
  let k := i * 2 ^ (16 - g.log2n)
  if g.win = 12 then userWin g.uwin k else builtinWin g.win k

/-! ### The transform (R181 to R183) -/

/-- sat26 of both components, with the number limited (R181). -/
def sat26 (x : Cx) : Cx × Nat :=
  let a := satI 26 x.1
  let b := satI 26 x.2
  ((a, b), b2n (a != x.1) + b2n (b != x.2))

/-- C[m] and S[m] of R181. -/
def twiddle (m : Nat) : Cx := (cosFloor 131071 65536 m, sinFloor 131071 65536 m)

/-- The butterflies of one block at stage i: the sums, the twiddled differences, and the components limited (R181). -/
def butterflies (log2n i shift : Nat) : Nat → List Cx → List Cx → List Cx × List Cx × Nat
  | k, u :: us, v :: vs =>
    let t := twiddle (k * 2 ^ (i + 16 - log2n))
    let d : Cx := (u.1 - v.1, u.2 - v.2)
    let a := sat26 (sar (u.1 + v.1) shift, sar (u.2 + v.2) shift)
    let b := sat26 (sar (d.1 * t.1 + d.2 * t.2) (17 + shift), sar (d.2 * t.1 - d.1 * t.2) (17 + shift))
    let r := butterflies log2n i shift (k + 1) us vs
    (a.1 :: r.1, b.1 :: r.2.1, a.2 + b.2 + r.2.2)
  | _, _, _ => ([], [], 0)

/-- Stages i to LOG2N − 1 of the decimation in frequency on one block; the result stands in bit-reversed order
(R181). -/
def difStages (log2n sched : Nat) : Nat → Nat → List Cx → List Cx × Nat
  | 0, _, z => (z, 0)
  | m + 1, i, z =>
    let half := z.length / 2
    let r := butterflies log2n i (bits sched (2 * i) 2) 0 (z.take half) (z.drop half)
    let a := difStages log2n sched m (i + 1) r.1
    let b := difStages log2n sched m (i + 1) r.2.1
    (a.1 ++ b.1, r.2.2 + a.2 + b.2)

/-- The low n bits of f reversed. -/
def bitRev : Nat → Nat → Nat
  | 0, _ => 0
  | n + 1, f => f % 2 * 2 ^ n + bitRev n (f / 2)

/-- S: the sum of the scaling shifts of the stages used (R181). -/
def schedSum (log2n sched : Nat) : Nat := sumL ((List.range log2n).map (fun i => bits sched (2 * i) 2))

/-- The stream key of a run's input (R170). -/
def spxKey (c src : Nat) : Nat := if src = 0 then 4 + c else 8 + c

/-- The input sample of a run at a stamp; zero from its cut on (R175, R615). -/
def spxIn (l : List Samp) (g : SpxSeg) (t : Tick) : Cx :=
  if g.cut.any (fun x => tle x t) then (0, 0)
  else match sampAt l t with
    | some x => (x.i, x.q)
    | none => (0, 0)

/-- Stamp of frame k (R171). -/
def frameStamp (g : SpxSeg) (k : Nat) : Tick := tadd g.anchor (k * (2 ^ g.log2n / 2 ^ g.ovl) * g.p)

/-- Stamp of the last sample of a frame stamped t. -/
def frameEnd (g : SpxSeg) (t : Tick) : Tick := tadd t ((2 ^ g.log2n - 1) * g.p)

/-- The frame of a run stamped t, with the components limited (R172, R181 to R184). -/
def computeFrame (s : State) (c : Nat) (g : SpxSeg) (t : Tick) : Frame × Nat :=
  let n := 2 ^ g.log2n
  let l := s.stream (spxKey c g.src)
  let z := (List.range n).map (fun i =>
    let x := spxIn l g (tadd t (i * g.p))
    let w := frameWin g i
    (x.1 * w / 2048, x.2 * w / 2048))
  let r := difStages g.log2n g.sched g.log2n 0 z
  let pow (f : Nat) : Nat :=
    let x := r.1.getD (bitRev g.log2n f) (0, 0)
    (x.1 * x.1 + x.2 * x.2).toNat
  let bins := (List.range n).map (fun j => pow ((j + n - n / 2) % n))
  let e := frameEnd g t
  let tail := if g.cut.any (fun x => tle x e && tlt t x) then mkTail else 0
  let mk := Nat.lor (Nat.lor (marksIn l t e) tail) (if 0 < r.2 then mkOvf else 0)
  (⟨t, g.log2n, g.win, g.ovl, g.src, g.nddc, g.p, g.cgc, schedSum g.log2n g.sched, flagsIn l t e, mk, bins⟩, r.2)

/-! ### Levels (R8, R185) -/

/-- LOG2TAB[mt] = floor(4,096·log2(1 + mt/4,096)), exact: the floor of a logarithm of a 4,096th power (R185, R612). -/
def log2tab (mt : Nat) : Int := (Nat.log2 ((4096 + mt) ^ 4096) : Int) - 49152

/-- A linear power as dB16 (R185). -/
def toDb16 (v shift log2n : Nat) (cgc : Int) : Int :=
  if v = 0 then -32768
  else
    let e := Nat.log2 v
    let mt := (v - 2 ^ e) * 4096 / 2 ^ e
    let d : Int := (shift : Int) - log2n
    let l2 := ((e : Int) - 44 + 2 * d) * 4096 + log2tab mt
    satI 16 (l2 * 1578225 / 16777216 + cgc)

/-! ### Columns (R189) -/

/-- The bins of a list from lo to hi. -/
def binsOf (p : List Nat) (lo hi : Nat) : List Nat := (p.drop lo).take (hi + 1 - lo)

/-- A detector over the bins of a column (R189): 0 PEAKP, 1 PEAKN, 2 SAMPLE, 3 AVGP, 4 RMS. -/
def detect (det : Nat) (b : List Nat) : Nat :=
  match det with
  | 0 => maxL b
  | 1 => (minN? b).getD 0
  | 2 => b.getD (b.length / 2) 0
  | 3 => sumL b / b.length
  | _ => sumL b

/-- The column values of a frame (R189). -/
def columns (p : List Nat) (jstart jspan cols det : Nat) : List Nat :=
  (List.range cols).map (fun q =>
    let lo := jstart + q * jspan / cols
    let hi := max lo (jstart + (q + 1) * jspan / cols - 1)
    detect det (binsOf p lo hi))

/-! ### Traces (R190 to R194) -/

/-- The key of trace t of channel c. -/
def trKey (c t : Nat) : Nat := 4 * c + t

/-- A trace that holds nothing. -/
def TraceSt.empty : TraceSt := ⟨0, 0, 0, none, [], [], 0, 0, 0, 0, none, []⟩

/-- The trace's state. -/
def State.trace (s : State) (c t : Nat) : TraceSt := look TraceSt.empty s.spx.traces (trKey c t)

/-- A trace's state replaced. -/
def setTrace (c t : Nat) (x : TraceSt) (s : State) : State :=
  { s with spx := { s.spx with traces := keep s.spx.traces (trKey c t) x } }

/-- The BAR0 offset of a register of trace t of channel c. -/
def trAt (c t x : Nat) : Nat := 0x60100 + 0x400 * c + 0x40 * t + x

/-- A list padded to a multiple of m. -/
def padTo {α : Type} (m : Nat) (d : α) (l : List α) : List α := l ++ List.replicate ((m - l.length % m) % m) d

/-- The span on which frames from a to b of a channel rest (R172). -/
def frameSpan (f : Frame) (a b : Tick) : Tick × Tick :=
  let g := if f.src = 1 then ddcDelay f.nddc else 0
  (tsub a g, tadd b ((2 ^ f.log2n - 1) * f.p + g))

/-- Whether a step of R134 landed within a span, not at its first tick (R193). -/
def stepWithin (s : State) (c : Nat) (a b : Tick) : Bool :=
  (look [] s.dsp.coefs c).any (fun p => tlt a p.since && tle p.since b && p.csid % 128 != 0)

/-- The bytes of a spectrum record (R193). -/
def spectrumRecord (s : State) (c t : Nat) (x : TraceSt) (f : Frame) (short : Bool) (vals : List Int) : List Byte :=
  let g (fd : Fld) : Nat := s.getAt x.tFirst fd
  let mode := g (Fd.TR_TCTRL_MODE c t)
  let held := decide (2 ≤ mode)
  let span := frameSpan f x.tFirst x.tLast
  let marks := Nat.lor x.marks (b2n short * 8 + b2n (stepWithin s c span.1 span.2) * 16)
  let cfg := f.log2n + f.win * 32 + f.ovl * 512 + g (Fd.TR_TCTRL_DET c t) * 4096 + mode * 32768 + f.src * 262144 +
    (if f.src = 1 then f.nddc else 0) * 524288 + g (Fd.TR_TCTRL_AEXP c t) * 8388608
  let head := le 4 0x52585053 ++ le 1 1 ++ le 1 (c + 4 * t) ++ le 1 (if held then x.accFl else x.grpFl) ++ le 1 marks ++
    le 8 x.tFirst.toNat ++ le 8 x.tLast.toNat ++ le 8 (if held then (x.tAcc.getD x.tFirst).toNat else x.tFirst.toNat) ++
    le 4 (s.get (Fd.TR_RSEQ c t)) ++ le 4 cfg ++ le 2 vals.length ++ le 2 x.nfr ++
    le 4 (g (Fd.TR_JSTART c t) + (g (Fd.TR_JSPAN c t) - 1) * 65536) ++ le 4 (csidAt s c x.tFirst) ++
    le 2 (encI 16 f.cgc) ++ le 2 f.shift ++ le 4 0
  let body := (padTo 32 (-32768 : Int) vals).flatMap (fun v => le 2 (encI 16 v))
  head ++ le 4 (crc32c (head ++ body)) ++ body

/-- A record is written into the trace's ring (R194): a full ring loses its oldest unread record. -/
def traceRingWrite (c t : Nat) (rec' : List Byte) (s : State) : State :=
  let slots := max 2 (s.get (Fd.TR_RING_SLOTS c t))
  let wr := s.get (Fd.TR_WR c t)
  let rd := s.get (Fd.TR_RD c t)
  let unread := (wr + slots - rd) % slots
  let rseq := s.get (Fd.TR_RSEQ c t)
  let s1 := if unread = slots - 1 then
      ((s.set (Fd.TR_RD c t) ((rd + 1) % slots)).bump (Fd.TR_LOST c t)).raisePerLanding (trKey c t) 0x0507
        [.w4 c, .w4 t, .w4 (encI 32 ((rseq : Int) - (slots - 1 : Nat)))]
    else s
  let s2 := s1.store (s1.rd64 (trAt c t 0x14) + 8256 * wr) rec'
  (s2.set (Fd.TR_WR c t) ((wr + 1) % slots)).count (Fd.TR_RSEQ c t)

/-- A trace's group ends and its record is written; a group without a frame writes none (R190 to R194). -/
def traceClose (c t : Nat) (short : Bool) (s : State) : State :=
  let x := s.trace c t
  match x.frame with
  | none => s
  | some f =>
    let mode := s.getAt x.tFirst (Fd.TR_TCTRL_MODE c t)
    let lin : List Nat := match mode with
      | 0 => x.grp
      | 1 => x.grp.map (fun v => v / x.nfr)
      | _ => x.acc.map Int.toNat
    let vals := lin.map (fun v => toDb16 v f.shift f.log2n f.cgc)
    let fl := if mode < 2 then x.grpFl else x.accFl
    let bytes := spectrumRecord s c t x f short vals
    let span := frameSpan f x.tFirst x.tLast
    let r : SpecRec := ⟨x.tFirst, x.tLast, fl, x.marks, span.1, span.2, bytes⟩
    let s0 := { s with spx := { s.spx with recs := keep s.spx.recs (trKey c t) (r :: look [] s.spx.recs (trKey c t)) } }
    let s1 := stick fl x.tFirst (traceRingWrite c t bytes s0)
    setTrace c t { x with nfr := 0, grp := [], grpFl := 0, marks := 0, frame := none } s1

/-- A trace starts afresh: its group ends early and its accumulation is cleared (R191, R192). -/
def traceBreak (c t : Nat) (s : State) : State :=
  let s1 := traceClose c t true s
  let x := s1.trace c t
  setTrace c t { x with acc := [], accFl := 0, tAcc := none } s1

/-- A frame is reduced by a trace (R189 to R191). -/
def traceReduce (c t : Nat) (f : Frame) (s : State) : State :=
  let g (fd : Fld) : Nat := s.getAt f.t fd
  if g (Fd.TR_TCTRL_EN c t) = 0 then s
  else
    let x := s.trace c t
    let p := columns f.bins (g (Fd.TR_JSTART c t)) (g (Fd.TR_JSPAN c t)) (g (Fd.TR_COLS c t)) (g (Fd.TR_TCTRL_DET c t))
    let mode := g (Fd.TR_TCTRL_MODE c t)
    let pInt : List Int := p.map Int.ofNat
    let grp := if mode = 1 ∧ x.nfr ≠ 0 then (x.grp.zip p).map (fun v => v.1 + v.2) else p
    let acc := if x.tAcc.isNone then pInt else (x.acc.zip pInt).map (fun v =>
      match mode with
      | 2 => v.1 + sar (v.2 - v.1) (g (Fd.TR_TCTRL_AEXP c t))
      | 3 => max v.1 v.2
      | 4 => min v.1 v.2
      | _ => v.2)
    let x1 : TraceSt := { x with
      nfr := x.nfr + 1
      tFirst := if x.nfr = 0 then f.t else x.tFirst
      tLast := f.t
      tAcc := some (x.tAcc.getD f.t)
      grp := grp
      acc := acc
      grpFl := Nat.lor x.grpFl f.fl
      accFl := Nat.lor x.accFl f.fl
      marks := Nat.lor x.marks f.marks
      frame := some (x.frame.getD f) }
    let s1 := setTrace c t x1 s
    if g (Fd.TR_FDEC c t) ≤ x1.nfr then traceClose c t false s1 else s1

/-! ### Runs -/

/-- The runs of a channel, newest first. -/
def State.spxSegs (s : State) (c : Nat) : List SpxSeg := look [] s.spx.segs c

/-- Whether a spectral channel runs: a run without a stop. -/
def spxRunning (s : State) (c : Nat) : Bool := (s.spxSegs c).any (fun g => g.stop.isNone)

/-- Whether some frame of a run is still to be delivered before its stop. -/
def segPending (g : SpxSeg) : Bool := !(g.stop.any (fun l => tle l (frameStamp g g.k)))

/-- The stamp of the next undelivered frame of a channel. -/
def nextFrame (s : State) (c : Nat) : Option Tick :=
  ((s.spxSegs c).reverse.find? segPending).map (fun g => frameStamp g g.k)

/-- The landings at which a trace starts afresh take effect once no undelivered frame is stamped before them (R190,
R192). -/
def traceSettle (c t : Nat) : Nat → State → State
  | 0, s => s
  | n + 1, s =>
    let x := s.trace c t
    match x.brk with
    | [] => s
    | l :: rest =>
      let due := match nextFrame s c with
        | none => true
        | some f => tle l f
      if due then traceSettle c t n (traceBreak c t (setTrace c t { x with brk := rest } s)) else s

/-- Every trace of a channel settles, and QUIESCENT sets once a stopped channel has delivered its frames (R174). -/
def spxSettle (c : Nat) (s : State) : State :=
  let s1 := s.each [0, 1, 2, 3] (fun t s => traceSettle c t 64 s)
  let left := (s1.spxSegs c).filter segPending
  let s2 := { s1 with spx := { s1.spx with segs := keep s1.spx.segs c left } }
  if left.isEmpty && !(s1.spxSegs c).isEmpty then
    let s3 := (s2.set (Fd.SPX_STATUS_QUIESCENT c) 1).set (Fd.SPX_STATUS_SETTLING c) 0
    if [0, 1, 2, 3].all (fun d => s3.on (Fd.SPX_STATUS_QUIESCENT d)) then s3.set Fd.SPXG_STATUS_QUIESCENT 1 else s3
  else s2

/-- A landing at which a trace starts afresh. -/
def traceMark (c t : Nat) (l : Tick) (s : State) : State :=
  let x := s.trace c t
  if x.brk.contains l then s else setTrace c t { x with brk := x.brk ++ [l] } s

/-- Sample period of a channel's input with the present configuration (R170). -/
def spxPeriod (s : State) (c : Nat) : Nat := if s.on (Fd.SPX_CTRL_SRC c) then 2 ^ s.get (Fd.DDC_CTRL_DEC c) else 1

/-- Whether an overlap code is legal (R177). -/
def ovlLegal (s : State) (c ovl : Nat) : Bool := 2 ^ ovl * s.get Fd.ING_FS_KHZ ≤ 51200000 * spxPeriod s c

/-- The overlap check of a configuration that takes effect (R177). -/
def ovlCheck (c : Nat) (s : State) : State :=
  let o := s.get (Fd.SPX_CTRL_OVL c)
  if ovlLegal s c o then s
  else
    let best := ((List.range o).filter (fun x => ovlLegal s c x)).getLast?.getD 0
    ((s.set (Fd.SPX_CTRL_OVL c) best).clamped).raise 0x0505 [.w4 c, .w4 (0x60000 + 0x400 * c), .w4 best]

/-- A field held to a largest and least value at a landing, counting and reporting a clamp (R177, R178, R189). -/
def landClamp (c : Nat) (f : Fld) (lo hi : Nat) (s : State) : State :=
  let v := s.get f
  let w := if v < lo then lo else if hi < v then hi else v
  if w = v then s else ((s.set f w).clamped).raise 0x0505 [.w4 c, .w4 f.off, .w4 w]

/-- FDEC_min of a trace (R178). -/
def fdecMin (s : State) (c t : Nat) : Nat :=
  let b := 64 + 64 * ((s.get (Fd.TR_COLS c t) + 31) / 32)
  let den := spxPeriod s c * 2 ^ s.get (Fd.SPX_CTRL_LOG2N c) * 3200000
  (b * 2 ^ s.get (Fd.SPX_CTRL_OVL c) * s.get Fd.ING_FS_KHZ + den - 1) / den

/-- The clamps of a trace's fields at a landing (R178, R189). -/
def traceClamps (c t : Nat) (s : State) : State :=
  let n := 2 ^ s.get (Fd.SPX_CTRL_LOG2N c)
  let s1 := landClamp c (Fd.TR_JSTART c t) 0 (n - 1) s
  let s2 := landClamp c (Fd.TR_JSPAN c t) 1 (n - s1.get (Fd.TR_JSTART c t)) s1
  landClamp c (Fd.TR_FDEC c t) (min 65535 (fdecMin s2 c t)) 65535 s2

/-- A run of the present configuration with its anchor at L (R171, R180). -/
def newSeg (c : Nat) (l : Tick) (s : State) : SpxSeg :=
  let win := s.get (Fd.SPX_CTRL_WIN c)
  let src := s.get (Fd.SPX_CTRL_SRC c)
  let n := s.get (Fd.DDC_CTRL_DEC c)
  let cgc := if win = 12 then s.getI Fd.SPXG_UCGC else builtinCgc win
  ⟨src, s.get (Fd.SPX_CTRL_LOG2N c), win, s.get (Fd.SPX_CTRL_OVL c), s.get (Fd.SPX_SCHED c), cgc, spxPeriod s c,
    if src = 1 then ddcDelay n else 0, n, if win = 12 then s.spx.uwin else [], l, 0, none, none⟩

/-- A run begins: its registers follow (R171, R174). -/
def spxBegin (c : Nat) (l : Tick) (s : State) : State :=
  let s0 := ovlCheck c s
  let g := newSeg c l s0
  let s1 := { s0 with spx := { s0.spx with segs := keep s0.spx.segs c (g :: s0.spxSegs c) } }
  let s2 := (s1.wrT (0x6000C + 0x400 * c) l).set (Fd.SPX_HOP c) (2 ^ g.log2n / 2 ^ g.ovl * g.p)
  let s3 := s2.set (Fd.SPX_CGC c) (encI 16 g.cgc)
  s3.each [0, 1, 2, 3] (fun t s => traceMark c t l s)

/-- A spectral start at L (R174, R175): refused where its downconverter does not run. -/
def spxStart (c : Nat) (l : Tick) (s : State) : State :=
  if s.on (Fd.SPX_CTRL_SRC c) && !ddcRunning s c then (s.set (Fd.SPX_STATUS_REFUSED c) 1).raise 0x0503 [.w4 c, .t l]
  else
    let s1 := ((s.set (Fd.SPX_STATUS_RUNNING c) 1).set (Fd.SPX_STATUS_QUIESCENT c) 0).set Fd.SPXG_STATUS_QUIESCENT 0
    (spxBegin c l s1).raise 0x0501 [.w4 c, .t l]

/-- Every run of a channel gets a stop at L, and a cut there if its input ends. -/
def stopSegs (c : Nat) (l : Tick) (cut : Bool) (s : State) : State :=
  let upd (g : SpxSeg) : SpxSeg :=
    { g with stop := some (g.stop.getD l), cut := if cut && g.cut.isNone then some l else g.cut }
  { s with spx := { s.spx with segs := keep s.spx.segs c ((s.spxSegs c).map upd) } }

/-- A spectral stop at L with a cause (R174, R175, R615). -/
def spxStop (c : Nat) (l : Tick) (cause : Nat) (cut : Bool) (s : State) : State :=
  let s1 := (stopSegs c l cut s).set (Fd.SPX_STATUS_RUNNING c) 0
  let s2 := s1.each [0, 1, 2, 3] (fun t s => traceMark c t l s)
  spxSettle c (s2.raise 0x0502 [.w4 c, .t l, .w4 cause])

/-- The fields of a trace whose change starts its group afresh (R190). -/
def traceFields (c t : Nat) : List Fld :=
  [Fd.TR_TCTRL_AEXP c t, Fd.TR_TCTRL_MODE c t, Fd.TR_TCTRL_DET c t, Fd.TR_TCTRL_EN c t, Fd.TR_COLS c t,
   Fd.TR_JSTART c t, Fd.TR_JSPAN c t, Fd.TR_FDEC c t]

/-- The frame-defining fields (R171). -/
def frameFields (c : Nat) : List Fld :=
  [Fd.SPX_CTRL_SRC c, Fd.SPX_CTRL_LOG2N c, Fd.SPX_CTRL_WIN c, Fd.SPX_CTRL_OVL c, Fd.SPX_SCHED c]

/-- Whether some field differs between the state before a landing's changes and the present one. -/
def anyChanged (old s : State) (fs : List Fld) : Bool := fs.any (fun f => old.get f != s.get f)

/-- A spectral channel at landing L (R174 to R176). -/
def spxLandOne (old : State) (l : Tick) (landed : List (Nat × Nat)) (c : Nat) (s : State) : State :=
  let want := s.on (Fd.SPX_CTRL_RUN c)
  let was := spxRunning s c
  let changed := anyChanged old s (frameFields c)
  let srcDead := (s.spxSegs c).any (fun g => g.stop.isNone && g.src == 1 && !ddcRunning s c)
  if was && !want then spxStop c l 0 false s
  else if was && srcDead then spxStop c l 1 true s
  else if !was && want && (s.sys.fresh || landedAt landed (Fd.SPX_CTRL_RUN c)) then spxStart c l s
  else if was && changed then
    if s.on (Fd.SPX_CTRL_SRC c) && !ddcRunning s c then spxStop c l 1 true s
    else spxSettle c (spxBegin c l (stopSegs c l false s))
  else s

/-- The trace fields and clears of a channel at landing L (R176, R190 to R192, R196). -/
def traceLand (old : State) (l : Tick) (clears : List (Nat × Nat)) (c t : Nat) (s : State) : State :=
  let frameCh := anyChanged old s (frameFields c)
  let mine := anyChanged old s (traceFields c t)
  let s1 := if mine || frameCh || s.ing.freshEn then traceClamps c t s else s
  let on := s1.on (Fd.TR_TCTRL_EN c t) && !old.on (Fd.TR_TCTRL_EN c t)
  let s2 := if on then
      (((s1.set (Fd.TR_WR c t) 0).set (Fd.TR_RD c t) 0).set (Fd.TR_RSEQ c t) 0).set (Fd.TR_LOST c t) 0
    else s1
  if mine || frameCh || clears.contains (c, t) then traceMark c t l s2 else s2

/-- Steps 1 to 4 of R176. -/
def spxLand (old : State) (l : Tick) (landed clears : List (Nat × Nat)) (s : State) : State :=
  let s1 := s.each [0, 1, 2, 3] (spxLandOne old l landed)
  let s2 := s1.each [0, 1, 2, 3] (fun c s => s.each [0, 1, 2, 3] (traceLand old l clears c))
  s2.each [0, 1, 2, 3] spxSettle

/-- A stop of stream time at L (R615). -/
def spxStopAll (l : Tick) (s : State) : State :=
  s.each ([0, 1, 2, 3].filter (fun c => spxRunning s c)) (fun c s => spxStop c l 2 true s)

/-- Draining runs take their missing input as zero once stream time has stopped (R615). -/
def spxCutAll (l : Tick) (s : State) : State :=
  { s with spx := { s.spx with segs := s.spx.segs.map (fun e =>
      (e.1, e.2.map (fun g => if g.cut.isNone then { g with cut := some l } else g))) } }

/-- The next frame of a channel whose input is complete, with its run. -/
def readyFrame (s : State) (c : Nat) : Option (SpxSeg × Tick) :=
  match (s.spxSegs c).reverse.find? segPending with
  | none => none
  | some g =>
    let t := frameStamp g g.k
    let e := frameEnd g t
    let have' := (s.stream (spxKey c g.src)).any (fun x => tle e x.t)
    if have' || g.cut.any (fun l => tle l e) then some (g, t) else none

/-- A frame is delivered to the traces of its channel, and its run goes on to the next (R182, R184, R190). -/
def deliverFrame (c : Nat) (g : SpxSeg) (f : Frame) (sats : Nat) (s0 : State) : State :=
  let s := s0.each [0, 1, 2, 3] (fun t s => traceSettle c t 64 s)
  let segs := (s.spxSegs c).map (fun h => if h.anchor = g.anchor then { h with k := h.k + 1 } else h)
  let s1 := { s with spx := { s.spx with segs := keep s.spx.segs c segs } }
  let s2 := { s1 with spx := { s1.spx with frames := keep s1.spx.frames c (f :: look [] s1.spx.frames c) } }
  let s3 := (s2.bump (Fd.SPX_SAT c) sats).set (Fd.SPX_STATUS_SETTLING c) (b2n (bit f.marks 0))
  let s4 := s3.set (Fd.SPX_STATUS_TAIL c) (b2n (bit f.marks 1))
  let s5 := if 0 < sats then s4.raisePerLanding c 0x0504 [.w4 c, .t f.t] else s4
  s5.each [0, 1, 2, 3] (fun t s => traceReduce c t f s)

/-- TCTRL_CLEAR (R43, R191): a clear of a trace's accumulation is asked for; it lands as a pending action. -/
def execTctrlClear (ch tr : Fin 4) (s : State) : Out :=
  .next (pendChange .action (trAt ch.val tr.val 0) 16 1 1 s)

/-- Whether some channel runs with the user window (R180). -/
def uwinInUse (s : State) : Bool :=
  [0, 1, 2, 3].any (fun c => (s.spxSegs c).any (fun g => g.stop.isNone && g.win == 12))

/-- UWIN_ADDR after an access to UWIN_DATA. -/
def uwinNext (s : State) : State :=
  let a := s.get Fd.SPXG_UWIN_ADDR
  s.set Fd.SPXG_UWIN_ADDR (if a = 32768 then 0 else a + 1)

/-- An access to UWIN_DATA (R180): a write sets u[UWIN_ADDR] or is discarded while WIN = 12 is in use; either way, and
on a read, UWIN_ADDR moves on. -/
def uwinData (data : Option Word) (s : State) : State :=
  match data with
  | none => uwinNext s
  | some w =>
    if uwinInUse s then uwinNext (s.raise 0x0506 [.w4 0x61004])
    else
      let m := Assoc.put 0#32 s.spx.uwin (s.get Fd.SPXG_UWIN_ADDR) (BitVec.ofNat 32 (w.toNat % 2 ^ 20))
      uwinNext { s with spx := { s.spx with uwin := m } }

/-- UWIN_DATA (R180). -/
def execUwinData (data : Option Word) (s : State) : Out := .next (uwinData data s)

/-- SAT_CLEAR of SPX (R197). -/
def spxSatClear (s : State) : State := s.each [0, 1, 2, 3] (fun c s => s.set (Fd.SPX_SAT c) 0)

/-- HISTc: the longest contributing span of a front-end output of channel c, in ticks (R129). -/
def histTicks (c : Nat) (s : State) : Nat :=
  let f := filterHistory s c
  let r := correctReach (liveSet s c)
  match (s.spxSegs c).find? (fun g => g.stop.isNone) with
  | none => f
  | some g => max f ((2 ^ g.log2n - 1) * g.p + 1 + 2 * g.gw + r.1 + r.2)

end Sys2Proof.Machine
end

