-- ==== Sys2Proof/Machine/Density.lean ====
section
/-! DEFINITION. Density planes and spectrogram (R259 to R277): placing a frame's bins, the counters, passes, snapshots,
restarts, and spectrogram lines. -/

namespace Sys2Proof.Machine

/-! ### Placing a bin (R259 to R261) -/

/-- The row of a level, none where OOR = DROP leaves it out (R260). -/
def denRow (bot step : Int) (drop' : Bool) (level : Int) : Option Nat :=
  let r := (level - bot) / step
  if r < 0 then (if drop' then none else some 0)
  else if 1023 < r then (if drop' then none else some 1023)
  else some r.toNat

/-- The points a frame places, as column and row, under the fields in effect at its stamp (R259, R260). -/
def denPoints (s : State) (c : Nat) (f : Frame) : List (Nat × Nat) :=
  let g (fd : Fld) : Nat := s.getAt f.t fd
  let bsh := g (Fd.DEN_CTRL_BSH c)
  let det := g (Fd.DEN_CTRL_DET c)
  let j0 := g (Fd.DEN_MAP_DJSTART c)
  let row (v : Nat) : Option Nat :=
    denRow (s.getIAt f.t (Fd.DEN_ROWS_BOT c)) (g (Fd.DEN_ROWS_STEP c)) (g (Fd.DEN_CTRL_OOR c) == 1)
      (toDb16 v f.shift f.log2n f.cgc)
  (List.range (g (Fd.DEN_MAP_DCOLS c))).flatMap (fun q =>
    let bs := binsOf f.bins (j0 + q * 2 ^ bsh) (j0 + q * 2 ^ bsh + 2 ^ bsh - 1)
    let vals := if det = 0 then bs else [detect (det - 1) bs]
    vals.filterMap (fun v => (row v).map (fun r => (q, r))))

/-- A field held down at a landing, with its clamp counted and reported (R261, R265, R273). -/
def denClamp (c : Nat) (f : Fld) (v : Nat) (s : State) : State :=
  if s.get f = v then s else ((s.set f v).clamped).raise 0x0803 [.w4 c, .w4 f.off, .w4 v]

/-- The clamps of the placement fields against N, in order (R261). -/
def denClamps (c : Nat) (s : State) : State :=
  let n := 2 ^ s.get (Fd.SPX_CTRL_LOG2N c)
  let s1 := denClamp c (Fd.DEN_CTRL_BSH c) (min (s.get (Fd.DEN_CTRL_BSH c)) (Nat.log2 n - 5)) s
  let b := 2 ^ s1.get (Fd.DEN_CTRL_BSH c)
  let s2 := denClamp c (Fd.DEN_MAP_DCOLS c) (min (s1.get (Fd.DEN_MAP_DCOLS c)) (n / b / 32 * 32)) s1
  let span := s2.get (Fd.DEN_MAP_DCOLS c) * b
  denClamp c (Fd.DEN_MAP_DJSTART c) (min (s2.get (Fd.DEN_MAP_DJSTART c)) (n - span)) s2

/-! ### The plane (R262, R263) -/

/-- A density channel that holds nothing. -/
def DenSt.empty : DenSt := ⟨[], [], [], 0, 22, none, 0, none⟩

/-- The state of DENc. -/
def State.denCh (s : State) (c : Nat) : DenSt := look DenSt.empty s.den.ch c

/-- The state of DENc replaced. -/
def setDen (c : Nat) (d : DenSt) (s : State) : State := { s with den := { s.den with ch := keep s.den.ch c d } }

/-- EN of a density channel as it stood for a stream time (R263, R267). -/
def denOn (d : DenSt) (t : Tick) : Bool := ((d.on.find? (fun e => tle e.1 t)).map Prod.snd).getD false

/-- One point added to a plane: the plane, and one if the counter was at its limit (R262). -/
def denAdd (p : List (Nat × Nat)) (q r : Nat) : List (Nat × Nat) × Nat :=
  let v := Assoc.get 0 p (4096 * r + q)
  if 65535 ≤ v then (p, 1) else (Assoc.put 0 p (4096 * r + q) (v + 1), 0)

/-- The points of a frame added in turn, with the updates to saturated counters. -/
def denAddAll (p : List (Nat × Nat)) : List (Nat × Nat) → List (Nat × Nat) × Nat
  | [] => (p, 0)
  | x :: xs =>
    let a := denAdd p x.1 x.2
    let b := denAddAll a.1 xs
    (b.1, a.2 + b.2)

/-! ### Passes (R265 to R268) -/

/-- The legal minimum of PLOG (R265): the least p with 2^p ≥ 131,072·r + 65,536. -/
def denPassMin (s : State) : Nat :=
  ((List.range 41).find? (fun p => 131072 * s.get Fd.ING_FS_KHZ + 65536 * 1600000 ≤ 2 ^ p * 1600000)).getD 40

/-- The multiple of m strictly after a stream time. -/
def after (m : Nat) (t : Tick) : Tick := BitVec.ofNat 64 ((t.toNat / m + 1) * m)

/-- The first pass strictly after a stream time (R265). -/
def nextPass (d : DenSt) (t : Tick) : Tick :=
  match d.plogNext with
  | none => after (2 ^ d.plog) t
  | some (n, at') => if tle at' t then after (2 ^ n) t else tmin (after (2 ^ d.plog) t) at'

/-- PLOG that a pass goes by. -/
def passLog (d : DenSt) (p : Tick) : Nat :=
  match d.plogNext with
  | some (n, at') => if tle at' p then n else d.plog
  | none => d.plog

/-- The cells of the snapshot plane of channel c for a live plane (R269). -/
def snapStore (c : Nat) (plane : List (Nat × Nat)) (s : State) : State :=
  let base := 0x010006000000 + c * 0x800000
  let other := s.mem.filter (fun e => e.1 < base || base + 0x800000 ≤ e.1)
  plane.foldl (fun s e => s.store (base + 2 * e.1) (le 2 e.2)) { s with mem := other }

/-- A pass copies the plane to the snapshot; the SNAP registers describe it (R266, R269, R270). -/
def passSnap (c : Nat) (p : Tick) (d : DenSt) (s : State) : State :=
  let g (fd : Fld) : Nat := s.getAt (p - 1) fd
  let a := 0x90000 + 0x100 * c
  let s1 := (snapStore c d.plane s).count (Fd.DEN_SNAP_SEQ c)
  let s2 := (s1.wrT (a + 0x20) p).wrT (a + 0x28) d.t0
  let s3 := (s2.set (Fd.DEN_SNAP_INFO_DCOLS c) (g (Fd.DEN_MAP_DCOLS c))).set (Fd.DEN_SNAP_INFO_BSH c) (g (Fd.DEN_CTRL_BSH c))
  let s4 := (s3.set (Fd.DEN_SNAP_INFO_FLAGS c) (s3.get (Fd.DEN_PFLAGS c))).set (Fd.DEN_SNAP_MAP_DJSTART c)
    (g (Fd.DEN_MAP_DJSTART c))
  s4.set (Fd.DEN_SNAP_ROWS c) (s4.rdAt (p - 1) (a + 0x08))

/-- DEN.STATUS.QUIESCENT follows the channels and the spectrograms. -/
def denQuiet (s : State) : State :=
  s.set Fd.DENG_STATUS_QUIESCENT (b2n ([0, 1, 2, 3].all (fun c =>
    s.on (Fd.DEN_STATUS_QUIESCENT c) && (look TraceSt.empty s.den.sg c).frame.isNone)))

/-- GAP, RUNNING, WALKING and QUIESCENT of a channel follow its state (R267): it is quiescent once it is off, no frame
stamped before its landing is left and no walk is in progress. -/
def denStatus (c : Nat) (s : State) : State :=
  let d := s.denCh c
  let on := (d.on.head?.map Prod.snd).getD false
  let left := match d.on.head?, nextFrame s c with
    | some (l, false), some f => tlt f l
    | _, _ => false
  let s1 := (s.set (Fd.DEN_STATUS_GAP c) (b2n (on && !d.restarts.isEmpty))).set (Fd.DEN_STATUS_RUNNING c)
    (b2n (on && d.restarts.isEmpty))
  let s2 := s1.set (Fd.DEN_STATUS_WALKING c) (b2n d.walk.isSome)
  denQuiet (s2.set (Fd.DEN_STATUS_QUIESCENT c) (b2n (!on && !left && d.walk.isNone)))

/-- A walk ends: a snapshot's copy counts SNAP_SEQ up and raises event 0x0802 (R270). -/
def passEnd (c : Nat) (s : State) : State :=
  let d := s.denCh c
  match d.walk with
  | none => s
  | some w =>
    let s1 := setDen c { d with walk := none } s
    let s2 := match w with
      | none => s1
      | some p =>
        let s' := s1.count (Fd.DEN_SNAP_SEQ c)
        s'.raise 0x0802 [.w4 c, .t p, .w4 (s'.get (Fd.DEN_SNAP_SEQ c))]
    denStatus c s2

/-- The pass at P acts (R266 to R268): copy, then restart or decay; while EN is 0 before P it does nothing. -/
def passAct (c : Nat) (p : Tick) (s : State) : State :=
  let s0 := passEnd c s
  let d := s0.denCh c
  let log := passLog d p
  let d0 := { d with cur := p, plog := log, plogNext := if d.plogNext.any (fun x => tle x.2 p) then none else d.plogNext }
  if !denOn d (p - 1) then setDen c d0 s0
  else
    let div := s0.getAt (p - 1) (Fd.DEN_PASS_SNAPDIV c)
    let mul := s0.getAt (p - 1) (Fd.DEN_DMUL c)
    let snap := div != 0 && p.toNat / 2 ^ log % div == 0
    let restart := d.restarts.any (fun l => tlt l p)
    let s1 := if snap then passSnap c p d s0 else s0
    let s2 := if restart then (s1.set (Fd.DEN_PFLAGS c) 0).raise 0x0801 [.w4 c, .t p] else s1
    let plane := if restart then []
      else if mul < 65536 then (d.plane.map (fun e => (e.1, e.2 * mul / 65536))).filter (fun e => e.2 != 0) else d.plane
    let d1 := { d0 with
      plane := plane
      restarts := d.restarts.filter (fun l => !tlt l p)
      t0 := if restart then p else d.t0
      walk := if snap then some (some p) else if restart || decide (mul < 65536) then some none else none }
    denStatus c (setDen c d1 s2)

/-- Every pass at or before a stream time that has not acted acts. -/
def passesTo (c : Nat) (t : Tick) : Nat → State → State
  | 0, s => s
  | n + 1, s =>
    let p := nextPass (s.denCh c) (s.denCh c).cur
    if tle p t then passesTo c t n (passAct c p s) else s

/-- The last stream time whose frames of a channel have all been delivered and that has been released. -/
def framesThrough (s : State) (c : Nat) : Tick :=
  match nextFrame s c with
  | some f => tmin (f - 1) s.tRel
  | none => s.tRel

/-- DENSITY_PASS (R266): the next pass of the channel acts, once it has been released and the last frame stamped before
it has been delivered. -/
def execDensityPass (ch : Fin 4) (s : State) : Out :=
  let p := nextPass (s.denCh ch.val) (s.denCh ch.val).cur
  .next (if (s.sys.counting || s.sys.draining) && tle (p - 1) (framesThrough s ch.val) && tle p s.tRel then
    passAct ch.val p s else s)

/-- SNAPSHOT_COPY_END (R270): the copy of a snapshot ends. -/
def execSnapshotCopyEnd (ch : Fin 4) (s : State) : Out :=
  .next (if (s.denCh ch.val).walk.any Option.isSome then passEnd ch.val s else s)

/-- PASS_WALK_END (R266): a walk without a snapshot ends. -/
def execPassWalkEnd (ch : Fin 4) (s : State) : Out :=
  .next (if (s.denCh ch.val).walk.any Option.isNone then passEnd ch.val s else s)

/-- DEN_CLEAR (R43, R267): a clear of the plane is asked for; it lands as a pending action. -/
def execDenClear (ch : Fin 4) (s : State) : Out := .next (pendChange .action (0x90000 + 0x100 * ch.val) 1 1 1 s)

/-! ### A frame on the plane (R263) -/

/-- A frame is placed (R262, R263, R266): passes at or before its stamp act first. -/
def denFrame (c : Nat) (f : Frame) (s : State) : State :=
  let s0 := passesTo c f.t 4096 s
  let d := s0.denCh c
  let live := denOn d f.t && !bit f.marks 0 && !bit f.marks 1 && !d.restarts.any (fun l => tle l f.t)
  if !live then denStatus c s0
  else
    let r := denAddAll d.plane (denPoints s0 c f)
    let span := frameSpan f f.t f.t
    let fl := Nat.lor (Nat.lor (s0.get (Fd.DEN_PFLAGS c)) f.fl) (b2n (stepWithin s0 c span.1 span.2) * 128)
    let s1 := ((setDen c { d with plane := r.1 } s0).set (Fd.DEN_PFLAGS c) fl).bump (Fd.DEN_SAT c) r.2
    let s2 := if 0 < r.2 then s1.raisePerLanding c 0x0806 [.w4 c, .t f.t] else s1
    stick f.fl f.t (denStatus c s2)

/-! ### Spectrogram (R271 to R273) -/

/-- The open spectrogram group of a channel. -/
def State.sg (s : State) (c : Nat) : TraceSt := look TraceSt.empty s.den.sg c

/-- The spectrogram group of a channel replaced. -/
def setSg (c : Nat) (x : TraceSt) (s : State) : State := { s with den := { s.den with sg := keep s.den.sg c x } }

/-- The BAR0 offset of a register of SGc. -/
def sgAt (c x : Nat) : Nat := 0x90800 + 0x40 * c + x

/-- The bytes of a spectrogram line (R272). -/
def sgLine (s : State) (c : Nat) (x : TraceSt) (f : Frame) (short : Bool) (vals : List Int) : List Byte :=
  let g (fd : Fld) : Nat := s.getAt x.tFirst fd
  let span := frameSpan f x.tFirst x.tLast
  let marks := Nat.lor x.marks (b2n short * 8 + b2n (stepWithin s c span.1 span.2) * 16)
  let cfg := f.log2n + f.win * 32 + f.ovl * 512 + g (Fd.SG_CTRL_SGDET c) * 4096 + g (Fd.SG_CTRL_SGMODE c) * 32768 +
    f.src * 131072 + (if f.src = 1 then f.nddc else 0) * 262144 + g (Fd.DEN_CTRL_BSH c) * 4194304
  let head := le 4 0x4C475053 ++ le 1 1 ++ le 1 c ++ le 1 x.grpFl ++ le 1 marks ++ le 8 x.tFirst.toNat ++
    le 8 x.tLast.toNat ++ le 4 (s.get (Fd.SG_LSEQ c)) ++ le 4 cfg ++ le 2 vals.length ++ le 2 x.nfr ++
    le 2 (g (Fd.DEN_MAP_DJSTART c)) ++ le 2 (encI 16 f.cgc) ++ le 4 (csidAt s c x.tFirst) ++ le 2 f.shift ++ zeros 14
  let body := vals.flatMap (fun v => le 2 (encI 16 v))
  head ++ le 4 (crc32c (head ++ body)) ++ body

/-- A line is written into its ring (R273): a full ring loses its oldest unread line. -/
def sgRingWrite (c : Nat) (line : List Byte) (s : State) : State :=
  let slots := max 2 (s.get (Fd.SG_RING_SLOTS c))
  let wr := s.get (Fd.SG_WR c)
  let rd := s.get (Fd.SG_RD c)
  let s1 := if (wr + slots - rd) % slots = slots - 1 then
      ((s.set (Fd.SG_RD c) ((rd + 1) % slots)).bump (Fd.SG_LOST c)).raisePerLanding c 0x0804
        [.w4 c, .w4 (encI 32 ((s.get (Fd.SG_LSEQ c) : Int) - (slots - 1 : Nat)))]
    else s
  let s2 := s1.store (s1.rd64 (sgAt c 0x08) + 8256 * wr) line
  (s2.set (Fd.SG_WR c) ((wr + 1) % slots)).count (Fd.SG_LSEQ c)

/-- A group ends and its line is written; a group without a frame writes none (R271 to R273). -/
def sgClose (c : Nat) (short : Bool) (s : State) : State :=
  let x := s.sg c
  match x.frame with
  | none => s
  | some f =>
    let lin := if s.getAt x.tFirst (Fd.SG_CTRL_SGMODE c) = 1 then x.grp.map (fun v => v / x.nfr) else x.grp
    let vals := lin.map (fun v => toDb16 v f.shift f.log2n f.cgc)
    let line := sgLine s c x f short vals
    let span := frameSpan f x.tFirst x.tLast
    let r : SpecRec := ⟨x.tFirst, x.tLast, x.grpFl, x.marks, span.1, span.2, line⟩
    let s0 := { s with scr := { s.scr with lines := keep s.scr.lines c (r :: look [] s.scr.lines c) } }
    let s1 := stick x.grpFl x.tFirst (sgRingWrite c line s0)
    setSg c { x with nfr := 0, grp := [], grpFl := 0, marks := 0, frame := none } s1

/-- Landings at which a group ends early take effect once no undelivered frame is stamped before them. -/
def sgSettle (c : Nat) : Nat → State → State
  | 0, s => s
  | n + 1, s =>
    let x := s.sg c
    match x.brk with
    | [] => s
    | l :: rest =>
      if (nextFrame s c).all (fun f => tle l f) then sgSettle c n (sgClose c true (setSg c { x with brk := rest } s)) else s

/-- A frame is reduced to one line of column values and combined with its group (R271). -/
def sgFrame (c : Nat) (f : Frame) (s : State) : State :=
  let g (fd : Fld) : Nat := s.getAt f.t fd
  if g (Fd.SG_CTRL_EN c) = 0 then s
  else
    let x := s.sg c
    let b := 2 ^ g (Fd.DEN_CTRL_BSH c)
    let j0 := g (Fd.DEN_MAP_DJSTART c)
    let p := (List.range (g (Fd.DEN_MAP_DCOLS c))).map (fun q =>
      detect (g (Fd.SG_CTRL_SGDET c)) (binsOf f.bins (j0 + q * b) (j0 + q * b + b - 1)))
    let grp := if x.nfr = 0 then p
      else (x.grp.zip p).map (fun v => match g (Fd.SG_CTRL_SGMODE c) with
        | 0 => v.2
        | 1 => v.1 + v.2
        | 2 => max v.1 v.2
        | _ => min v.1 v.2)
    let x1 : TraceSt := { x with
      nfr := x.nfr + 1
      tFirst := if x.nfr = 0 then f.t else x.tFirst
      tLast := f.t
      grp := grp
      grpFl := Nat.lor x.grpFl f.fl
      marks := Nat.lor x.marks f.marks
      frame := some (x.frame.getD f) }
    let s1 := setSg c x1 s
    if g (Fd.SG_SGFDEC c) ≤ x1.nfr then sgClose c false s1 else s1

/-- A delivered frame reaches the density engine: the plane, then the spectrogram (R263, R271). -/
def denTake (c : Nat) (f : Frame) (s : State) : State :=
  denQuiet (sgSettle c 64 (sgFrame c f (denFrame c f s)))

/-! ### At a landing (R267, R274) -/

/-- The fields whose change restarts the plane (R267). -/
def placeFields (c : Nat) : List Fld :=
  [Fd.DEN_CTRL_DET c, Fd.DEN_CTRL_BSH c, Fd.DEN_MAP_DCOLS c, Fd.DEN_MAP_DJSTART c, Fd.DEN_ROWS_BOT c,
   Fd.DEN_ROWS_STEP c, Fd.DEN_CTRL_OOR c]

/-- Least SGFDEC (R273). -/
def sgFdecMin (s : State) (c : Nat) : Nat :=
  let den := spxPeriod s c * 2 ^ s.get (Fd.SPX_CTRL_LOG2N c) * 3200000
  ((64 + 2 * s.get (Fd.DEN_MAP_DCOLS c)) * 2 ^ s.get (Fd.SPX_CTRL_OVL c) * s.get Fd.ING_FS_KHZ + den - 1) / den

/-- The plane of channel c at landing L: placement clamps, EN, restarts (R261, R267). -/
def denLandPlane (old : State) (l : Tick) (clears : List Nat) (c : Nat) (s : State) : State :=
  let frameCh := anyChanged old s (frameFields c)
  let fresh := s.sys.fresh
  let s1 := if frameCh || anyChanged old s (placeFields c) then denClamps c s else s
  let d := s1.denCh c
  let en := s1.on (Fd.DEN_CTRL_EN c)
  let was := (d.on.head?.map Prod.snd).getD false
  let started := spxRunning s1 c && !spxRunning old c
  let rises := en && (!was || fresh)
  let again := en && (rises || clears.contains c || anyChanged old s1 (placeFields c) || frameCh || started)
  let d1 := { d with
    on := if en != was || fresh then (l, en) :: d.on else d.on
    restarts := if again then d.restarts ++ [l] else d.restarts
    cur := if fresh && !was then l - 1 else d.cur }
  denStatus c (setDen c d1 s1)

/-- The pass fields of channel c at landing L (R265). -/
def denLandPass (old : State) (l : Tick) (c : Nat) (s : State) : State :=
  let low := denPassMin s
  let s1 := s.set (Fd.DEN_PASS_MIN c) low
  let changed := anyChanged old s [Fd.DEN_PASS_PLOG c]
  let s2 := if changed || s.ing.freshEn then denClamp c (Fd.DEN_PASS_PLOG c) (max low (s1.get (Fd.DEN_PASS_PLOG c))) s1
    else s1
  let d := s2.denCh c
  let new := s2.get (Fd.DEN_PASS_PLOG c)
  let inUse := (d.plogNext.map Prod.fst).getD d.plog
  if new = inUse then s2
  else setDen c { d with plogNext := some (new, tceil (2 ^ max d.plog new) l) } s2

/-- The spectrogram fields of channel c at landing L (R271, R273). -/
def sgLand (old : State) (l : Tick) (c : Nat) (s : State) : State :=
  let mine := [Fd.SG_CTRL_SGMODE c, Fd.SG_CTRL_SGDET c, Fd.SG_CTRL_EN c, Fd.SG_SGFDEC c, Fd.DEN_MAP_DCOLS c,
    Fd.DEN_CTRL_BSH c, Fd.DEN_MAP_DJSTART c] ++ frameFields c
  let ch := anyChanged old s mine
  let s1 := if ch || s.ing.freshEn then
      let f := s.get (Fd.SG_SGFDEC c)
      denClamp c (Fd.SG_SGFDEC c) (min 65535 (max f (sgFdecMin s c))) s
    else s
  let on := s1.on (Fd.SG_CTRL_EN c) && !old.on (Fd.SG_CTRL_EN c)
  let s2 := if on then ((s1.set (Fd.SG_WR c) 0).set (Fd.SG_RD c) 0).set (Fd.SG_LSEQ c) 0 else s1
  let started := spxRunning s2 c != spxRunning old c
  let x := s2.sg c
  sgSettle c 64 (if ch || started then setSg c { x with brk := x.brk ++ [l] } s2 else s2)

/-- The density engine at a landing, in the order of R274; `clears` are the channels whose CLEAR landed. -/
def denLand (old : State) (l : Tick) (clears : List Nat) (s : State) : State :=
  let s1 := s.each [0, 1, 2, 3] (denLandPlane old l clears)
  let s2 := s1.each [0, 1, 2, 3] (denLandPass old l)
  denQuiet (s2.each [0, 1, 2, 3] (sgLand old l))

/-- A stop of stream time at L (R615): the planes end as EN landing as 0 does, and open spectrogram groups end early. -/
def denStopAll (l : Tick) (s : State) : State :=
  s.each [0, 1, 2, 3] (fun c s =>
    let d := s.denCh c
    let d1 := if (d.on.head?.map Prod.snd).getD false then { d with on := (l, false) :: d.on } else d
    let x := s.sg c
    denStatus c (sgSettle c 64 (setSg c { x with brk := x.brk ++ [l] } (setDen c d1 s))))

/-- The density engine at an applied epoch: no history (R615). Counters keep what they hold until a restart pass. -/
def denEpoch (e : Tick) (s : State) : State :=
  s.each [0, 1, 2, 3] (fun c s =>
    let d := s.denCh c
    setSg c TraceSt.empty (setDen c { d with on := [], restarts := [], cur := e - 1, plogNext := none
                                             plog := s.get (Fd.DEN_PASS_PLOG c) } s))

/-- SAT_CLEAR of DEN (R276). -/
def denSatClear (s : State) : State := s.each [0, 1, 2, 3] (fun c s => s.set (Fd.DEN_SAT c) 0)

end Sys2Proof.Machine
end

