-- ==== Sys2Proof/Machine/Trigger.lean ====
section
/-! DEFINITION. Trigger sources (R199 to R214): events and states on stream time from comparators, masks, density regions,
pins, Tally, the fabric and Cykin, the external-event log, and what a landing does to them. -/

namespace Sys2Proof.Machine

/-! ### Source codes (R200) -/

/-- The kinds of source that the codes of R200 select. -/
inductive SrcKind where
  | none
  | td (j : Nat)
  | mask (c : Nat)
  | den (c : Nat)
  | zp (p : Nat)
  | tin (n : Nat)
  | ev (n : Nat)
  | fab (f : Nat)
  | cyk (m : Nat)
  | tu (m : Nat)
deriving DecidableEq, Repr

/-- The source of a code (R200). -/
def srcKind (code : Nat) : SrcKind :=
  if code = 0 then .none
  else if code < 0x09 then .td (code - 0x01)
  else if code < 0x0D then .mask (code - 0x09)
  else if code < 0x11 then .den (code - 0x0D)
  else if code < 0x19 then .zp (code - 0x11)
  else if code < 0x1D then .tin (code - 0x19)
  else if code < 0x25 then .ev (code - 0x1D)
  else if code < 0x35 then .fab (code - 0x25)
  else if code < 0x3D then .cyk (code - 0x35)
  else if code < 0x44 then .tu (code - 0x3D)
  else .none

/-- A source that has produced nothing. -/
def SrcSt.empty : SrcSt := ⟨[], [], [], none⟩

/-- The state of a source by its code. -/
def State.src (s : State) (code : Nat) : SrcSt := look SrcSt.empty s.trg.src code

/-- The state of a source replaced. -/
def setSrc (code : Nat) (x : SrcSt) (s : State) : State := { s with trg := { s.trg with src := keep s.trg.src code x } }

/-- A source delivers an event. -/
def pushEv (code : Nat) (e : TrgEv) (s : State) : State :=
  let x := s.src code
  setSrc code { x with evs := e :: x.evs } s

/-- A source's state from a stream time on, with the flags of its span; nothing is noted where neither changes. -/
def pushState (code : Nat) (t : Tick) (v : Bool) (fl : Nat) (s : State) : State :=
  let x := s.src code
  match x.states with
  | (_, v', fl') :: _ =>
    if v' = v ∧ fl' = fl then s else setSrc code { x with states := (t, v, fl) :: x.states } s
  | [] => setSrc code { x with states := [(t, v, fl)] } s

/-- The enable field of a source, for the kinds that have one (R231). -/
def srcEnable : SrcKind → Option Fld
  | .td j => some (Fd.TD_CTRL_EN j)
  | .mask c => some (Fd.MASK_CTRL_EN c)
  | .den c => some (Fd.TDEN_CTRL_EN c)
  | .zp p => some (Fd.ZP_CTRL_EN p)
  | .tin n => some (Fd.TIN_CFG_EN n)
  | .ev n => some (Fd.EV_CFG_EN n)
  | .cyk m => some (Fd.CYK_TLINE_EN m)
  | _ => none

/-- Whether a source is enabled at a stream time (R199, R221). -/
def srcOn (s : State) (code : Nat) (t : Tick) : Bool :=
  s.onAt t Fd.TRG_CTRL_EN && (match srcEnable (srcKind code) with
    | some f => s.onAt t f
    | none => true)

/-- The value that a history, newest first, gives at a stream time. -/
def histAt {α : Type} (d : α) (l : List (Tick × α)) (t : Tick) : α := ((l.find? (fun e => tle e.1 t)).map Prod.snd).getD d

/-- The state of a source at a stream time, with the flags of its span (R199, R217). -/
def srcState (s : State) (code : Nat) (t : Tick) : Bool × Nat :=
  let x := s.src code
  let v := histAt (false, 0) x.states t
  if srcOn s code t && histAt true x.runs t then v else (false, 0)

/-- The events of a source stamped from a to b, oldest first. -/
def srcEvents (s : State) (code : Nat) (a b : Tick) : List TrgEv :=
  ((s.src code).evs.filter (fun e => tle a e.t && tle e.t b)).reverse

/-! ### Comparators (R201 to R204) -/

/-- The fields of a comparator at a stream time, as one record: its EN, its stream, COND, COMP, LEVEL and HYS. Comparators
0 to 7 are TD, 8 to 15 are ZP with COMP = MAG. -/
structure CmpCfg where
  en : Bool
  key : Nat
  cond : Nat
  comp : Nat
  level : Int
  hys : Int
deriving DecidableEq, Repr

/-- The code of a comparator (R200). -/
def cmpCode (i : Nat) : Nat := if i < 8 then 0x01 + i else 0x11 + (i - 8)

/-- The configuration of a comparator in effect at a stream time (R204). -/
def cmpCfg (s : State) (i : Nat) (t : Tick) : CmpCfg :=
  let g (f : Fld) : Nat := s.getAt t f
  let on := s.onAt t Fd.TRG_CTRL_EN
  if i < 8 then
    ⟨on && s.onAt t (Fd.TD_CTRL_EN i), (if g (Fd.TD_CTRL_SRC i) = 0 then 4 else 8) + i / 2, g (Fd.TD_CTRL_COND i),
     g (Fd.TD_CTRL_COMP i), s.getIAt t (Fd.TD_LEVEL i), (g (Fd.TD_HYS i) : Nat)⟩
  else
    let p := i - 8
    ⟨on && s.onAt t (Fd.ZP_CTRL_EN p), 16 + g (Fd.ZP_CTRL_ZC p), g (Fd.ZP_CTRL_COND p), 2,
     (g (Fd.ZP_LEVEL p) : Nat), (g (Fd.ZP_HYS p) : Nat)⟩

/-- The compared value of a sample and lev, lo and hi (R201). -/
def cmpValues (k : CmpCfg) (x : Samp) : Int × Int × Int × Int :=
  match k.comp with
  | 0 => (x.i, k.level, k.level - k.hys, k.level + k.hys)
  | 1 => (x.q, k.level, k.level - k.hys, k.level + k.hys)
  | _ =>
    let lo := max 0 (k.level - k.hys)
    (x.i * x.i + x.q * x.q, k.level * k.level, lo * lo, (k.level + k.hys) * (k.level + k.hys))

/-- XFRAC of an event at v whose predecessor p lay on the other side of lev (R203). -/
def xfrac (rising : Bool) (v p lev : Int) : Nat :=
  let num := if rising then v - lev else lev - v
  let den := if rising then v - p else p - v
  min 15 (16 * num / den).toNat

/-- A comparator that has examined nothing. -/
def CmpSt.empty : CmpSt := ⟨0, none, false, false, false, []⟩

/-- The state of a comparator. -/
def State.cmp (s : State) (i : Nat) : CmpSt := look CmpSt.empty s.trg.cmp i

/-- The state of a comparator replaced. -/
def setCmp (i : Nat) (x : CmpSt) (s : State) : State := { s with trg := { s.trg with cmp := keep s.trg.cmp i x } }

/-- The conditions of R202 on a value: the state, whether an event occurs, whether it rises, and the two detectors
afterwards. -/
def cmpEval (k : CmpCfg) (c : CmpSt) (v lev lo hi : Int) : Bool × Bool × Bool × Bool × Bool :=
  let ge := decide (lev ≤ v)
  let armR := c.armR || decide (v < lo)
  let armF := c.armF || decide (hi ≤ v)
  let first := c.prev.isNone
  match k.cond with
  | 0 => (ge, ge && (first || !c.hi), true, false, false)
  | 1 => (!ge, !ge && (first || !c.hi), false, false, false)
  | 2 => let e := ge && c.armR; (ge, e, true, armR && !e, false)
  | 3 => let e := !ge && c.armF; (!ge, e, false, false, armF && !e)
  | _ =>
    let r := ge && c.armR
    let f := !ge && c.armF
    (ge, r || f, r, armR && !r, armF && !f)

/-- A comparator examines a sample (R201 to R203): P is the sample period, `nx` the first stream time it has not reported
through afterwards. -/
def cmpSample (i : Nat) (k : CmpCfg) (x : Samp) (nx : Tick) (s : State) : State :=
  let c := s.cmp i
  let w := cmpValues k x
  let r := cmpEval k c w.1 w.2.1 w.2.2.1 w.2.2.2
  let fl := Nat.lor x.fl ((c.prev.map (fun p => p.2.2)).getD 0)
  let cross := c.prev.any (fun p => if r.2.2.1 then decide (p.1 < w.2.1) else decide (w.2.1 ≤ p.1))
  let ev : TrgEv := ⟨x.t, fl, false, cross,
    match c.prev with
    | some p => if cross then xfrac r.2.2.1 w.1 p.1 w.2.1 else 0
    | none => 0⟩
  let s1 := if r.2.1 then pushEv (cmpCode i) ev s else s
  let s2 := pushState (cmpCode i) x.t r.1 x.fl s1
  setCmp i { c with next := nx, prev := some (w.1, x.t, x.fl), armR := r.2.2.2.1, armF := r.2.2.2.2, hi := r.1 } s2

/-- The first stamp of a stream that is still to be delivered, none where the stream does not run (R199). -/
def streamNext (s : State) (key : Nat) : Option Tick :=
  if key < 8 then
    let t := look s.sys.base s.dsp.corNext (key - 4)
    if s.sys.counting || tle t s.tRel then some t else none
  else if key < 16 then (look [] s.dsp.ddc (key - 8)).getLast?.map DdcSeg.nxt
  else (look [] s.dsp.zc (key - 16)).getLast?.map ZcSeg.nxt

/-- The sample period of a stream in ticks (R201, R204). -/
def streamPeriod (s : State) (key : Nat) : Nat :=
  if key < 8 then 1 else if key < 16 then srcPeriod s 1 (key - 8) else srcPeriod s 2 (key - 16)

/-- A comparator goes on as far as its input and the released stream time allow (R199, R202): samples in order, a fresh
start at each landing that changes it, and each stream time as released while it is disabled or its input does not
run. -/
def cmpRun (i : Nat) : Nat → State → State
  | 0, s => s
  | n + 1, s =>
    let c := s.cmp i
    match c.brk with
    | l :: rest =>
      if tle l c.next then
        cmpRun i n (setCmp i { c with prev := none, armR := false, armF := false, hi := false, brk := rest } s)
      else cmpGo i l c s (cmpRun i n)
    | [] => cmpGo i (s.tRel + 1) c s (cmpRun i n)
where
  /-- The next sample, or the next stream time, below a bound. -/
  cmpGo (i : Nat) (bound : Tick) (c : CmpSt) (s : State) (k : State → State) : State :=
    if tle bound c.next then s
    else
      let cfg := cmpCfg s i c.next
      let skip := k (setCmp i { c with next := bound } s)
      if !cfg.en then skip
      else match ((s.stream cfg.key).filter (fun x => tle c.next x.t)).getLast? with
        | some x =>
          if tle bound x.t then skip
          else
            let nx := tadd x.t (streamPeriod s cfg.key)
            k (cmpSample i cfg x (tmin nx (tmax bound (x.t + 1))) s)
        | none => match streamNext s cfg.key with
          | some t => if tle bound t && c.brk != [] then skip else s
          | none => skip

/-- Every comparator goes on. -/
def cmpRunAll (fuel : Nat) (s : State) : State := s.each (List.range 16) (fun i s => cmpRun i fuel s)

/-! ### Masks (R205 to R208) -/

/-- The pair M_U, M_L of a point (R205): key 8,192·c + 4,096·bank + point. -/
def maskPoint (s : State) (key : Nat) : Int × Int :=
  let w := (Assoc.get 0x7FFF8000#32 s.trg.mask key).toNat
  (sext 16 (w / 65536), sext 16 w)

/-- A limit line at bin j of an N-point frame (R206); `up` selects U. -/
def maskLimit (s : State) (c bank n j : Nat) (up : Bool) : Int :=
  let m (i : Nat) : Int :=
    let p := maskPoint s (8192 * c + 4096 * bank + min i 4095)
    if up then p.1 else p.2
  if n ≤ 4096 then m (j * 4096 / n)
  else
    let i := j * 4096 / n
    let rem := j * 4096 % n
    m i + (m (i + 1) - m i) * (rem : Int) / (n : Int)

/-- The verdict of a frame: whether it is OUT (R206). -/
def maskOut (s : State) (c : Nat) (f : Frame) : Bool :=
  let n := 2 ^ f.log2n
  let bank := s.getAt f.t (Fd.MASK_CTRL_BANK c)
  let lo := s.getAt f.t (Fd.MASK_JRANGE_JLO c)
  let hi := s.getAt f.t (Fd.MASK_JRANGE_JHI c)
  (List.range n).any (fun j => decide (lo ≤ j) && decide (j ≤ hi) &&
    (let level := toDb16 (f.bins.getD j 0) f.shift f.log2n f.cgc
     decide (maskLimit s c bank n j true < level) || decide (level < maskLimit s c bank n j false)))

/-- The mask stamp of a frame: its centre (R207). -/
def maskStamp (f : Frame) : Tick := tadd f.t (2 ^ f.log2n / 2 * f.p)

/-- A mask that has judged nothing. -/
def MaskSt.empty : MaskSt := ⟨none, 0, 0, []⟩

/-- The state of a mask replaced. -/
def setMask (c : Nat) (x : MaskSt) (s : State) : State := { s with trg := { s.trg with masks := keep s.trg.masks c x } }

/-- A frame meets the mask (R207, R208). -/
def maskFrame (c : Nat) (f : Frame) (s : State) : State :=
  if !srcOn s (0x09 + c) f.t then s
  else
    let m0 := look MaskSt.empty s.trg.masks c
    let m := if m0.brk.any (fun l => tle l f.t) then
        { MaskSt.empty with brk := m0.brk.filter (fun l => !tle l f.t) } else m0
    if bit f.marks 0 || bit f.marks 1 then setMask c { m with prev := none, run := 0, runFl := 0 } s
    else
      let out := maskOut s c f
      let same := m.prev == some out
      let run := if same then m.run + 1 else 1
      let fl := if same then Nat.lor m.runFl f.fl else f.fl
      let k := s.getAt f.t (Fd.MASK_K c)
      let r : Bool × Bool := match s.getAt f.t (Fd.MASK_CTRL_COND c) with
        | 0 => (!out, !out && m.prev == some true)
        | 1 => (out, out && m.prev == some false)
        | 2 => (!out && decide (k ≤ run), !out && run == k)
        | _ => (out && decide (k ≤ run), out && run == k)
      let s1 := if r.2 then pushEv (0x09 + c) ⟨maskStamp f, fl, false, false, 0⟩ s else s
      setMask c { m with prev := some out, run := run, runFl := fl } (pushState (0x09 + c) (maskStamp f) r.1 fl s1)

/-- Whether a bank of a channel is in use (R205): the effective bank, or a pending one, while EN is 1 in effect or pending
as 1. -/
def bankInUse (s : State) (c bank : Nat) : Bool :=
  let off := (Fd.MASK_CTRL_EN c).off
  let pendEn := s.sys.pend.any (fun e => e.off == off && e.lo == 0 && e.kind == .field && e.value == 1)
  let pendBank := s.sys.pend.any (fun e => e.off == off && e.lo == 1 && e.kind == .field && e.value == bank)
  (s.on (Fd.MASK_CTRL_EN c) || pendEn) && (s.get (Fd.MASK_CTRL_BANK c) == bank || pendBank)

/-- MASK_DATA shows the point at MASK_ADDR. -/
def maskShow (s : State) : State :=
  s.set Fd.TRG_MASK_DATA (Assoc.get 0x7FFF8000#32 s.trg.mask (s.get Fd.TRG_MASK_ADDR)).toNat

/-- MASK_ADDR after an access to MASK_DATA: it moves on and wraps (R205, R231). -/
def maskNext (s : State) : State := maskShow (s.set Fd.TRG_MASK_ADDR ((s.get Fd.TRG_MASK_ADDR + 1) % 32768))

/-- An access to MASK_DATA (R205): a write to a point of a bank in use is discarded. -/
def maskData (data : Option Word) (s : State) : State :=
  match data with
  | none => maskNext s
  | some w =>
    let a := s.get Fd.TRG_MASK_ADDR
    if bankInUse s (a / 8192) (a / 4096 % 2) then maskNext (s.raise 0x0608 [.w4 a])
    else maskNext { s with trg := { s.trg with mask := Assoc.put 0x7FFF8000#32 s.trg.mask a w } }

/-- MASK_DATA (R205). -/
def execMaskData (data : Option Word) (s : State) : Out := .next (maskData data s)

/-! ### Density regions (R209) -/

/-- A region that has counted nothing. -/
def RegionSt.empty : RegionSt := ⟨[], false, []⟩

/-- A frame meets the density region (R209). -/
def regionFrame (c : Nat) (f : Frame) (s : State) : State :=
  if !srcOn s (0x0D + c) f.t then s
  else
    let g (fd : Fld) : Nat := s.getAt f.t fd
    let r0 := look RegionSt.empty s.trg.regions c
    let r := if r0.brk.any (fun l => tle l f.t) then
        { RegionSt.empty with brk := r0.brk.filter (fun l => !tle l f.t) } else r0
    let inside (p : Nat × Nat) : Bool :=
      decide (g (Fd.TDEN_COLS_COL_LO c) ≤ p.1) && decide (p.1 ≤ g (Fd.TDEN_COLS_COL_HI c)) &&
      decide (g (Fd.TDEN_ROWS_ROW_LO c) ≤ p.2) && decide (p.2 ≤ g (Fd.TDEN_ROWS_ROW_HI c))
    let n := if bit f.marks 0 || bit f.marks 1 then 0 else ((denPoints s c f).filter inside).length
    let counts := ((n, f.fl) :: r.counts).take (g (Fd.TDEN_CTRL_DWIN c) + 1)
    let on := decide (g (Fd.TDEN_DTHR c) ≤ sumL (counts.map Prod.fst))
    let fl := counts.foldl (fun a x => Nat.lor a x.2) 0
    let s1 := if on && !r.on then pushEv (0x0D + c) ⟨maskStamp f, fl, false, false, 0⟩ s else s
    let s2 := pushState (0x0D + c) (maskStamp f) on fl s1
    { s2 with trg := { s2.trg with regions := keep s2.trg.regions c { r with counts := counts, on := on } } }

/-- A delivered frame reaches the frame sources. -/
def trgFrame (c : Nat) (f : Frame) (s : State) : State := regionFrame c f (maskFrame c f s)

/-! ### The external-event log (R214) -/

/-- Whether an enabled trigger unit selects a source (R214). -/
def srcSelected (s : State) (code : Nat) : Bool :=
  s.on Fd.TRG_CTRL_EN && (List.range 8).any (fun n => s.on (Fd.TU_CTRL_EN n) &&
    (s.get (Fd.TU_SRC_A n) == code || s.get (Fd.TU_SRC_B n) == code || s.get (Fd.TU_SRC_Q n) == code))

/-- The 16 bytes of an entry (R214). -/
def xlogEntry (code : Nat) (e : TrgEv) : List Byte :=
  withCrc (le 8 e.t.toNat ++ le 1 code ++ le 1 (b2n e.late + 2 * (e.fl % 128)) ++ le 2 0)

/-- An external event is logged, or discarded by a full ring (R214). -/
def xlog (code : Nat) (e : TrgEv) (s : State) : State :=
  if !s.run || !srcSelected s code then s
  else
    let size := max 2 (s.get Fd.TRG_XLOG_SIZE)
    let wr := s.get Fd.TRG_XLOG_WR
    if (wr + size - s.get Fd.TRG_XLOG_RD) % size = size - 1 then
      (s.set Fd.TRG_XLOG_STATUS_OVF 1).raise 0x0609 [.w4 code, .t e.t]
    else (s.store (s.rd64 0x70030 + 16 * wr) (xlogEntry code e)).set Fd.TRG_XLOG_WR ((wr + 1) % size)

/-- An event of a pin, of Tally or of the fabric is placed and logged. -/
def placeEv (code : Nat) (e : TrgEv) (s : State) : State := xlog code e (pushEv code e s)

/-! ### Pins (R210) -/

/-- A pin that has seen nothing. -/
def TinSt.empty : TinSt := ⟨false, none⟩

/-- A stream time moved by a signed number of ticks. -/
def tmove (t : Tick) (d : Int) : Tick := t + BitVec.ofInt 64 d

/-- TRIG_IN_EDGE (R210): pin n takes a level during the release of tick `ph` of the next beat. -/
def execTrigInEdge (n : Fin 4) (level : Bool) (ph : Fin 16) (s : State) : Out :=
  let code := 0x19 + n.val
  let p := look TinSt.empty s.trg.tins n.val
  let setPin (x : TinSt) (s : State) : State := { s with trg := { s.trg with tins := keep s.trg.tins n.val x } }
  if p.level = level then .next s
  else
    let s1 := setPin { p with level := level } s
    let t := tadd s.sys.next ph.val
    if !s.sys.counting || s.on Fd.TRG_XLOG_STATUS_PLAYBACK || !srcOn s code t then .next s1
    else
      let edge := s.get (Fd.TIN_CFG_EDGE n.val)
      let stamp := tmove t (s.getI (Fd.TIN_OFF n.val))
      let fl := Nat.land (spanFlags s allChans t t) Df.hld
      let s2 := pushState code stamp (if edge = 1 then !level else level) fl s1
      let sel := edge == 2 || (edge == 0 && level) || (edge == 1 && !level)
      let merged := p.lastEv.any (fun e => (t - e).toNat < 64)
      .next (if sel && !merged then placeEv code ⟨stamp, fl, false, false, 0⟩ (setPin ⟨level, some t⟩ s2) else s2)

/-! ### The fabric (R212) -/

/-- The first stream time that the fabric lines have not reported through (R212). -/
def fabHorizon (s : State) : Tick := tsub s.sys.next (s.get Fd.TRG_FAB_HZ)

/-- A fabric trigger message is placed on its line (R212): late, it goes to the first stream time not yet reported
through, with FAB and LATE. -/
def fabPlace (line : Nat) (t : Tick) (fl : Nat) (s : State) : State :=
  let code := 0x25 + line
  if !s.sys.counting || s.on Fd.TRG_XLOG_STATUS_PLAYBACK || !srcOn s code s.tRel then s
  else
    let u := fabHorizon s
    if tle u t then placeEv code ⟨t, fl, false, false, 0⟩ s
    else
      (placeEv code ⟨u, Nat.lor fl Df.fab, true, false, 0⟩ s).raisePerLanding line 0x0604 [.w4 line, .t t, .t u]

/-- FABRIC_TRIGGER_MESSAGE (R212). -/
def execFabricTriggerMessage (line : Fin 16) (t : Tick) (flags : BitVec 7) (s : State) : Out :=
  .next (fabPlace line.val t flags.toNat s)

/-! ### Tally and Cykin (R211, R213) -/

/-- A Tally stamp of EVn at the integer part t (R211). -/
def evPlace (n : Nat) (t : Tick) (fl : Nat) (s : State) : State :=
  if s.on Fd.TRG_XLOG_STATUS_PLAYBACK || !srcOn s (0x1D + n) s.tRel then s
  else placeEv (0x1D + n) ⟨t, fl, false, false, 0⟩ s

/-- A post on Cykin line m (R213): progress, or a trigger placed after the reported point. -/
def cykPost (m : Nat) (t : Tick) (trigger : Bool) (fl : Nat) (s : State) : State :=
  let code := 0x35 + m
  let x := s.src code
  let at' := match x.upto with
    | some u => if tle t u then u + 1 else t
    | none => t
  let s1 := if trigger then pushEv code ⟨at', fl, false, false, 0⟩ s else s
  let y := s1.src code
  setSrc code { y with upto := some (match x.upto with
    | some u => tmax u t
    | none => t) } s1

/-! ### How far a source has reported (R199) -/

/-- Whether a Cykin line holds back the units that select it (R213): enabled, its core RUNNING or WAITING. -/
def cykLineLive (s : State) (m : Nat) : Bool :=
  s.on (Fd.CYK_TLINE_EN m) &&
    (let st := s.get (Fd.COR_STATUS_STATE (s.get (Fd.CYK_TLINE_CORE m))); st == 2 || st == 3)

/-- The centres of the next frames of a channel's runs: no frame source has reported through the least of them. -/
def frameBound (s : State) (c : Nat) : Option Tick :=
  ((s.spxSegs c).filter segPending).foldl (fun acc g =>
    let t := tadd (frameStamp g g.k) (2 ^ g.log2n / 2 * g.p)
    some (match acc with
      | some u => tmin u t
      | none => t)) none

/-- The released stream time up to which sources that hold nothing back report: past a stop, its landing. -/
def relPoint (s : State) : Tick := if s.sys.counting then s.tRel else s.sys.next

/-- The stream time that a unit has reported through as a source: as released while it is OFF or STALLED (R222, R241). -/
def tuThrough (s : State) (m : Nat) : Option Tick :=
  match s.trg.tus.find? (fun e => e.1 == m) with
  | none => some (relPoint s)
  | some (_, u) =>
    if u.st = .stalled then some (relPoint s)
    else if u.st = .off then
      match u.acts with
      | [] => some (relPoint s)
      | a :: _ => some (tmin (relPoint s) (a.1 - 1))
    else u.done

/-- The stream time through which a source has reported, none where it has reported nothing (R199, R210 to R213). -/
def srcThrough (s : State) (code : Nat) : Option Tick :=
  let rel := relPoint s
  let live := s.on Fd.TRG_CTRL_EN
  match srcKind code with
  | .none => some rel
  | .td j => let t := (s.cmp j).next; some (if tle t s.tRel then t - 1 else rel)
  | .zp p => let t := (s.cmp (8 + p)).next; some (if tle t s.tRel then t - 1 else rel)
  | .mask c => some (match frameBound s c with
      | some t => if live && s.on (Fd.MASK_CTRL_EN c) then tmin rel (t - 1) else rel
      | none => rel)
  | .den c => some (match frameBound s c with
      | some t => if live && s.on (Fd.TDEN_CTRL_EN c) then tmin rel (t - 1) else rel
      | none => rel)
  | .tin n => some (if s.sys.counting && srcOn s code rel && !s.on Fd.TRG_XLOG_STATUS_PLAYBACK then
      tmove rel (s.getI (Fd.TIN_OFF n)) else rel)
  | .ev _ => some (if s.sys.counting && srcOn s code rel && !s.on Fd.TRG_XLOG_STATUS_PLAYBACK then tsub rel 128 else rel)
  | .fab _ => some (if s.sys.counting && live && !s.on Fd.TRG_XLOG_STATUS_PLAYBACK then fabHorizon s - 1 else rel)
  | .cyk m => if live && cykLineLive s m then (s.src code).upto else some rel
  | .tu m => tuThrough s m

/-- Whether a source has reported through a stream time. -/
def reported (s : State) (code : Nat) (t : Tick) : Bool := (srcThrough s code).any (fun u => tle t u)

/-! ### At a landing -/

/-- The fields of a source whose change at a landing counts for the units that select it (R221). -/
def srcFields : SrcKind → List Fld
  | .td j => [Fd.TD_CTRL_COND j, Fd.TD_CTRL_COMP j, Fd.TD_CTRL_SRC j, Fd.TD_CTRL_EN j, Fd.TD_LEVEL j, Fd.TD_HYS j]
  | .mask c => [Fd.MASK_CTRL_COND c, Fd.MASK_CTRL_BANK c, Fd.MASK_CTRL_EN c, Fd.MASK_K c, Fd.MASK_JRANGE_JHI c,
      Fd.MASK_JRANGE_JLO c]
  | .den c => [Fd.TDEN_CTRL_DWIN c, Fd.TDEN_CTRL_EN c, Fd.TDEN_COLS_COL_HI c, Fd.TDEN_COLS_COL_LO c,
      Fd.TDEN_ROWS_ROW_HI c, Fd.TDEN_ROWS_ROW_LO c, Fd.TDEN_DTHR c]
  | .zp p => [Fd.ZP_CTRL_COND p, Fd.ZP_CTRL_ZC p, Fd.ZP_CTRL_EN p, Fd.ZP_LEVEL p, Fd.ZP_HYS p]
  | .tin n => [Fd.TIN_CFG_EN n, Fd.TIN_CFG_EDGE n, Fd.TIN_OFF n]
  | .ev n => [Fd.EV_CFG_PRE n, Fd.EV_CFG_QEN n, Fd.EV_CFG_EDGE n, Fd.EV_CFG_TYPE n, Fd.EV_CFG_EN n]
  | .fab _ => [Fd.TRG_FAB_HZ]
  | .cyk m => [Fd.CYK_TLINE_EN m, Fd.CYK_TLINE_CORE m]
  | .tu m => [Fd.TU_CTRL_FABOUT m, Fd.TU_CTRL_QINV m, Fd.TU_CTRL_ARMMODE m, Fd.TU_CTRL_MODE m, Fd.TU_CTRL_EN m,
      Fd.TU_SRC_Q m, Fd.TU_SRC_B m, Fd.TU_SRC_A m, Fd.TU_WINDOW m, Fd.TU_HOLDOFF m, Fd.TU_COUNT m, Fd.TU_QWIN m]
  | .none => []

/-- Whether a stream runs (R199). -/
def streamRuns (s : State) (key : Nat) : Bool :=
  if key < 8 then s.sys.counting else if key < 16 then ddcRunning s (key - 8) else zcRunning s (key - 16)

/-- The clamps of R201 and R206 at a landing. -/
def srcClamps (old : State) (s : State) : State :=
  let td (j : Nat) (s : State) : State :=
    if anyChanged old s [Fd.TD_CTRL_COMP j, Fd.TD_LEVEL j] && s.get (Fd.TD_CTRL_COMP j) == 2 &&
        decide (s.getI (Fd.TD_LEVEL j) < 0) then (s.set (Fd.TD_LEVEL j) 0).clamped else s
  let hold (f : Fld) (v : Nat) (s : State) : State := if s.get f = v then s else (s.set f v).clamped
  let jr (c : Nat) (s : State) : State :=
    if s.sys.fresh || anyChanged old s (frameFields c ++ [Fd.MASK_JRANGE_JHI c, Fd.MASK_JRANGE_JLO c]) then
      let n := 2 ^ s.get (Fd.SPX_CTRL_LOG2N c)
      let s1 := hold (Fd.MASK_JRANGE_JLO c) (min (s.get (Fd.MASK_JRANGE_JLO c)) (n - 1)) s
      hold (Fd.MASK_JRANGE_JHI c) (max (s1.get (Fd.MASK_JRANGE_JLO c)) (min (s1.get (Fd.MASK_JRANGE_JHI c)) (n - 1))) s1
    else s
  (s.each (List.range 8) td).each (List.range 4) jr

/-- Sources at landing L: clamps, fresh starts of the comparators, masks, regions and pins, and the runs of their inputs
(R202, R207, R209, R210). -/
def srcLand (old : State) (l : Tick) (s : State) : State :=
  let s0 := srcClamps old s
  let all := s0.sys.fresh || anyChanged old s0 [Fd.TRG_CTRL_EN]
  let s1 := s0.each (List.range 16) (fun i s =>
    let k := (cmpCfg s i l).key
    let started := streamRuns s k && !streamRuns old k
    let runs := streamRuns s k
    let x := s.src (cmpCode i)
    let s' := if histAt true x.runs l = runs then s else setSrc (cmpCode i) { x with runs := (l, runs) :: x.runs } s
    if all || started || anyChanged old s (srcFields (srcKind (cmpCode i))) then
      let c := s'.cmp i
      setCmp i { c with brk := c.brk ++ [l] } s'
    else s')
  let s2 := s1.each (List.range 4) (fun c s =>
    let runs := spxRunning s c
    let started := runs && !spxRunning old c
    let frameCh := anyChanged old s (frameFields c)
    let note (code : Nat) (s : State) : State :=
      let x := s.src code
      if histAt true x.runs l = runs then s else setSrc code { x with runs := (l, runs) :: x.runs } s
    let s' := note (0x0D + c) (note (0x09 + c) s)
    let m := look MaskSt.empty s'.trg.masks c
    let s'' := if all || started || frameCh || anyChanged old s' (srcFields (.mask c)) then
        setMask c { m with brk := m.brk ++ [l] } s' else s'
    let r := look RegionSt.empty s''.trg.regions c
    if all || started || frameCh || anyChanged old s'' (srcFields (.den c)) then
      { s'' with trg := { s''.trg with regions := keep s''.trg.regions c { r with brk := r.brk ++ [l] } } } else s'')
  s2.each (List.range 4) (fun n s =>
    if all || anyChanged old s (srcFields (.tin n)) then
      let p := look TinSt.empty s.trg.tins n
      let s' := { s with trg := { s.trg with tins := keep s.trg.tins n { p with lastEv := none } } }
      pushState (0x19 + n) l (if s.get (Fd.TIN_CFG_EDGE n) = 1 then !p.level else p.level) 0 s'
    else s)

end Sys2Proof.Machine
end

