-- ==== Sys2Proof/Machine/Hoop.lean ====
section
/-! DEFINITION. Hoop (R234 to R258): element streams, ring geometry, arming, commitment, the mapping of triggers, records
and their headers. -/

namespace Sys2Proof.Machine

/-! ### Writers -/

/-- A writer at reset. -/
def HwSt.empty (n : Nat) : HwSt :=
  { st := .off, slot := 0, k := 0, fill := [], armL := 0, start := 0, last := 0, rec' := none, kind := 0, idx := n % 4,
    ready := none, armEv := none, acts := [], headers := [], rseq := 0, overCap := false, srcRun := true }

/-- The state of a writer. -/
def State.hw (s : State) (n : Nat) : HwSt := look (HwSt.empty n) s.hoop n

/-- The state of a writer replaced. -/
def setHw (n : Nat) (h : HwSt) (s : State) : State := { s with hoop := keep s.hoop n h }

/-- The BAR0 offset of a register of HWn. -/
def hwAt (n x : Nat) : Nat := 0x81000 + 0x100 * n + x

/-! ### Elements (R234, R236) -/

/-- Whether the output of a downconverter is real (R148, R170). -/
def ddcReal (s : State) (c : Nat) : Bool :=
  !s.isComplex && (match look [] s.dsp.ddc c with
    | g :: _ => g.n == 0
    | [] => s.get (Fd.DDC_CTRL_DEC c) == 0)

/-- Whether a source of R165 carries real samples. -/
def srcReal (s : State) (kind idx : Nat) : Bool :=
  match kind with
  | 1 => ddcReal s idx
  | 2 => false
  | _ => !s.isComplex

/-- Whether the elements of KIND and IDX are complex (R234). -/
def elemComplex (s : State) (kind idx : Nat) : Bool :=
  match kind with
  | 0 => s.isComplex
  | 1 => !srcReal s (s.get (Fd.CD_CTRL_KIND idx)) (s.get (Fd.CD_CTRL_IDX idx))
  | _ => false

/-- Element size e (R234). -/
def elemSize (s : State) (kind idx : Nat) : Nat := if kind = 2 then 8256 else if elemComplex s kind idx then 4 else 2

/-- Element period P_h in ticks (R234). -/
def elemPeriod (s : State) (kind idx : Nat) : Nat :=
  match kind with
  | 0 => 1
  | 1 => srcPeriod s (s.get (Fd.CD_CTRL_KIND idx)) (s.get (Fd.CD_CTRL_IDX idx)) * s.get (Fd.CD_DEC idx)
  | _ => s.get (Fd.TR_FDEC (idx % 4) (idx / 4)) * s.get (Fd.SPX_HOP (idx % 4))

/-- The bytes of a sample element (R234). -/
def sampBytes (cx : Bool) (x : Samp) : List Byte := le 2 (encI 16 x.i) ++ (if cx then le 2 (encI 16 x.q) else [])

/-- The group delay that widens a sample's contributing span (R144), by stream key. -/
def keyDelay (s : State) (key : Nat) : Nat :=
  if key < 8 then 0
  else if key < 16 then ddcDelay (match look [] s.dsp.ddc (key - 8) with
    | g :: _ => g.n
    | [] => s.get (Fd.DDC_CTRL_DEC (key - 8)))
  else s.get (Fd.ZC_GDELAY (key - 16))

/-- The channel that feeds a stream. -/
def keyChan (s : State) (key : Nat) : Nat :=
  if key < 16 then key % 4 else s.get (Fd.ZC_CTRL_SRC (key - 16))

/-- A sample as an element, with its contributing span (R51, R144). -/
def sampElem (s : State) (cx : Bool) (key : Nat) (x : Samp) : Elem :=
  let g := keyDelay s key
  let r := if key < 4 then (0, 0) else correctReach (coefAt s (keyChan s key) x.t)
  ⟨x.t, sampBytes cx x, x.fl, x.marks, tsub x.t (g + r.1), tadd x.t (g + r.2)⟩

/-- The elements that a KIND and IDX have delivered, stamped at or after a stream time, oldest first. -/
def elems (s : State) (kind idx : Nat) (t : Tick) : List Elem :=
  let cx := elemComplex s kind idx
  match kind with
  | 0 => (((s.stream (4 + idx)).filter (fun x => tle t x.t)).map (sampElem s cx (4 + idx))).reverse
  | 1 =>
    let key := srcKey (s.get (Fd.CD_CTRL_KIND idx)) (s.get (Fd.CD_CTRL_IDX idx))
    ((cdSamples s idx).filter (fun x => tle t x.t)).map (sampElem s cx key)
  | _ => ((look [] s.spx.recs (trKey (idx % 4) (idx / 4))).filter (fun r => tle t r.t)).map (fun r =>
      ⟨r.t, r.bytes ++ zeros (8256 - r.bytes.length), r.fl, r.marks, r.lo, r.hi⟩) |>.reverse

/-- A stream time below which a source will deliver no further element, none where it delivers none at all. -/
def elemsBound (s : State) (kind idx : Nat) : Option Tick :=
  match kind with
  | 0 => streamNext s (4 + idx)
  | 1 => streamNext s (srcKey (s.get (Fd.CD_CTRL_KIND idx)) (s.get (Fd.CD_CTRL_IDX idx)))
  | _ => let x := s.trace (idx % 4) (idx / 4)
    if x.frame.isSome then some x.tFirst else nextFrame s (idx % 4)

/-- Whether a writer's source runs (R247 cause 1). -/
def elemRuns (s : State) (kind idx : Nat) : Bool :=
  match kind with
  | 0 => true
  | 1 => streamRuns s (srcKey (s.get (Fd.CD_CTRL_KIND idx)) (s.get (Fd.CD_CTRL_IDX idx)))
  | _ => spxRunning s (idx % 4) && s.on (Fd.TR_TCTRL_EN (idx % 4) (idx / 4))

/-! ### Geometry (R237, R238, R249) -/

/-- The geometry fields of a writer, effective or held. -/
structure HwGeom where
  base : Nat
  size : Nat
  nseg : Nat
  pre : Nat
  post : Nat
  hdr : Nat
deriving DecidableEq, Repr

/-- The effective geometry of a writer. -/
def hwGeom (s : State) (n : Nat) : HwGeom :=
  ⟨s.rd64 (hwAt n 0x08), s.get (Fd.HW_SIZE n), s.get (Fd.HW_NSEG n), s.get (Fd.HW_PRE n), s.get (Fd.HW_POST n),
   s.rd64 (hwAt n 0x20)⟩

/-- The held geometry of a writer. -/
def hwHeld (s : State) (n : Nat) : HwGeom :=
  ⟨s.rd64 (hwAt n 0x48), s.get (Fd.HW_PSIZE n), s.get (Fd.HW_PNSEG n), s.get (Fd.HW_PPRE n), s.get (Fd.HW_PPOST n),
   s.rd64 (hwAt n 0x60)⟩

/-- SLOT_BYTES (R237). -/
def HwGeom.slotBytes (g : HwGeom) : Nat := g.size * 2 ^ 20 / max 1 g.nseg / 4096 * 4096

/-- S_cap (R237). -/
def HwGeom.cap (g : HwGeom) (e : Nat) : Nat := g.slotBytes / e

/-- One field of a geometry held to its limits against the others (R238). -/
def HwGeom.clampField (g : HwGeom) (e : Nat) (field : Nat) : HwGeom :=
  match field with
  | 0 => { g with base := min (floorTo (2 ^ 21) g.base) (floorTo (2 ^ 21) (0x0017FE000000 - g.size * 2 ^ 20)) }
  | 1 => { g with size := min (max 2 (g.size / 2 * 2)) (min 81920 ((0x0017FE000000 - g.base) / 2 ^ 21 * 2)) }
  | 2 => { g with nseg := min (max 1 g.nseg) (min 65536 (g.size * 2 ^ 20 / (ceilTo 4096 (max 4096 (2 * e))))) }
  | 3 => { g with pre := min g.pre (g.cap e - g.post) }
  | 4 => { g with post := min (max 1 g.post) (g.cap e) }
  | _ => { g with hdr := floorTo 64 (min g.hdr (0x001800000000 - 64)) }

/-- A geometry with the written field first and then NSEG, POST and PRE held to their limits, and the number of values
changed (R238). -/
def HwGeom.clampAll (g : HwGeom) (e : Nat) (field : Nat) : HwGeom × Nat :=
  ((field :: [2, 4, 3].filter (fun f => f != field))).foldl (fun acc f =>
    let h := acc.1.clampField e f
    (h, acc.2 + b2n (h != acc.1))) (g, 0)

/-- The effective geometry replaced; SCAP follows (R237). -/
def putGeom (n : Nat) (g : HwGeom) (s : State) : State :=
  let s1 := ((s.wr64 (hwAt n 0x08) g.base).set (Fd.HW_SIZE n) g.size).set (Fd.HW_NSEG n) g.nseg
  let s2 := ((s1.set (Fd.HW_PRE n) g.pre).set (Fd.HW_POST n) g.post).wr64 (hwAt n 0x20) g.hdr
  s2.set (Fd.HW_SCAP n) (g.cap (elemSize s (s.get (Fd.HW_SRC_KIND n)) (s.get (Fd.HW_SRC_IDX n))))

/-- The held geometry replaced. -/
def putHeld (n : Nat) (g : HwGeom) (s : State) : State :=
  let s1 := ((s.wr64 (hwAt n 0x48) g.base).set (Fd.HW_PSIZE n) g.size).set (Fd.HW_PNSEG n) g.nseg
  ((s1.set (Fd.HW_PPRE n) g.pre).set (Fd.HW_PPOST n) g.post).wr64 (hwAt n 0x60) g.hdr

/-- A geometry with one field given a value: 0 BASE, 1 SIZE, 2 NSEG, 3 PRE, 4 POST, 5 HDR_BASE. -/
def HwGeom.with (g : HwGeom) (field v : Nat) : HwGeom :=
  match field with
  | 0 => { g with base := v }
  | 1 => { g with size := v }
  | 2 => { g with nseg := v }
  | 3 => { g with pre := v }
  | 4 => { g with post := v }
  | _ => { g with hdr := v }

/-- The element size that a writer's geometry is held against. -/
def hwElemSize (s : State) (n : Nat) : Nat := elemSize s (s.get (Fd.HW_SRC_KIND n)) (s.get (Fd.HW_SRC_IDX n))

/-- The first landing whose decision point follows now. -/
def landingAhead (s : State) : Tick := nextLanding s

/-- A write to a geometry field (R238, R249): at once in OFF or DONE, else held. -/
def geomWrite (n field v : Nat) (s : State) : State :=
  let h := s.hw n
  let now := h.st == .off || h.st == .done
  let g := (if now then hwGeom s n else hwHeld s n).with field v
  let r := g.clampAll (hwElemSize s n) field
  let s1 := s.clamped r.2
  if now then
    let s2 := putGeom n r.1 s1
    if h.ready.isSome then s2 else putHeld n r.1 s2
  else (setHw n { h with ready := some (landingAhead s) } (putHeld n r.1 s1)).set (Fd.HW_STATUS_PENDING n) 1

/-- HOOP_GEOMETRY_WRITE (R249). -/
def execHoopGeometryWrite (w : Fin 8) (field : Fin 6) (value : Nat) (s : State) : Out :=
  .next (geomWrite w.val field.val value s)

/-! ### NEED, CAP and refusals (R242, R255) -/

/-- NEED (R242). -/
def hwNeed (s : State) (n : Nat) : Nat :=
  maxL ((List.range 8).map (fun m => if s.onBit (Fd.HW_CTRL_TUMASK n) m then s.get (Fd.TU_DMIN m) else 0)) + 409600

/-- CAP (R242). -/
def hwCap (s : State) (n : Nat) : Nat :=
  let k := s.get (Fd.HW_SRC_KIND n)
  let i := s.get (Fd.HW_SRC_IDX n)
  3 * 2 ^ 20 / elemSize s k i * elemPeriod s k i

/-- Whether two ranges of memory meet. -/
def meets (a n b m : Nat) : Bool := decide (a < b + m) && decide (b < a + n)

/-- Whether the rings or header tables of two geometries meet (R255). -/
def geomMeets (a b : HwGeom) : Bool :=
  let ra := [(a.base, a.size * 2 ^ 20), (a.hdr, 64 * a.nseg)]
  let rb := [(b.base, b.size * 2 ^ 20), (b.hdr, 64 * b.nseg)]
  ra.any (fun x => rb.any (fun y => meets x.1 x.2 y.1 y.2))

/-- Writers that are not OFF. -/
def hwActive (s : State) : List Nat := (List.range 8).filter (fun n => (s.hw n).st != .off)

/-- The lowest reason for which an arm with a geometry is refused (R255). -/
def armRefused (s : State) (n : Nat) (g : HwGeom) : Option Nat :=
  let others := (hwActive s).filter (fun m => m != n)
  if hwCap s n < hwNeed s n then some 1
  else if others.any (fun m => geomMeets g (hwGeom s m)) then some 2
  else if 81920 < g.size + sumL (others.map (fun m => s.get (Fd.HW_SIZE m))) then some 3
  else none

/-- The code of a writer's state. -/
def HwState.code : HwState → Nat
  | .off => 0
  | .armed => 1
  | .post => 2
  | .done => 3

/-- The status registers of a writer and of Hoop follow its state (R256). -/
def hwStatus (n : Nat) (s : State) : State :=
  let h := s.hw n
  let s1 := (s.set (Fd.HW_STATUS_STATE n) h.st.code).set (Fd.HW_STATUS_QUIESCENT n)
    (b2n (h.st == .off && h.headers.isEmpty))
  let s2 := s1.set Fd.HOOP_STATUS_ACTIVE ((hwActive s1).foldl (fun a m => a + 2 ^ m) 0)
  let s3 := s2.set Fd.HOOP_TOTAL (sumL ((hwActive s2).map (fun m => s2.get (Fd.HW_SIZE m))))
  s3.set Fd.HOOP_STATUS_QUIESCENT (b2n ((List.range 8).all (fun m => (s3.hw m).st == .off && (s3.hw m).headers.isEmpty)))

/-! ### Fills and records (R240, R243 to R247) -/

/-- The held geometry is applied (R249). -/
def geomApply (n : Nat) (s : State) : State :=
  let h := s.hw n
  let s1 := (putGeom n (hwHeld s n) s).set (Fd.HW_STATUS_PENDING n) 0
  (setHw n { h with ready := none, slot := 0 } s1).raise 0x0706 [.w4 n, .w4 h.rseq]

/-- A fill of the present slot starts with the first element stamped at or after `from'` (R240, R246). -/
def fillStart (n : Nat) (from' : Tick) (s : State) : State :=
  let h := s.hw n
  hwStatus n ((setHw n { h with st := .armed, k := 0, fill := [], rec' := none, start := from' } s).set
    (Fd.HW_FILLING_SEQ n) h.rseq)

/-- A re-arm at a stream time (R246, R249): the next slot, slot 0, or DONE; the held geometry is applied first if its
landing has come. -/
def rearm (n : Nat) (from' : Tick) (recordEnded : Bool) (s : State) : State :=
  let h := s.hw n
  let auto := s.onAt from' (Fd.HW_CTRL_ARMMODE n)
  let lastSlot := decide (s.get (Fd.HW_NSEG n) ≤ h.slot + 1)
  if recordEnded && lastSlot && !auto then hwStatus n (setHw n { h with st := .done, rec' := none, fill := [] } s)
  else
    let slot := if !recordEnded then h.slot else if lastSlot then 0 else h.slot + 1
    let s1 := setHw n { h with slot := slot } s
    fillStart n from' (if h.ready.any (fun l => tle l from') then geomApply n s1 else s1)

/-- The header of a record (R250, R251). -/
def hwHeader (s : State) (n : Nat) (h : HwSt) (r : HwRec) (cause : Option Nat) : HwHeader :=
  let g := hwGeom s n
  let e := elemSize s h.kind h.idx
  let first := r.kj - r.pre
  let held := (h.fill.take (h.k - first)).reverse
  let fl := held.foldl (fun a x => Nat.lor a x.fl) r.fl
  let lo := (held.head?.map Elem.lo).getD r.tTrig
  let hi := (held.getLast?.map Elem.hi).getD r.tTrig
  let t0 := (held.head?.map Elem.t).getD r.tTrig
  let ck := s.getAt t0 (Fd.CD_CTRL_KIND h.idx)
  let ci := s.getAt t0 (Fd.CD_CTRL_IDX h.idx)
  let key := match h.kind with
    | 0 => 4 + h.idx
    | 1 => srcKey ck ci
    | _ => 4 + h.idx % 4
  let ch := keyChan s key
  let marks := held.foldl (fun a x => Nat.lor a (x.marks % 4)) 0
  let mk := Nat.lor marks (b2n (stepWithin s ch lo hi) * 4 + b2n cause.isSome * 8 +
    b2n (decide (r.pre < g.pre)) * 16 + b2n (bit r.marks 1) * 32 + b2n (bit r.marks 2) * 64)
  let srccfg := (if h.kind = 1 then s.getAt t0 (Fd.CD_DEC h.idx) - 1 else 0) + h.kind * 2 ^ 17 + h.idx * 2 ^ 19 +
    (if h.kind = 1 then ci * 2 ^ 23 + ck * 2 ^ 29 else 0)
  let per := match h.kind with
    | 0 => 1
    | 1 => srcPeriod s ck ci
    | _ => 0
  let off := h.slot * g.slotBytes + first % max 1 (g.cap e) * e
  let bytes := le 4 0x504F4F48 ++ le 1 1 ++ le 1 (n + b2n (elemComplex s h.kind h.idx) * 8 + r.marks / 16 * 16) ++
    le 1 (fl % 128) ++ le 1 mk ++ le 8 r.tTrig.toNat ++ le 8 t0.toNat ++ le 4 r.pre ++ le 4 (h.k - first) ++ le 8 off ++
    le 4 h.rseq ++ le 2 h.slot ++ le 1 r.src ++ le 1 r.hit ++ le 4 (csidAt s ch lo) ++ le 4 srccfg ++ le 4 per
  let d : HoopRec := ⟨h.rseq, g.hdr + 64 * h.slot, g.base + h.slot * g.slotBytes, g.slotBytes, g.cap e, e, first, h.k - first,
    t0, (held.getLast?.map Elem.t).getD r.tTrig, fl % 128⟩
  ⟨g.hdr + 64 * h.slot, withCrc bytes, h.rseq, r.tTrig, fl % 128, cause, d⟩

/-- A record ends: its header waits for the data writes (R245, R247). -/
def recordEnd (n : Nat) (cause : Option Nat) (s : State) : State :=
  let h := s.hw n
  match h.rec' with
  | none => s
  | some r =>
    let hd := hwHeader s n h r cause
    hwStatus n (setHw n { h with rec' := none, headers := h.headers ++ [hd], rseq := (h.rseq + 1) % 2 ^ 32 } s)

/-- RECORD_HEADER_WRITE (R245, R247): the oldest waiting header of a writer is written; RECORDS increments, and event
0x0702 or 0x0707 is raised. -/
def execRecordHeaderWrite (w : Fin 8) (s : State) : Out :=
  let n := w.val
  let h := s.hw n
  match h.headers with
  | [] => .next s
  | d :: rest =>
    let s1 := ((setHw n { h with headers := rest } s).store d.addr d.bytes).bump (Fd.HW_RECORDS n)
    let s2 := match d.cause with
      | none => s1.raise 0x0702 [.w4 n, .w4 d.rseq, .t d.tTrig]
      | some c => s1.raise 0x0707 [.w4 n, .w4 d.rseq, .w4 c]
    let s3 := { s2 with scr := { s2.scr with hoop := keep s2.scr.hoop n (d.desc :: look [] s2.scr.hoop n) } }
    .next (stick d.fl d.tTrig (hwStatus n s3))

/-- The triggers of selected units that map to an element stamped t, the element before it being stamped `last`
(R243). -/
def mapped (s : State) (n : Nat) (last t : Tick) : List Trig :=
  s.trg.trigs.filter (fun g => tlt last g.t && tle g.t t && bit (s.getAt t (Fd.HW_CTRL_TUMASK n)) g.tu)

/-- The record that accepted triggers open (R243). -/
def recOpen (k pre post : Nat) (ts : List Trig) : HwRec :=
  let lead := ts.foldl (fun (acc : Option Trig) g => match acc with
    | none => some g
    | some a => if tlt g.t a.t || (g.t == a.t && decide (g.tu < a.tu)) then some g else some a) none
  let a := lead.getD ⟨0, 0, 0, 0, 0, 0, 0xFF, 0⟩
  ⟨k, min pre k, post, a.t, a.src, a.marks, ts.foldl (fun m g => setBit m g.tu) 0,
   ts.foldl (fun m g => Nat.lor m g.fl) 0⟩

/-- The triggers of an element are applied (R243, TRIGGER_MAPPED). -/
def mapTriggers (n : Nat) (e : Elem) (s : State) : State :=
  let h := s.hw n
  let ts := mapped s n h.last e.t
  if ts.isEmpty then s
  else if h.st = .armed && tle h.start e.t then
    let ok := ts.filter (fun g => tle h.armL g.t)
    if ok.isEmpty then s
    else hwStatus n (setHw n { h with st := .post, rec' := some (recOpen h.k (s.get (Fd.HW_PRE n))
      (s.get (Fd.HW_POST n)) ok) } s)
  else if h.st = .armed || h.st = .post then
    ts.foldl (fun s g => (s.bump (Fd.HW_IGNORED n)).raisePerLanding n 0x0705 [.w4 n, .t g.t]) s
  else s

/-- An element is written into its slot (R237). -/
def writeElem (n : Nat) (e : Elem) (s : State) : State :=
  let h := s.hw n
  let g := hwGeom s n
  let sz := elemSize s h.kind h.idx
  s.store (g.base + h.slot * g.slotBytes + h.k % max 1 (g.cap sz) * sz) e.bytes

/-- An element is committed (R241, R245): its triggers, its write, the end of a record that it completes. -/
def commitElem (n : Nat) (e : Elem) (s : State) : State :=
  let s1 := mapTriggers n e s
  let h := s1.hw n
  if h.st = .off || h.st = .done || tlt e.t h.start then setHw n { h with last := e.t } s1
  else
    let s2 := writeElem n e s1
    let s3 := match h.armEv with
      | some l => s2.raise 0x0701 [.w4 n, .t l, .t e.t]
      | none => s2
    let r := h.rec'.map (fun r => { r with left := r.left - 1 })
    let s4 := setHw n { h with last := e.t, k := h.k + 1, fill := e :: h.fill, rec' := r, armEv := none } s3
    if r.any (fun r => r.left == 0) then rearm n (e.t + 1) true (recordEnd n none s4) else s4

/-- What landed on a writer acts (R240, R247, R248): `l` is its landing. -/
def hwAct (n : Nat) (l : Tick) (a : HwAct) (s : State) : State :=
  let h := s.hw n
  let close (cause : Nat) (next : Tick) (s : State) : State :=
    let had := h.rec'.isSome
    if h.st = .armed || h.st = .post then rearm n next had (recordEnd n (some cause) s) else s
  let arm (s : State) : State :=
    let g := if h.ready.any (fun r => tle r l) then hwHeld s n else hwGeom s n
    match armRefused s n g with
    | some r => (s.set (Fd.HW_STATUS_REFUSED n) 1).raise 0x0703 [.w4 n, .w4 r]
    | none =>
      let s1 := if h.ready.any (fun r => tle r l) then geomApply n s else s
      let h1 := s1.hw n
      fillStart n l (setHw n { h1 with slot := 0, armL := l, last := l - 1, armEv := some l
                                       kind := s.get (Fd.HW_SRC_KIND n), idx := s.get (Fd.HW_SRC_IDX n) } s1)
  match a with
  | .enable => arm s
  | .arm => if h.st = .armed || h.st = .done then arm s else s
  | .disable =>
    let s1 := recordEnd n (some 0) s
    let h1 := s1.hw n
    hwStatus n (setHw n { h1 with st := .off, fill := [], k := 0, rec' := none } s1)
  | .srcStop => close 1 (h.last + 1) s
  | .srcChange =>
    let s1 := close 2 l s
    let h1 := s1.hw n
    setHw n { h1 with kind := s.getAt l (Fd.HW_SRC_KIND n), idx := s.getAt l (Fd.HW_SRC_IDX n), last := tmax h1.last (l - 1) } s1
  | .stop => close 3 (l - 1 + 2 ^ 62) s
  | .restart =>
    let s1 := setHw n { h with armL := l, last := l - 1, start := l, kind := s.get (Fd.HW_SRC_KIND n)
                               idx := s.get (Fd.HW_SRC_IDX n) } s
    if h.st = .armed then fillStart n l s1 else s1

/-- The stream time through which every selected unit has reported, for an element stamped t (R241). -/
def unitsReported (s : State) (n : Nat) (t : Tick) : Bool :=
  (List.range 8).all (fun m => !bit (s.getAt t (Fd.HW_CTRL_TUMASK n)) m || (tuThrough s m).any (fun u => tle t u))

/-- The next element of a writer that has been delivered. -/
def nextElem (s : State) (n : Nat) : Option Elem := (elems s (s.hw n).kind (s.hw n).idx ((s.hw n).last + 1)).head?

/-- Whether the staging store is full (R241, R242): 4 MiB of elements wait. -/
def stagingFull (s : State) (n : Nat) : Bool :=
  let h := s.hw n
  let e := elemSize s h.kind h.idx
  decide (2 ^ 22 ≤ (elems s h.kind h.idx (h.last + 1)).length * e)

/-- Whether a landing's act is next: a writer that commits elements of a record or fill has none stamped before it left,
delivered or to come. A writer that is OFF or DONE stores none, and takes its acts at the landing. -/
def actDue (s : State) (n : Nat) (l : Tick) : Bool :=
  let h := s.hw n
  h.st == .off || h.st == .done ||
    ((nextElem s n).all (fun e => tle l e.t) && (elemsBound s h.kind h.idx).all (fun t => tle l t))

/-- Acts whose turn has come act in order. -/
def hwSettle (n : Nat) : Nat → State → State
  | 0, s => s
  | k + 1, s =>
    match (s.hw n).acts with
    | [] => s
    | (l, a) :: rest =>
      if actDue s n l then hwSettle n k (hwAct n l a (setHw n { s.hw n with acts := rest } s)) else s

/-- ELEMENT_COMMIT (R241): the next element of a writer is committed once it has been delivered and every selected unit
has reported through its stamp, or staging is full. -/
def execElementCommit (w : Fin 8) (s : State) : Out :=
  let n := w.val
  let s0 := hwSettle n 64 s
  match nextElem s0 n with
  | none => .next s0
  | some e =>
    if (s0.hw n).acts.any (fun a => tle a.1 e.t) then .next s0
    else if unitsReported s0 n e.t || stagingFull s0 n then .next (hwSettle n 64 (commitElem n e s0))
    else .next s0

/-- HOOP_ARM (R43, R240): an arm is asked for; it lands as a pending action. -/
def execHoopArm (w : Fin 8) (s : State) : Out := .next (pendChange .action (hwAt w.val 0) 9 1 1 s)

/-! ### Late triggers (R244) -/

/-- A trigger is asserted: it is late for each writer that selects its unit and has already committed the element it maps
to. -/
def hoopTrigger (g : Trig) (s : State) : State :=
  s.each (List.range 8) (fun n s =>
    let h := s.hw n
    if (h.st == .armed || h.st == .post) && s.onBit (Fd.HW_CTRL_TUMASK n) g.tu && tle g.t h.last && tle h.armL g.t then
      (s.bump (Fd.HW_LATE n)).raisePerLanding n 0x0704 [.w4 n, .t g.t]
    else s)

/-! ### At a landing -/

/-- An act is queued and those due act at once. -/
def hwQueue (n : Nat) (l : Tick) (a : HwAct) (s : State) : State :=
  let h := s.hw n
  hwSettle n 64 (setHw n { h with acts := h.acts ++ [(l, a)] } s)

/-- NEED and CAP follow the landing's configuration (R242). -/
def hwNeedLand (n : Nat) (s : State) : State :=
  let need := hwNeed s n
  let cap := hwCap s n
  let overCap := decide (cap < need)
  let h := s.hw n
  let s1 := (s.set (Fd.HW_NEED n) (min need (2 ^ 32 - 1))).set (Fd.HW_CAP n) (min cap (2 ^ 32 - 1))
  let s2 := if overCap && !h.overCap && h.st != .off then
      (s1.set (Fd.HW_STATUS_SHORT n) 1).raise 0x0708 [.w4 n, .w4 need, .w4 cap] else s1
  setHw n { s2.hw n with overCap := overCap } s2

/-- The held values are clamped again where the element size has changed, at this landing or since SCAP was last set
(R237, R238). -/
def hwReclamp (old : State) (n : Nat) (s : State) : State :=
  if hwElemSize old n = hwElemSize s n && s.get (Fd.HW_SCAP n) == (hwGeom s n).cap (hwElemSize s n) then s
  else
    let r := (hwGeom s n).clampAll (hwElemSize s n) 2
    let s1 := putGeom n r.1 (s.clamped r.2)
    if (s1.hw n).ready.isSome then
      let q := (hwHeld s1 n).clampAll (hwElemSize s1 n) 2
      putHeld n q.1 (s1.clamped q.2)
    else putHeld n r.1 s1

/-- A writer at landing L (R240, R242, R247, R248, R615); `arms` are the writers whose ARM landed. -/
def hwLand (old : State) (l : Tick) (arms : List Nat) (n : Nat) (s : State) : State :=
  let s1 := hwReclamp old n s
  let h := s1.hw n
  let en := s1.on (Fd.HW_CTRL_EN n)
  let idx := s1.get (Fd.HW_SRC_IDX n)
  let kind := s1.get (Fd.HW_SRC_KIND n)
  let runs := elemRuns s1 kind idx
  let srcFs := [Fd.HW_SRC_KIND n, Fd.HW_SRC_IDX n] ++
    (if kind = 1 then [Fd.CD_CTRL_KIND idx, Fd.CD_CTRL_IDX idx, Fd.CD_DEC idx] else [])
  let s2 := if s.sys.fresh && en && h.st != .off then hwQueue n l .restart s1
    else if en && (s.sys.fresh || !old.on (Fd.HW_CTRL_EN n)) then hwQueue n l .enable s1
    else if !en && old.on (Fd.HW_CTRL_EN n) then hwQueue n l .disable s1
    else if en && anyChanged old s1 srcFs then hwQueue n l .srcChange s1
    else if en && h.srcRun && !runs then hwQueue n l .srcStop s1
    else s1
  let s3 := setHw n { s2.hw n with srcRun := runs } s2
  hwNeedLand n (if arms.contains n then hwQueue n l .arm s3 else s3)

/-- Hoop at a landing. -/
def hoopLand (old : State) (l : Tick) (arms : List Nat) (s : State) : State := s.each (List.range 8) (hwLand old l arms)

/-- A stop of stream time at L (R247 cause 3, R615). -/
def hoopStopAll (l : Tick) (s : State) : State := s.each (List.range 8) (fun n s => hwQueue n l .stop s)

/-- Hoop at an applied epoch: no history; the writers keep their states and slots (R615). -/
def hoopEpoch (e : Tick) (s : State) : State :=
  s.each (List.range 8) (fun n s =>
    let h := s.hw n
    setHw n { h with last := e - 1, fill := [], k := 0, start := tadd e (2 ^ 62), acts := [] } s)

/-- CNT_CLEAR of Hoop (R256). -/
def hoopCntClear (s : State) : State :=
  s.each (List.range 8) (fun n s => ((s.set (Fd.HW_RECORDS n) 0).set (Fd.HW_IGNORED n) 0).set (Fd.HW_LATE n) 0)

end Sys2Proof.Machine
end

