-- ==== Sys2Proof/Machine/Perturb.lean ====
section
/-! DEFINITION. The perturbation generators (R589): reseeding at a landing and the draw at an opportunity. A delay moves
when a result is produced, never its value (R590), so a draw changes only the generator and COUNT. -/

namespace Sys2Proof.Machine

/-- The state a generator takes at a reseed (R589). -/
def ptbSeed (seed t : Nat) : Nat :=
  let x := Nat.xor seed ((t + 1) * 0x9E3779B97F4A7C15 % 2 ^ 64) % 2 ^ 64
  if x = 0 then 1 else x

/-- One step of a generator (R589). -/
def ptbNext (x : Nat) : Nat :=
  let a := Nat.xor x (x * 2 ^ 13 % 2 ^ 64)
  let b := Nat.xor a (a / 2 ^ 7)
  Nat.xor b (b * 2 ^ 17 % 2 ^ 64)

/-- Perturbation settings land at L: every target is reseeded (R589). -/
def ptbReseed (l : Tick) (s : State) : State :=
  let seed := s.rd64 0x138000
  { s with age := { s.age with gen := (List.range 5).map (fun t => (t, ptbSeed seed t)) } }.raise 0x1130
    [.w4 (s.get Fd.PTB_CTRL_EN), .t l]

/-- An opportunity of target t: an enabled target's generator steps, and a draw below PROB counts an injected delay. -/
def ptbOpportunity (t : Nat) (s : State) : State :=
  if !s.onBit Fd.PTB_CTRL_EN t then s
  else
    let x := ptbNext (look (ptbSeed (s.rd64 0x138000) t) s.age.gen t)
    let s1 := { s with age := { s.age with gen := keep s.age.gen t x } }
    if x % 256 < s.get (Fd.PTB_PROB t) then s1.bump (Fd.PTB_COUNT t) else s1

/-- The delay in core cycles that a generator state injects (R589). -/
def ptbDelay (s : State) (t x : Nat) : Nat :=
  if x % 256 < s.get (Fd.PTB_PROB t) then 1 + bits x 32 16 % s.get (Fd.PTB_MAXD t) else 0

end Sys2Proof.Machine
end

