-- ==== Sys2Proof/Machine/Cykin.lean ====
section
/-! DEFINITION. The Cykin cores but for the meanings of their instructions (R399 to R426): registers and the writes in
flight, data memory, boundaries, interrupts and halts, input rings, feeds, the output ring, and the clusters at a
landing. -/

namespace Sys2Proof.Machine

/-! ### A core's registers and the writes in flight (R400, R407 to R409) -/

/-- A vector of zeros: eight lanes of I and Q. -/
def vecZero : List Int := List.replicate 16 0

/-- A core at reset (R400). -/
def CoreSt.init : CoreSt where
  d := []
  ac := []
  a := []
  lc := 0
  lb := 0
  le := 0
  sr := 0x20
  imask := 0
  icause := 0
  ipc := 0
  isr := 0
  facc := 0
  cycle := 0
  pipe := []
  slot := false
  target := none
  trap := false
  stopping := false
  far := none
  oseq := 0
  rings := []

/-- A core. -/
def State.core (s : State) (n : Nat) : CoreSt := look CoreSt.init s.cyk.cores n

/-- A core replaced. -/
def setCore (n : Nat) (c : CoreSt) (s : State) : State := { s with cyk := { s.cyk with cores := keep s.cyk.cores n c } }

/-- Data register Dn. -/
def CoreSt.dv (c : CoreSt) (n : Nat) : List Int := look vecZero c.d n

/-- Accumulator ACn. -/
def CoreSt.acv (c : CoreSt) (n : Nat) : List Int := look vecZero c.ac n

/-- An, or Mn at 8 + n. -/
def CoreSt.reg (c : CoreSt) (r : Nat) : Nat := look 0 c.a r

/-- IE, LEN and PERSIST of SR. -/
def CoreSt.ie (c : CoreSt) : Bool := bit c.sr 4
def CoreSt.len (c : CoreSt) : Bool := bit c.sr 5
def CoreSt.persist (c : CoreSt) : Bool := bit c.sr 6

/-- One write made. -/
def CoreSt.apply (c : CoreSt) : CoreWrite → CoreSt
  | .d n v => { c with d := keep c.d n v }
  | .ac n v => { c with ac := keep c.ac n v }
  | .reg r v => { c with a := keep c.a r (v % 2 ^ 32) }
  | .lc v => { c with lc := v % 2 ^ 17 }
  | .lb v => { c with lb := v % 2 ^ 14 }
  | .le v => { c with le := v % 2 ^ 14 }
  | .sr v => { c with sr := v % 128 }
  | .ie b => { c with sr := if b then setBit c.sr 4 else clearBit c.sr 4 }
  | .ov n => { c with sr := setBit c.sr n, icause := setBit c.icause 6 }
  | .imask v => { c with imask := v % 256 }
  | .cause b => { c with icause := setBit c.icause b }
  | .causeClr m => { c with icause := c.icause - Nat.land c.icause m }
  | .ipc v => { c with ipc := v % 2 ^ 14 }
  | .isr v => { c with isr := v % 2 ^ 32 }
  | .facc v => { c with facc := v % 256 }
  | .faccOr v => { c with facc := Nat.lor c.facc (v % 256) }

/-- The place of a write among the writes of one cycle (R426, R447): a wrap after MVTS SR, MVTS SR after DI and EI, a
cause after its clear, a POP's OR after a write of FACC. -/
def CoreWrite.rank : CoreWrite → Nat
  | .ie _ => 0
  | .causeClr _ => 0
  | .facc _ => 0
  | .ov _ => 2
  | .cause _ => 2
  | .faccOr _ => 2
  | _ => 1

/-- A write put among those in flight, which stand by cycle and rank, and otherwise in the order of issue. -/
def insOp (o : PipeOp) : List PipeOp → List PipeOp
  | [] => [o]
  | x :: xs =>
    if o.at' < x.at' ∨ (o.at' = x.at' ∧ o.rank < x.rank) then o :: x :: xs else x :: insOp o xs

/-- The writes due by the end of a cycle are made. -/
def CoreSt.settle (c : CoreSt) (m : Nat) : CoreSt :=
  let due := c.pipe.takeWhile (fun o => decide (o.at' ≤ m))
  let left := c.pipe.dropWhile (fun o => decide (o.at' ≤ m))
  { due.foldl (fun c o => c.apply o.w) c with pipe := left }

/-- Every write in flight is made (R420, R422). -/
def CoreSt.drain (c : CoreSt) : CoreSt := { c.pipe.foldl (fun c o => c.apply o.w) c with pipe := [] }

/-- A write made `delay` cycles after the issue of the present instruction. -/
def CoreSt.push (c : CoreSt) (delay : Nat) (w : CoreWrite) : CoreSt :=
  { c with pipe := insOp ⟨c.cycle + delay, w.rank, w⟩ c.pipe }

/-- What an instruction issued in the present cycle reads in stage D (R407, R432). -/
def CoreSt.atD (c : CoreSt) : CoreSt := if c.cycle = 0 then c else c.settle (c.cycle - 1)

/-- What it reads in stage M. -/
def CoreSt.atM (c : CoreSt) : CoreSt := c.settle c.cycle

/-- What it reads in stage X1. -/
def CoreSt.atX1 (c : CoreSt) : CoreSt := c.settle (c.cycle + 1)

/-- What it adds to in stage X2. -/
def CoreSt.atX2 (c : CoreSt) : CoreSt := c.settle (c.cycle + 2)

/-! ### Memory (R403, R404) -/

/-- The device address of core n's data memory. -/
def dmBase (n : Nat) : Nat := 0x010000000000 + n * 0x80000

/-- The device address of core n's instruction memory. -/
def imBase (n : Nat) : Nat := dmBase n + 0x40000

/-- The device address of a DM address, aligned down to a size. -/
def dmAt (n addr size : Nat) : Nat := dmBase n + floorTo size (addr % 2 ^ 18)

/-- The bytes of DM from an address on, modulo 2^18. -/
def dmBytes (s : State) (n addr : Nat) : Nat → List Byte
  | 0 => []
  | k + 1 => Memory.byte s.mem (dmBase n + addr % 2 ^ 18) :: dmBytes s n (addr + 1) k

/-- The word of IM that a PC names. -/
def imWord (s : State) (n pc : Nat) : Nat := s.loadN (imBase n + 4 * (pc % 16384)) 4

/-- The parts of a vector's 32 bytes (R400). -/
def vecOf (bs : List Byte) : List Int := (List.range 16).map (fun k => sext 16 (fieldAt bs (2 * k) 2))

/-- The 32 bytes of a vector. -/
def vecBytes (v : List Int) : List Byte := v.flatMap (fun x => le 2 (encI 16 x))

/-! ### Registers of a core -/

/-- The BAR0 offset of a register of CORn. -/
def corAt (n x : Nat) : Nat := 0x1800000 + 0x100 * n + x

/-- STATE of R424: 0 RESET, 1 HALTED, 2 RUNNING, 3 WAITING. -/
def coreState (s : State) (n : Nat) : Nat := s.get (Fd.COR_STATUS_STATE n)

/-- Whether a core runs: RUNNING or WAITING. -/
def coreLive (s : State) (n : Nat) : Bool := decide (2 ≤ coreState s n)

/-- CYK.STATUS.QUIESCENT: every core RESET or HALTED, every feed off. -/
def cykQuiet (s : State) : State :=
  let off := (List.range 128).all (fun n => !coreLive s n)
  let feeds := (List.range 16).all (fun f => !s.on (Fd.FD_CTRL_EN f) && (look [] s.cyk.feeds f).isEmpty)
  s.set Fd.CYK_STATUS_QUIESCENT (b2n (off && feeds))

/-- A core halts with a cause (R424): it drains, and event 0x0D01 tells the core, the cause and PC. -/
def cykHalt (n cause : Nat) (s : State) : State :=
  let c := (s.core n).drain
  let s1 := (setCore n { c with stopping := false } s).set (Fd.COR_STATUS_STATE n) 1
  let s2 := ((s1.set (Fd.COR_STATUS_CAUSE n) cause).set (Fd.COR_STATUS_QUIESCENT n) 1).set (Fd.COR_CTRL_RUN n) 0
  cykQuiet (s2.raise 0x0D01 [.w4 n, .w4 cause, .w4 (s2.get (Fd.COR_PC n))])

/-! ### Interrupts (R418 to R420) -/

/-- Whether an interrupt is due at the present boundary: TRAP, or an unmasked cause while IE is 1. -/
def irqDue (c : CoreSt) : Bool :=
  let v := c.atD
  c.trap || (v.ie && Nat.land v.icause v.imask != 0)

/-- Whether the present boundary is eligible (R419): not before a delay slot, and not within a stall. -/
def eligible (c : CoreSt) : Bool := !c.slot && c.far.isNone

/-- Interrupt entry (R420): the pipeline drains, IPC and ISR are written, IE and LEN clear, issue goes on at VEC. -/
def irqEnter (n : Nat) (s : State) : State :=
  let c := (s.core n).drain
  let c1 := { c with ipc := s.get (Fd.COR_PC n), isr := c.sr, sr := clearBit (clearBit c.sr 4) 5, trap := false }
  ((setCore n c1 s).set (Fd.COR_PC n) (s.get (Fd.COR_VEC n))).set (Fd.COR_STATUS_STATE n) 2

/-- What happens at the boundary before the next instruction: RUN = 0 stops the core there, else a due interrupt
enters. -/
def cykBoundary (n : Nat) (s : State) : State :=
  let c := s.core n
  if !coreLive s n || !eligible c then s
  else if c.stopping then cykHalt n 0 s
  else if irqDue c then irqEnter n s
  else s

/-- INTERRUPT_ENTRY (R420). -/
def execInterruptEntry (core : Fin 128) (s : State) : Out :=
  let n := core.val
  let c := s.core n
  .next (if coreLive s n && eligible c && !c.stopping && irqDue c then irqEnter n s else s)

/-- A cause arrives (R418). -/
def irqCause (n b : Nat) (s : State) : State :=
  let c := s.core n
  setCore n { c with icause := setBit c.icause b } s

/-! ### Issue (R410, R434 to R436) -/

/-- What an instruction does: the writes of its core with their delays, whether it is a transfer with a delay slot and where
it goes, the cycles it issues over, what it changes in its core at once, where issue goes on without a delay slot, what
it does beyond its registers, and whether it halts the core. -/
structure CykEff where
  ops : List (Nat × CoreWrite)
  jump : Option (Option Nat) := none
  cycles : Nat := 1
  upd : CoreSt → CoreSt := id
  goto : Option Nat := none
  post : State → State := id
  halt : Bool := false

/-- The instruction that core n issues next, with the core as it stands at that issue: none while the core does not run,
a far load stalls it, or the word is unassigned. -/
def cykFetch (n : Nat) (s : State) : Option (CykInstr × CoreSt) :=
  let c := s.core n
  if !coreLive s n || c.far.isSome then none
  else (decodeCyk (imWord s n (s.get (Fd.COR_PC n)))).map (fun i => (i, if c.cycle ≤ 1 then c else c.settle (c.cycle - 2)))

/-- The decision of the loop hardware at the issue of the instruction at `pc` (R410): the core, and the address that
follows. -/
def loopStep (c : CoreSt) (pc : Nat) : CoreSt × Nat :=
  if c.atD.len && pc == c.le then
    if 1 < c.lc then ({ c with lc := c.lc - 1 }, c.lb)
    else ({ c with lc := 0 }, (pc + 1) % 16384)
  else (c, (pc + 1) % 16384)

/-- An instruction retires from issue: the loop hardware acts, the delay slot and the PC move on, its writes enter the
pipeline, the issue cycles count, and then it acts beyond its registers. -/
def cykRetire (n : Nat) (c : CoreSt) (e : CykEff) (s : State) : State :=
  let pc := s.get (Fd.COR_PC n)
  let r := loopStep c pc
  let next := e.goto.getD (if c.slot then c.target.getD r.2 else r.2)
  let c1 := match e.jump with
    | some t => { r.1 with slot := true, target := t }
    | none => { r.1 with slot := false, target := none }
  let c2 := e.ops.foldl (fun c o => c.push o.1 o.2) (e.upd c1)
  let c3 := { c2 with cycle := c2.cycle + e.cycles }
  let s1 := (setCore n c3 s).set (Fd.COR_PC n) next
  let s2 := e.post ((s1.set (Fd.COR_STATUS_STATE n) 2).wr64 (corAt n 0x60) (c3.cycle % 2 ^ 64))
  if e.halt then cykHalt n 1 s2 else s2

/-- Core n issues its next instruction if it is one that `want` knows: `want` takes the instruction, the core as it stands at
that issue, the instruction's address and the state. A transfer in a delay slot halts the core before it issues (R435).
Any other instruction waits. -/
def cykIssue (core : Fin 128) (want : CykInstr → CoreSt → Nat → State → Option CykEff) (s : State) : State :=
  let n := core.val
  let s0 := cykBoundary n s
  match cykFetch n s0 with
  | none => s0
  | some (i, c) =>
    match want i c (s0.get (Fd.COR_PC n)) s0 with
    | none => s0
    | some e => if i.transfer && c.slot then cykHalt n 2 s0 else cykRetire n c e s0

/-- UNASSIGNED_ENCODING (R428): a core that reaches an unassigned word halts with cause 2 before it issues. -/
def execUnassignedEncoding (core : Fin 128) (s : State) : Out :=
  let n := core.val
  let s0 := cykBoundary n s
  .next (if coreLive s0 n && (s0.core n).far.isNone && (decodeCyk (imWord s0 n (s0.get (Fd.COR_PC n)))).isNone then
    cykHalt n 2 s0 else s0)

/-! ### Control (R424) -/

/-- RUN = 1 starts issue at PC in RESET or HALTED; RUN = 0 stops it at the next boundary. -/
def cykRun (n : Nat) (run : Bool) (s : State) : State :=
  let s1 := s.set (Fd.COR_CTRL_RUN n) (b2n run)
  if run then
    if coreLive s n then setCore n { s.core n with stopping := false } s1
    else
      let c := s.core n
      let s2 := (setCore n { c with stopping := false } s1).set (Fd.COR_STATUS_STATE n) 2
      (s2.set (Fd.COR_STATUS_QUIESCENT n) 0).set Fd.CYK_STATUS_QUIESCENT 0
  else if coreLive s n then cykBoundary n (setCore n { s.core n with stopping := true } s1)
  else s1

/-- CTRL.RESET (R424): the core's registers and those of CORn at their reset values, the input rings empty. -/
def cykReset (n : Nat) (s : State) : State :=
  let s1 := setCore n CoreSt.init s
  let s2 := s1.each (List.range 64) (fun k s => s.wr (corAt n (4 * k)) (RegMap.resetWord (corAt n (4 * k))).toNat)
  cykQuiet s2

/-- CORE_RUN (R424). -/
def execCoreRun (core : Fin 128) (run : Bool) (s : State) : Out := .next (cykRun core.val run s)

/-- CORE_RESET (R424). -/
def execCoreReset (core : Fin 128) (s : State) : Out := .next (cykReset core.val s)

/-- DOORBELL (R418). -/
def execDoorbell (core : Fin 128) (s : State) : Out := .next (irqCause core.val 4 s)

/-- OLOSS_CLR (R416). -/
def execOlossClr (core : Fin 128) (s : State) : Out := .next (s.set (Fd.COR_STATUS_OLOSS core.val) 0)

/-- A write of CORn.CTRL: RESET first, then RUN, then the other bits. -/
def cykCtrl (n v : Nat) (s : State) : State :=
  let s1 := if bit v 1 then cykReset n s else s
  let s2 := cykRun n (bit v 0) s1
  let s3 := if bit v 2 then irqCause n 4 s2 else s2
  if bit v 3 then s3.set (Fd.COR_STATUS_OLOSS n) 0 else s3

/-! ### Input rings (R413 to R415) -/

/-- An input ring that has held nothing. -/
def RingSt.empty : RingSt := ⟨0, 0, 0, 0⟩

/-- Ring r of a core. -/
def CoreSt.ring (c : CoreSt) (r : Nat) : RingSt := look RingSt.empty c.rings r

/-- A ring replaced. -/
def CoreSt.setRing (c : CoreSt) (r : Nat) (x : RingSt) : CoreSt := { c with rings := keep c.rings r x }

/-- The DM address of the slot of the k-th item stored in a ring (R413). -/
def slotAt (s : State) (n r k : Nat) : Nat :=
  let slots := s.get (Fd.COR_IQ_SLOTS_SLOTS n r)
  s.get (Fd.COR_IQ_BASE n r) + k % max 1 slots * (32 * s.get (Fd.COR_IQ_SLOTS_SLOT n r))

/-- An item as a feed closes it (R412, R413). -/
structure FeedItem where
  t : Tick
  n : Nat
  fl : Nat
  /-- marks of the header but for LOSS -/
  marks : Nat
  p : Nat
  csid : Nat
  body : List Byte

/-- The bytes of an item with the header of R413. -/
def itemBytes (x : FeedItem) (iseq feed kind lost : Nat) : List Byte :=
  le 8 x.t.toNat ++ le 4 iseq ++ le 2 x.n ++ le 1 x.fl ++ le 1 (x.marks + 8 * b2n (0 < lost)) ++ le 1 feed ++ le 1 kind ++
    le 2 (min lost 65535) ++ le 4 x.p ++ le 4 x.csid ++ le 4 0 ++ x.body

/-- Whether the instruction that core n waits at is a POP of ring r. -/
def waitsAt (s : State) (n r : Nat) : Bool :=
  match decodeCyk (imWord s n (s.get (Fd.COR_PC n))) with
  | some (.pop _ q) => q.val == r
  | _ => false

/-- An item reaches ring r of core n: stored in a free slot, or lost (R413, R415, R424). -/
def ringStore (n r feed kind iseq : Nat) (x : FeedItem) (s : State) : State :=
  let c := s.core n
  let q := c.ring r
  let slots := s.get (Fd.COR_IQ_SLOTS_SLOTS n r)
  let bytes := itemBytes x iseq feed kind q.lostN
  if slots ≤ q.stored - q.freed ∨ 32 * s.get (Fd.COR_IQ_SLOTS_SLOT n r) < bytes.length then
    let s1 := setCore n (c.setRing r { q with lostN := q.lostN + 1 }) s
    let s2 := ((s1.bump (Fd.COR_ILOST n)).bump (Fd.FD_LOST feed)).set (Fd.COR_STATUS_OLOSS n) 1
    s2.raisePerLanding (4 * n + r) 0x0D03 [.w4 n, .w4 r, .w4 iseq]
  else
    let c1 := c.setRing r { q with stored := q.stored + 1, lostN := 0 }
    let c2 := if q.stored = q.popped then { c1 with icause := setBit c1.icause r } else c1
    let s1 := (setCore n c2 s).store (dmBase n + slotAt s n r q.stored) bytes
    if coreState s n = 3 ∧ waitsAt s n r then s1.set (Fd.COR_STATUS_STATE n) 2 else s1

/-! ### Feeds (R411, R412) -/

/-- The capture decimators that a feed of KIND 0 or 3 takes. -/
def feedCds (kind idx : Nat) : List Nat := if kind = 3 then List.range 8 else [idx]

/-- The stream that a capture decimator takes. -/
def cdKey (s : State) (n : Nat) : Nat := srcKey (s.get (Fd.CD_CTRL_KIND n)) (s.get (Fd.CD_CTRL_IDX n))

/-- Whether the source of a feed runs. -/
def feedSrcRuns (s : State) (kind idx : Nat) : Bool :=
  match kind with
  | 1 => spxRunning s idx
  | 2 => true
  | _ => (feedCds kind idx).all (fun n => streamRuns s (cdKey s n))

/-- Whether CD0 to CD7 share source period, D and anchor (R411). -/
def cdsAlike (s : State) : Bool :=
  let of (n : Nat) : Nat × Nat × Option Tick :=
    (streamPeriod s (cdKey s n), s.get (Fd.CD_DEC n), ((s.cdRuns n).head?.map CdSt.anchor).getD none)
  (List.range 8).all (fun n => of n == of 0)

/-- The bytes of a record of R225. -/
def trigRecord (x : Trig) : List Byte :=
  withCrc (le 8 x.t.toNat ++ le 8 x.tA.toNat ++ le 1 x.tu ++ le 1 x.src ++ le 1 x.fl ++ le 1 x.marks ++ le 1 x.ch ++
    le 3 0 ++ le 4 x.fseq)

/-- Whether a stamp falls within a run of a feed. -/
def FeedRun.holds (r : FeedRun) (t : Tick) : Bool := tle r.start t && r.stop.all (fun l => tlt t l)

/-- The elements of a run of KIND 0 or 3 after those taken, oldest first (R411). -/
def feedElems (s : State) (r : FeedRun) : List Elem :=
  let of (n : Nat) : List Elem :=
    ((cdSamples s n).filter (fun x => r.holds x.t)).map (sampElem s true (cdKey s n))
  let all := if r.kind = 3 then
      let lanes := (List.range 7).map (fun k => of (k + 1))
      (of 0).filterMap (fun e =>
        let more := lanes.filterMap (fun l => l.find? (fun x => x.t == e.t))
        if more.length = 7 then
          some (more.foldl (fun a x => { a with
            bytes := a.bytes ++ x.bytes
            fl := Nat.lor a.fl x.fl
            marks := Nat.lor a.marks x.marks
            lo := tmin a.lo x.lo
            hi := tmax a.hi x.hi }) e)
        else none)
    else of r.idx
  all.drop r.taken

/-- Whether a run of KIND 0 or 3 can take no further element: it has a stop and its source delivers nothing more before
it. -/
def feedEnded (s : State) (r : FeedRun) : Bool :=
  match r.stop with
  | none => false
  | some l =>
    let past (o : Option Tick) : Bool := o.all (fun t => tle l t)
    match r.kind with
    | 1 => past (nextFrame s r.idx)
    | 2 => tle l s.sys.next || !s.sys.counting
    | _ => (feedCds r.kind r.idx).all (fun n => past (streamNext s (cdKey s n)))

/-- An item of sample elements (R412, R413). -/
def sampleItem (s : State) (r : FeedRun) (es : List Elem) (short : Bool) : FeedItem :=
  let n := if r.kind = 3 then 0 else r.idx
  let key := cdKey s n
  let ch := keyChan s key
  let t := (es.head?.map Elem.t).getD 0
  let lo := es.foldl (fun a e => tmin a e.lo) t
  let hi := es.foldl (fun a e => tmax a e.hi) t
  let d := ((s.cdRuns n).find? (fun x => tle x.since t) |>.map CdSt.d).getD 1
  ⟨t, es.length, es.foldl (fun a e => Nat.lor a e.fl) 0,
   es.foldl (fun a e => Nat.lor a (e.marks % 4)) 0 + 16 * b2n short + 32 * b2n (stepWithin s ch lo hi),
   streamPeriod s key * d, csidAt s ch t, es.flatMap Elem.bytes⟩

/-- The next item of a run, with the run after it. -/
def feedNext (s : State) (r : FeedRun) : Option (FeedItem × FeedRun) :=
  match r.kind with
  | 1 =>
    let fs := ((look [] s.spx.frames r.idx).filter (fun f => r.holds f.t)).reverse
    (fs[r.taken]?).map (fun f =>
      let bins := (f.bins.drop r.sel).take r.item
      let span := frameSpan f f.t f.t
      (⟨f.t, bins.length, f.fl, f.marks % 8 + 32 * b2n (stepWithin s r.idx span.1 span.2), f.p, csidAt s r.idx f.t,
        bins.flatMap (le 8)⟩, { r with taken := r.taken + max 1 r.ffdec, k := r.k + 1 }))
  | 2 =>
    let rs := (s.trg.trigs.filter (fun x => bit r.sel x.tu && r.holds x.t)).reverse
    (rs[r.taken]?).map (fun x =>
      (⟨x.t, 1, x.fl, 0, 0, 0, trigRecord x⟩, { r with taken := r.taken + 1, k := r.k + 1 }))
  | _ =>
    let es := feedElems s r
    if r.item ≤ es.length then
      some (sampleItem s r (es.take r.item) false, { r with taken := r.taken + r.item, k := r.k + 1 })
    else if feedEnded s r && !es.isEmpty then
      some (sampleItem s r es true, { r with taken := r.taken + es.length, k := r.k + 1 })
    else none

/-- The cores that a run's CMASK names, ascending. -/
def feedCores (r : FeedRun) : List Nat :=
  ((List.range 32).filter (fun j => bit r.cmask j)).map (fun j => 32 * r.cluster + j)

/-- Runs without those that can take nothing more; a continued run goes on with the numbers of the one before it. -/
def feedTrim (s : State) : List FeedRun → List FeedRun
  | [] => []
  | r :: rest =>
    if feedEnded s r && (feedNext s r).isNone then
      match feedTrim s rest with
      | [] => []
      | q :: more => (if q.cont && q.k = 0 then { q with k := r.k } else q) :: more
    else r :: rest

/-- ITEM_DELIVERY (R412, R413): feed f closes its next item, if its source has delivered it, and sends it to its core. -/
def execItemDelivery (feed : Fin 16) (s : State) : Out :=
  let f := feed.val
  .next (match feedTrim s (look [] s.cyk.feeds f) with
    | [] => cykQuiet { s with cyk := { s.cyk with feeds := keep s.cyk.feeds f [] } }
    | r :: rest =>
      match feedNext s r with
      | none => { s with cyk := { s.cyk with feeds := keep s.cyk.feeds f (r :: rest) } }
      | some (x, r') =>
        let iseq := s.get (Fd.FD_ISEQ f)
        let s1 := { s with cyk := { s.cyk with feeds := keep s.cyk.feeds f (feedTrim s (r' :: rest)) } }
        let s2 := s1.count (Fd.FD_ISEQ f)
        let cores := feedCores r
        let s3 := match cores[r.k % max 1 cores.length]? with
          | some n => ringStore n r.ring f r.kind iseq x (ptbOpportunity 4 s2)
          | none => s2
        cykQuiet s3)

/-! ### The output ring (R416, R445) -/

/-- The bytes of an output item (R416). -/
def outItem (core fl marks t oseq len tag : Nat) (payload : List Byte) : List Byte :=
  let head := le 4 0x4F4B5943 ++ le 1 1 ++ le 1 core ++ le 1 (fl % 128) ++ le 1 marks ++ le 8 t ++ le 4 oseq ++ le 4 len ++
    le 4 tag
  head ++ le 4 (crc32c (head ++ payload)) ++ payload

/-- An output item is written to the core's ring; a full ring loses its oldest unread item (R194, R416). -/
def outRingWrite (n : Nat) (bytes : List Byte) (s : State) : State :=
  let slots := max 2 (s.get (Fd.COR_OSLOTS n))
  let wr := s.get (Fd.COR_OWR n)
  let rd := s.get (Fd.COR_ORD n)
  let c := s.core n
  let s1 := if (wr + slots - rd) % slots = slots - 1 then
      ((s.set (Fd.COR_ORD n) ((rd + 1) % slots)).bump (Fd.COR_OLOST n)).raisePerLanding n 0x0D04
        [.w4 n, .w4 (encI 32 ((c.oseq : Int) - (slots - 1 : Nat)))]
    else s
  let s2 := s1.store (s1.rd64 (corAt n 0x40) + 32 * s1.get (Fd.COR_OSLOT n) * wr) bytes
  setCore n { c with oseq := (c.oseq + 1) % 2 ^ 32 } (s2.set (Fd.COR_OWR n) ((wr + 1) % slots))

/-- The output item of a descriptor at a DM address (R445), with the payload's length and whether LEN was limited. -/
def postItem (s : State) (n addr fl : Nat) (persist : Bool) : List Byte × Nat × Bool :=
  let a := floorTo 32 (addr % 2 ^ 18)
  let h := dmBytes s n a 16
  let len := fieldAt h 8 4
  let cap := 32 * s.get (Fd.COR_OSLOT n) - 32
  let l := min len cap
  let marks := b2n (s.on (Fd.COR_STATUS_OLOSS n)) + 2 * b2n persist
  (outItem n fl marks (fieldAt h 0 8) (s.core n).oseq l (fieldAt h 12 4) (dmBytes s n (a + 16) l), l, l != len)

/-! ### At a landing -/

/-- The smallest SLOT in bytes of the cores that a feed's fields name. -/
def feedSlot (s : State) (f : Nat) : Option Nat :=
  let cores := ((List.range 32).filter (fun j => s.onBit (Fd.FD_CMASK f) j)).map
    (fun j => 32 * s.get (Fd.FD_CTRL_CLUSTER f) + j)
  minN? (cores.map (fun n => 32 * s.get (Fd.COR_IQ_SLOTS_SLOT n (s.get (Fd.FD_CTRL_RING f)))))

/-- ITEM and SEL held to their limits at a landing (R20, R412). -/
def feedClamp (f : Nat) (s : State) : State :=
  let kind := s.get (Fd.FD_CTRL_KIND f)
  let size := if kind = 0 then 4 else if kind = 1 then 8 else 32
  let hold (fd : Fld) (v : Nat) (s : State) : State := if s.get fd ≤ v then s else (s.set fd v).clamped
  let s1 := match feedSlot s f with
    | some b => if kind = 2 then s else hold (Fd.FD_ITEM f) (max 1 ((b - 32) / size)) s
    | none => s
  if kind = 1 then
    let n := 2 ^ s1.get (Fd.SPX_CTRL_LOG2N (s1.get (Fd.FD_CTRL_IDX f)))
    let s2 := hold (Fd.FD_ITEM f) n s1
    hold (Fd.FD_SEL f) (n - s2.get (Fd.FD_ITEM f)) s2
  else if kind = 2 then hold (Fd.FD_SEL f) 255 s1
  else s1

/-- The fields of a feed. -/
def feedFields (f : Nat) : List Fld :=
  [Fd.FD_CTRL_RING f, Fd.FD_CTRL_CLUSTER f, Fd.FD_CTRL_IDX f, Fd.FD_CTRL_KIND f, Fd.FD_CTRL_EN f, Fd.FD_CMASK f,
   Fd.FD_ITEM f, Fd.FD_SEL f, Fd.FD_FFDEC f]

/-- The run that a feed's fields describe, from L on. -/
def feedRunOf (s : State) (f : Nat) (l : Tick) (cont : Bool) : FeedRun :=
  ⟨l, none, s.get (Fd.FD_CTRL_KIND f), s.get (Fd.FD_CTRL_IDX f), s.get (Fd.FD_ITEM f), s.get (Fd.FD_SEL f),
   s.get (Fd.FD_FFDEC f), s.get (Fd.FD_CTRL_CLUSTER f), s.get (Fd.FD_CMASK f), s.get (Fd.FD_CTRL_RING f), 0, 0, cont⟩

/-- Every run of a feed that has no stop stops at L. -/
def feedStop (f : Nat) (l : Tick) (s : State) : State :=
  let rs := (look [] s.cyk.feeds f).map (fun r => { r with stop := some (r.stop.getD l) })
  { s with cyk := { s.cyk with feeds := keep s.cyk.feeds f rs } }

/-- Whether a feed runs. -/
def feedRuns (s : State) (f : Nat) : Bool := (look [] s.cyk.feeds f).any (fun r => r.stop.isNone)

/-- A feed starts a run at L. -/
def feedPush (f : Nat) (l : Tick) (cont : Bool) (s : State) : State :=
  let rs := look [] s.cyk.feeds f ++ [feedRunOf s f l cont]
  ({ s with cyk := { s.cyk with feeds := keep s.cyk.feeds f rs } }).set Fd.CYK_STATUS_QUIESCENT 0

/-- Feeds at landing L (R411, R412): limits, stops, starts, and the stop of a source. -/
def feedLand (old : State) (l : Tick) (landed : List (Nat × Nat)) (s : State) : State :=
  (s.each (List.range 16) (fun f s =>
    let s1 := feedClamp f s
    let en := s1.on (Fd.FD_CTRL_EN f)
    let changed := anyChanged old s1 (feedFields f)
    let kind := s1.get (Fd.FD_CTRL_KIND f)
    let idx := s1.get (Fd.FD_CTRL_IDX f)
    if !en then feedStop f l s1
    else if s1.sys.fresh || (changed && feedRuns s1 f) || landedAt landed (Fd.FD_CTRL_EN f) && !feedRuns s1 f then
      let s2 := feedStop f l s1
      if kind = 3 ∧ !cdsAlike s2 then s2.raise 0x0D08 [.w4 f, .t l] else feedPush f l false s2
    else if feedRuns s1 f && feedSrcRuns old kind idx && !feedSrcRuns s1 kind idx then
      feedPush f l true (feedStop f l s1)
    else s1))

/-- A stop of stream time at L closes every feed's item (R412, R615). -/
def feedStopAll (l : Tick) (s : State) : State := s.each (List.range 16) (fun f s => feedStop f l s)

/-- A new epoch: no feed has taken anything of it. -/
def feedEpoch (s : State) : State := { s with cyk := { s.cyk with feeds := [] } }

/-! ### Throttling and counters -/

/-- The throttle level in effect changes (R399, R578): every cluster issues on fewer cycles, and event 0x0D07 tells of
each cluster whose throttled state changes. -/
def cykThrottle (old new : Nat) (s : State) : State :=
  let s1 := s.set Fd.CYK_STATUS_THROTTLED (if new = 0 then 0 else 15)
  if (old = 0) = (new = 0) then s1
  else s1.each (List.range 4) (fun k s => s.raise 0x0D07 [.w4 k, .w4 (b2n (new != 0))])

/-- CNT_CLEAR of CYK (R426). -/
def cykCntClear (s : State) : State :=
  let s1 := s.each (List.range 128) (fun n s => (s.set (Fd.COR_ILOST n) 0).set (Fd.COR_OLOST n) 0)
  (s1.each (List.range 16) (fun f s => s.set (Fd.FD_LOST f) 0)).set Fd.CYK_TPDISC 0

end Sys2Proof.Machine
end

