-- ==== Sys2Proof/Machine/Gallery.lean ====
section
/-! DEFINITION. Gallery (R278 to R304): pane sets, latches, fetching and composition, retire, underrun, the freeze
detector, and the DisplayPort link. -/

namespace Sys2Proof.Machine

/-! ### Pane sets (R280, R289) -/

/-- The BAR0 offset of a register of pane k's shadow set; its active set lies 0x1000 above. -/
def paneAt (k x : Nat) : Nat := 0xA1000 + 0x40 * k + x

/-- The words of a shadow set, +0x00 to +0x2C. -/
def shadowWords (s : State) (k : Nat) : List Nat := (List.range 12).map (fun i => s.rd (paneAt k (4 * i)))

/-- A field of a set of words. -/
def PaneShow.fld (p : PaneShow) (f : Fld) : Nat := f.get (p.words.getD (f.off % 0x40 / 4) 0)

/-- A pane's rectangle: X, Y, W, H. -/
def PaneShow.rect (p : PaneShow) : Nat × Nat × Nat × Nat :=
  (p.fld (Fd.PANE_POS_X 0), p.fld (Fd.PANE_POS_Y 0), p.fld (Fd.PANE_SIZE_W 0), p.fld (Fd.PANE_SIZE_H 0))

/-- KIND of a pane. -/
def PaneShow.kind (p : PaneShow) : Nat := p.fld (Fd.PANE_CTRL_KIND 0)

/-- SRC of a pane: channel and trace (R280). -/
def PaneShow.chan (p : PaneShow) : Nat := p.fld (Fd.PANE_CTRL_SRC 0) % 4

/-- The trace of a pane's source. -/
def PaneShow.trace (p : PaneShow) : Nat := p.fld (Fd.PANE_CTRL_SRC 0) / 4

/-- A pane set that shows nothing. -/
def PaneShow.empty : PaneShow := ⟨[], 0, 0, 0, []⟩

/-- A pane at reset. -/
def PaneSt.empty : PaneSt := ⟨none, .empty, .empty, 0, none, none⟩

/-- The state of pane k. -/
def State.pane (s : State) (k : Nat) : PaneSt := look PaneSt.empty s.gal.panes k

/-- The state of pane k replaced. -/
def setPane (k : Nat) (p : PaneSt) (s : State) : State := { s with gal := { s.gal with panes := keep s.gal.panes k p } }

/-- COMMIT (R289): the shadow sets of the named panes become their armed sets. -/
def galCommit (mask : Nat) (s : State) : State :=
  let s1 := s.each ((List.range 8).filter (bit mask)) (fun k s => setPane k { s.pane k with armed := some (shadowWords s k) } s)
  s1.set Fd.GAL_ARMED (Nat.lor (s1.get Fd.GAL_ARMED) (mask % 256))

/-- COMMIT (R289). -/
def execCommit (mask : BitVec 8) (s : State) : Out := .next (galCommit mask.toNat s)

/-! ### The palette (R285) -/

/-- PAL_DATA shows the entry at PAL_ADDR. -/
def palShow (s : State) : State :=
  s.set Fd.GAL_PAL_DATA (Assoc.get 0#32 s.gal.pal (s.get Fd.GAL_PAL_ADDR)).toNat

/-- PAL_ADDR moves on and wraps. -/
def palNext (s : State) : State := palShow (s.set Fd.GAL_PAL_ADDR ((s.get Fd.GAL_PAL_ADDR + 1) % 16384))

/-- Whether a bank is named by its pane's active or armed set (R285). -/
def palInUse (s : State) (k bank : Nat) : Bool :=
  let f := Fd.PANE_CTRL_PALBANK 0
  s.get (Fd.PANE_CTRL_PALBANK (k + 0x40)) == bank || (s.pane k).armed.any (fun w => f.get (w.getD 0 0) == bank)

/-- An access to PAL_DATA (R285). -/
def palData (data : Option Word) (s : State) : State :=
  match data with
  | none => palNext s
  | some w =>
    let a := s.get Fd.GAL_PAL_ADDR
    if palInUse s (a / 2048) (a / 1024 % 2) then palNext (s.raise 0x0907 [.w4 a])
    else palNext { s with gal := { s.gal with pal := Assoc.put 0#32 s.gal.pal a w } }

/-- PAL_DATA (R285). -/
def execPalData (data : Option Word) (s : State) : Out := .next (palData data s)

/-- A palette entry of pane k. -/
def palEntry (s : State) (k bank idx : Nat) : Nat := (Assoc.get 0#32 s.gal.pal (2048 * k + 1024 * bank + idx)).toNat

/-! ### Pane words (R280 to R284) -/

/-- The palette index of a counter value (R282). -/
def densIndex (pgain val : Nat) : Nat :=
  if val = 0 then 0
  else
    let e := Nat.log2 val
    let l := 4096 * e + (log2tab ((val - 2 ^ e) * 4096 / 2 ^ e)).toNat
    min 1023 (1 + l * pgain / 65536)

/-- A density pixel (R282). -/
def densPixel (s : State) (k : Nat) (p : PaneShow) (u v : Nat) : Nat :=
  let r := p.rect
  let q := p.fld (Fd.PANE_MAP0_COL0 0) + u * p.fld (Fd.PANE_MAP0_NCOL 0) / max 1 r.2.2.1
  let nrow := p.fld (Fd.PANE_MAP1_NROW 0)
  let row := p.fld (Fd.PANE_MAP1_ROW0 0) + nrow - 1 - v * nrow / max 1 r.2.2.2
  let val := s.loadN (0x010006000000 + p.chan * 0x800000 + (row * 4096 + q) * 2) 2
  palEntry s k (p.fld (Fd.PANE_CTRL_PALBANK 0)) (densIndex (p.fld (Fd.PANE_PGAIN 0)) val)

/-- BOT or TOP of a pane (R283, R284). -/
def PaneShow.level (p : PaneShow) : Int := sext 16 (p.fld (Fd.PANE_LVL_BOT 0))

/-- A spectrogram pixel (R283): the line must match by MAGIC and LSEQ and hold the column. -/
def sgPixel (s : State) (k : Nat) (p : PaneShow) (u v : Nat) : Nat :=
  let c := p.chan
  let slots := max 1 (s.get (Fd.SG_RING_SLOTS c))
  let a := s.rd64 (sgAt c 0x08) + 8256 * ((p.slot + slots - v % slots) % slots)
  let col := p.fld (Fd.PANE_MAP0_COL0 0) + u * p.fld (Fd.PANE_MAP0_NCOL 0) / max 1 p.rect.2.2.1
  let good := s.loadN a 4 == 0x4C475053 && s.loadN (a + 0x18) 4 == (p.line + 2 ^ 32 - v) % 2 ^ 32 &&
    decide (col < s.loadN (a + 0x20) 2)
  let val := sext 16 (s.loadN (a + 64 + 2 * col) 2)
  let idx := if good then min 1023 ((val - p.level) / (p.fld (Fd.PANE_LVL_STEP 0) : Nat)).toNat else 0
  palEntry s k (p.fld (Fd.PANE_CTRL_PALBANK 0)) idx

/-- yv(u) of R284. -/
def traceY (p : PaneShow) (u : Nat) : Nat :=
  let cols := fieldAt p.record 0x28 2
  let val := sext 16 (fieldAt p.record (64 + 2 * (u * cols / max 1 p.rect.2.2.1)) 2)
  min (p.rect.2.2.2 - 1) ((p.level - val) / (p.fld (Fd.PANE_LVL_STEP 0) : Nat)).toNat

/-- A trace pixel (R284). -/
def tracePixel (p : PaneShow) (u v : Nat) : Nat :=
  let tbg := p.fld (Fd.PANE_TBG 0)
  if p.record.isEmpty then tbg
  else
    let a := traceY p (u - 1)
    let b := traceY p u
    if min a b ≤ v ∧ v ≤ max a b then p.fld (Fd.PANE_COLOR 0) else tbg

/-- An overlay pixel (R281). -/
def ovlPixel (s : State) (p : PaneShow) (u v : Nat) : Nat :=
  let base := p.fld (Fd.PANE_BASE_LO 0) + 2 ^ 32 * p.fld (Fd.PANE_BASE_HI 0)
  s.loadN (base + v * p.fld (Fd.PANE_STRIDE 0) + u * 4) 4

/-- The ARGB8888 word of a pane's pixel (R280 to R284). -/
def paneWord (s : State) (k : Nat) (p : PaneShow) (u v : Nat) : Nat :=
  match p.kind with
  | 1 => densPixel s k p u v
  | 2 => sgPixel s k p u v
  | 3 => tracePixel p u v
  | _ => ovlPixel s p u v

/-- Whether a pane covers line y. -/
def coversLine (p : PaneShow) (y : Nat) : Bool :=
  p.kind != 0 && decide (p.rect.2.1 ≤ y) && decide (y < p.rect.2.1 + p.rect.2.2.2)

/-- Whether a pane is opaque (R288). -/
def paneOpaque (p : PaneShow) : Bool := p.fld (Fd.PANE_CTRL_OPAQUE 0) == 1 && p.fld (Fd.PANE_CTRL_ALPHA 0) == 255

/-- Whether a pane covers pixel x of a line that it covers. -/
def coversX (p : PaneShow) (x : Nat) : Bool := decide (p.rect.1 ≤ x) && decide (x < p.rect.1 + p.rect.2.2.1)

/-- Whether pane k is fetched on line y of the frame in progress: it covers the line and opaque panes above do not cover
all of its span (R288). -/
def paneFetched (s : State) (k y : Nat) : Bool :=
  let p := (s.pane k).cur
  let above := ((List.range 8).filter (fun j => decide (k < j))).map (fun j => (s.pane j).cur) |>.filter (fun q =>
    coversLine q y && paneOpaque q)
  coversLine p y && !((List.range p.rect.2.2.1).all (fun u => above.any (fun q => coversX q (p.rect.1 + u))))

/-- The words of pane k on line y (R280). -/
def paneLine (s : State) (k y : Nat) : List Nat :=
  let p := (s.pane k).cur
  (List.range p.rect.2.2.1).map (fun u => paneWord s k p u (y - p.rect.2.1))

/-- A word with A′ in place of A (R286, R295). -/
def opaqueWord (p : PaneShow) (w : Nat) : Nat :=
  if p.fld (Fd.PANE_CTRL_OPAQUE 0) = 1 then w % 2 ^ 24 + 255 * 2 ^ 24 else w

/-! ### Composition (R286, R287) -/

/-- One pane blended over a colour (R286). -/
def blend (p : PaneShow) (w : Nat) (out : Nat × Nat × Nat) : Nat × Nat × Nat :=
  let w := opaqueWord p w
  let a := w / 2 ^ 24 * p.fld (Fd.PANE_CTRL_ALPHA 0) / 255
  let mixOne (src o : Nat) : Nat := (a * src + (255 - a) * o) / 255
  (mixOne (w / 2 ^ 16 % 256) out.1, mixOne (w / 2 ^ 8 % 256) out.2.1, mixOne (w % 256) out.2.2)

/-- A component at the effective bits per component (R287). -/
def bpcOut (bpc out : Nat) : Nat :=
  match bpc with
  | 0 => out / 4
  | 1 => out
  | _ => 4 * out + out / 64

/-- A pixel of a line: background, then the panes in ascending order (R286, R287). -/
def pixelAt (s : State) (lines : List (Nat × List Nat)) (x : Nat) : Nat × Nat × Nat :=
  let bg := s.get Fd.GAL_BG
  let c := lines.foldl (fun out e =>
    let p := (s.pane e.1).cur
    if coversX p x then blend p (e.2.getD (x - p.rect.1) 0) out else out) (bg / 65536 % 256, bg / 256 % 256, bg % 256)
  let b := s.get Fd.GAL_CTRL_BPC
  (bpcOut b c.1, bpcOut b c.2.1, bpcOut b c.2.2)

/-- The panes fetched on a line, in ascending order, with their words. -/
def fetchLine (s : State) (y : Nat) : List (Nat × List Nat) :=
  ((List.range 8).filter (fun k => paneFetched s k y)).map (fun k => (k, paneLine s k y))

/-- A line is fetched: the signatures of its panes go on (R291, R295). -/
def lineFetch (y : Nat) (s : State) : State :=
  let s1 := s.each (fetchLine s y) (fun e s =>
    let p := s.pane e.1
    let crc := e.2.foldl (fun c w => (le 4 (opaqueWord p.cur w)).foldl crcByte c) (p.crc.getD 0xFFFFFFFF)
    setPane e.1 { p with crc := some crc } s)
  { s1 with gal := { s1.gal with fetched := y + 1 } }

/-- Lines are fetched up to but not including one (R291). -/
def fetchTo (y : Nat) : Nat → State → State
  | 0, s => s
  | n + 1, s => if s.gal.fetched < y then fetchTo y n (lineFetch s.gal.fetched s) else s

/-! ### Latch and retire (R290 to R292) -/

/-- The generation counter of a pane's source (R280). -/
def paneGen (s : State) (k : Nat) (p : PaneShow) : Nat :=
  match p.kind with
  | 1 => s.get (Fd.DEN_SNAP_SEQ p.chan) / 2
  | 2 => p.line
  | 3 => fieldAt p.record 0x20 4
  | 4 => (s.pane k).baseGen
  | _ => 0

/-- The trace store after a latch (R284): the newest record, unless the ring holds none or its MAGIC or CHECK fails. -/
def traceStore (s : State) (p : PaneShow) : List Byte :=
  let c := p.chan
  let t := p.trace
  let slots := max 1 (s.get (Fd.TR_RING_SLOTS c t))
  let a := s.rd64 (trAt c t 0x14) + 8256 * ((s.get (Fd.TR_WR c t) + slots - 1) % slots)
  let cols := s.loadN (a + 0x28) 2
  let head := s.load a 60
  let body := s.load (a + 64) (2 * ceilTo 32 cols)
  let good := s.get (Fd.TR_RSEQ c t) != 0 && s.loadN a 4 == 0x52585053 && decide (cols ≤ 4096) &&
    s.loadN (a + 60) 4 == crc32c (head ++ body)
  if good then head ++ s.load (a + 60) 4 ++ body else p.record

/-- An active rectangle held to HACT and VACT (R290): the words and the values changed. -/
def clampRect (s : State) (w : List Nat) : List Nat × Nat :=
  let put (f : Fld) (v : Nat) (w : List Nat) : List Nat := w.set (f.off % 0x40 / 4) (f.put (w.getD (f.off % 0x40 / 4) 0) v)
  let get' (f : Fld) (w : List Nat) : Nat := f.get (w.getD (f.off % 0x40 / 4) 0)
  let hact := s.get Fd.GAL_HTIM0_HACT
  let vact := s.get Fd.GAL_VTIM0_VACT
  let hold (f : Fld) (lo hi : Nat) (a : List Nat × Nat) : List Nat × Nat :=
    let v := get' f a.1
    let v' := max lo (min v hi)
    if v = v' then a else (put f v' a.1, a.2 + 1)
  let a1 := hold (Fd.PANE_POS_X 0) 0 (hact - 1) (w, 0)
  let a2 := hold (Fd.PANE_POS_Y 0) 0 (vact - 1) a1
  let a3 := hold (Fd.PANE_SIZE_W 0) 1 (hact - get' (Fd.PANE_POS_X 0) a2.1) a2
  hold (Fd.PANE_SIZE_H 0) 1 (vact - get' (Fd.PANE_POS_Y 0) a3.1) a3

/-- The words of an active set written to their registers. -/
def putActive (k : Nat) (w : List Nat) (s : State) : State :=
  s.each w.zipIdx (fun e s => s.wr (0xA2000 + 0x40 * k + 4 * e.2) e.1)

/-- Latch n of one pane (R280, R283, R284, R290, R292, R296). -/
def latchPane (n k : Nat) (s : State) : State :=
  let p := s.pane k
  let old := p.act
  let words := (p.armed.getD (if old.words.isEmpty then (List.range 12).map (fun i => s.rd (0xA2000 + 0x40 * k + 4 * i))
    else old.words))
  let r := clampRect s words
  let base (w : List Nat) : Nat := w.getD 3 0 + 2 ^ 32 * w.getD 4 0
  let newSrc := (r.1.getD 0 0) % 8 != (old.words.getD 0 0) % 8 || bits (r.1.getD 0 0) 4 4 != bits (old.words.getD 0 0) 4 4
  let show0 : PaneShow := { old with words := r.1 }
  let c := show0.chan
  let slots := max 1 (s.get (Fd.SG_RING_SLOTS c))
  let show1 := match show0.kind with
    | 2 => { show0 with line := (s.get (Fd.SG_LSEQ c) + 2 ^ 32 - 1) % 2 ^ 32
                        slot := (s.get (Fd.SG_WR c) + slots - 1) % slots }
    | 3 => { show0 with record := traceStore s show0 }
    | _ => show0
  let gen := if p.armed.isSome && base r.1 != base old.words then (p.baseGen + 1) % 2 ^ 32 else p.baseGen
  let s1 := setPane k { p with baseGen := gen } (s.clamped r.2)
  let g := paneGen s1 k show1
  let s2 := setPane k { p with armed := none, act := { show1 with gen := g }, baseGen := gen
                               run := if newSrc then none else p.run } (putActive k r.1 s1)
  let s3 := s2.wr (0xA2038 + 0x40 * k) g
  if p.armed.isSome then s3.wr (0xA2030 + 0x40 * k) n else s3

/-- Latch n (R290, R292). -/
def galLatch (n : Nat) (s : State) : State :=
  let s1 := s.each (List.range 8) (latchPane n)
  let s2 := (s1.set Fd.GAL_ARMED 0).set Fd.GAL_LATCH_SEQ n
  { s2 with gal := { s2.gal with latched := true } }

/-- The freeze detector at the retire of a frame that was not aborted (R295, R296). -/
def freezeOne (k : Nat) (s : State) : State :=
  let p := s.pane k
  match p.crc with
  | none => s
  | some c =>
    let sig := Nat.xor c 0xFFFFFFFF
    let s1 := s.wr (0xA2034 + 0x40 * k) sig
    if p.cur.fld (Fd.PANE_CTRL_LIVE 0) = 0 then s1
    else
      let run := match p.run with
        | some (q, r, g0) => if q = sig then (q, r + 1, g0) else (sig, 0, p.cur.gen)
        | none => (sig, 0, p.cur.gen)
      let s2 := setPane k { p with run := some run } s1
      if run.2.1 = p.cur.fld (Fd.PANE_CTRL_FRZ_F 0) ∧ p.cur.gen ≠ run.2.2 then
        (s2.setB Fd.GAL_FROZEN k).raise 0x0906 [.w4 k, .w4 sig]
      else s2

/-- The frame in progress retires (R292, R295, R296, R301). -/
def galRetire (s : State) : State :=
  let g := s.gal
  let s1 := if g.aborted then s else s.each (List.range 8) freezeOne
  let s2 := (s1.set Fd.GAL_RETIRE_SEQ g.frame).raiseIf (s.on Fd.GAL_CTRL_RETIRE_EVT) 0x0909 [.w4 g.frame]
  let s3 := { s2 with gal := { s2.gal with retired := true } }
  if s3.on Fd.GAL_CTRL_EN then s3 else s3.set Fd.GAL_STATUS_QUIESCENT 1

/-- Line 0 of a frame begins: its panes are those of the last latch (R279, R291). -/
def frameBegin (n : Nat) (s : State) : State :=
  let s1 := s.each (List.range 8) (fun k s => let p := s.pane k; setPane k { p with cur := p.act, crc := none } s)
  { s1 with gal := { s1.gal with frame := n, begun := true, latched := false, aborted := false, retired := false
                                 fetched := 0 } }

/-- LATCH (R290): the latch of the frame in progress. -/
def execLatch (s : State) : Out :=
  let g := s.gal
  .next (if g.begun && !g.latched then
    galLatch g.frame (s.set Fd.GAL_LINE (max (s.get Fd.GAL_LINE) (s.get Fd.GAL_VTIM0_VACT - s.get Fd.GAL_LEAD)))
  else s)

/-- FRAME_RETIRE (R292): every fetch of the frame in progress has arrived; fetches run up to 8 lines ahead (R291). -/
def execFrameRetire (s : State) : Out :=
  let g := s.gal
  let vact := s.get Fd.GAL_VTIM0_VACT
  if !g.begun || g.retired then .next s
  else if g.aborted then .next (galRetire s)
  else if vact ≤ s.get Fd.GAL_LINE + 9 then .next (galRetire (fetchTo vact 4096 s))
  else .next s

/-- An underrun aborts the frame at a line (R294). -/
def galUnderrun (y : Nat) (s : State) : State :=
  let n := s.gal.frame
  let s1 := (s.set Fd.GAL_LINE (s.get Fd.GAL_VTIM0_VACT)).bump Fd.GAL_UNDERRUNS
  let s2 := { s1 with gal := { s1.gal with aborted := true } }
  let s3 := if s2.gal.latched then s2 else galLatch n s2
  s3.raise 0x0905 [.w4 n, .w4 y]

/-- A new frame begins where line 0 starts: the frame before it has latched and retired (R279, R301). -/
def newFrame (s : State) : State :=
  let g := s.gal
  if !g.begun then frameBegin g.frame s
  else
    let s1 := if g.latched then s else galLatch g.frame s
    let s2 := if g.retired then s1 else galRetire (if g.aborted then s1 else fetchTo (s1.get Fd.GAL_VTIM0_VACT) 4096 s1)
    if s2.on Fd.GAL_CTRL_EN then frameBegin ((g.frame + 1) % 2 ^ 32) s2 else s2

/-- LINE_START (R294): scan-out of active line y begins; `ready` says that its data has arrived. -/
def execLineStart (line : BitVec 12) (ready : Bool) (s : State) : Out :=
  let y := line.toNat
  if s.on Fd.GAL_STATUS_QUIESCENT || s.get Fd.GAL_VTIM0_VACT ≤ y then .next s
  else
    let s1 := if y = 0 then newFrame s else s
    if !s1.gal.begun || s1.gal.aborted || s1.on Fd.GAL_STATUS_QUIESCENT then .next s1
    else if !ready && (List.range 8).any (fun k => paneFetched s1 k y) && decide (s1.gal.fetched ≤ y) then
      .next (galUnderrun y s1)
    else
      let s2 := fetchTo (y + 1) 4096 (s1.set Fd.GAL_LINE y)
      let lines := fetchLine s2 y
      let px := (List.range (s2.get Fd.GAL_HTIM0_HACT)).map (pixelAt s2 lines)
      .next { s2 with gal := { s2.gal with scan := px } }

/-! ### The link (R297 to R299) -/

/-- Link training starts: the link is down until it ends. -/
def galTrain (s : State) : State :=
  let s1 := ((s.set Fd.GAL_STATUS_LINK_UP 0).set Fd.GAL_STATUS_TRAIN_FAIL 0).set Fd.GAL_STATUS_BW_SHORT 0
  { s1 with gal := { s1.gal with training := true } }

/-- GAL_ENABLE (R279, R299): EN changes to 1. -/
def galEnable (s : State) : State :=
  let s1 := ((s.set Fd.GAL_CTRL_EN 1).set Fd.GAL_STATUS_QUIESCENT 0).set Fd.GAL_LATCH_SEQ 0
  let s2 := galLatch 0 { s1 with gal := { s1.gal with frame := 0 } }
  let s3 := (s2.set Fd.GAL_RETIRE_SEQ 0).raiseIf (s2.on Fd.GAL_CTRL_RETIRE_EVT) 0x0909 [.w4 0]
  let s4 := { s3 with gal := { s3.gal with frame := 1, begun := false, latched := false, aborted := false, retired := false
                                           fetched := 0 } }
  if s4.on Fd.GAL_STATUS_HPD then galTrain s4 else s4

/-- GAL_ENABLE (R279). -/
def execGalEnable (s : State) : Out := .next (if s.on Fd.GAL_CTRL_EN then s else galEnable s)

/-- GAL_DISABLE (R301): the current frame runs out. -/
def galDisable (s : State) : State :=
  let s1 := s.set Fd.GAL_CTRL_EN 0
  if s1.gal.begun && s1.gal.retired then s1.set Fd.GAL_STATUS_QUIESCENT 1 else s1

/-- GAL_DISABLE (R301). -/
def execGalDisable (s : State) : Out := .next (if s.on Fd.GAL_CTRL_EN then galDisable s else s)

/-- Registers w of a block take the words of a byte list. -/
def putWords (off n : Nat) (bs : List Byte) (s : State) : State :=
  s.each (List.range n) (fun i s => s.wr (off + 4 * i) (fieldAt bs (4 * i) 4))

/-- HPD_CONNECT (R298): DPCD and EDID as the sink answers, and whether every AUX transaction completed. -/
def execHpdConnect (dpcd edid : List Byte) (aux : Bool) (s : State) : Out :=
  let s1 := (s.set Fd.GAL_STATUS_HPD 1).raise 0x0901
  let s2 := putWords 0xA0200 64 edid (putWords 0xA0100 4 dpcd s1)
  let header := edid.take 8 == [0x00, 0xFF, 0xFF, 0xFF, 0xFF, 0xFF, 0xFF, 0x00]
  let s3 := s2.set Fd.GAL_STATUS_EDID_VALID (b2n (aux && header))
  .next (if s3.on Fd.GAL_CTRL_EN then galTrain s3 else s3)

/-- HPD_UNPLUG (R298). -/
def execHpdUnplug (s : State) : Out :=
  if !s.on Fd.GAL_STATUS_HPD then .next s
  else
    let s1 := ((s.set Fd.GAL_STATUS_HPD 0).set Fd.GAL_STATUS_LINK_UP 0).raise 0x0902
    .next { s1 with gal := { s1.gal with training := false } }

/-- IRQ_HPD (R298): the link is trained again if the sink reports it lost. -/
def execIrqHpd (lost : Bool) (s : State) : Out :=
  .next (if s.on Fd.GAL_STATUS_HPD && lost then galTrain s else s)

/-- A write of 1 to RETRAIN (R299). -/
def galRetrain (s : State) : State := if s.on Fd.GAL_STATUS_HPD then galTrain s else s

/-- RETRAIN (R299). -/
def execRetrain (s : State) : Out := .next (galRetrain s)

/-- The rate of a code in kb/s (R297). -/
def dpRate (code : Nat) : Nat := [1620000, 2700000, 5400000, 8100000].getD code 0

/-- Whether lanes (coded) at a rate carry the timing (R297). -/
def dpCarries (s : State) (lanes rate : Nat) : Bool :=
  let bpc := [6, 8, 10].getD (s.get Fd.GAL_CTRL_BPC) 8
  decide (s.get Fd.GAL_PCLK_KHZ * 3 * bpc * 10 ≤ 2 ^ lanes * dpRate rate * 8)

/-- How one attempt of a training ended (R299). -/
inductive TrainCase where
  | ok (lanes rate : Nat)
  | failed
  | narrow
deriving DecidableEq, Repr

/-- The attempts of a training in order (R299), from a candidate: lanes coded 0 to 2 and the rate. A candidate that lacks the
bandwidth is skipped as the fallback that led to it goes on; `eq` says that it was the channel-equalisation one. `tried`
says that some candidate had the bandwidth. -/
def dpTry (s : State) (lanes0 rate0 : Nat) : Nat → List TrainStep → Bool → Bool → Nat → Nat → TrainCase
  | 0, _, _, tried, _, _ => if tried then .failed else .narrow
  | n + 1, rs, eq, tried, lanes, rate =>
    let none' : TrainCase := if tried then .failed else .narrow
    let crDown (rs : List TrainStep) (tried : Bool) : TrainCase :=
      if rate = 0 then (if tried then .failed else .narrow) else dpTry s lanes0 rate0 n rs false tried lanes0 (rate - 1)
    let eqDown (rs : List TrainStep) (tried : Bool) : TrainCase :=
      if rate = 0 then
        (if lanes = 0 then (if tried then .failed else .narrow) else dpTry s lanes0 rate0 n rs true tried (lanes - 1) rate0)
      else dpTry s lanes0 rate0 n rs true tried lanes (rate - 1)
    if !dpCarries s lanes rate then
      (if lanes = lanes0 && rate == rate0 && !tried then none' else if eq then eqDown rs tried else crDown rs tried)
    else match rs with
      | .crFail k :: rest =>
        if k.val = 0 then crDown rest true
        else dpTry s lanes0 rate0 n rest false true (min lanes (Nat.log2 k.val)) rate
      | .eqFail :: rest => eqDown rest true
      | .locked :: _ => .ok lanes rate
      | [] => .ok lanes rate

/-- LINK_TRAINING_END (R299): the sink's largest lane count and rate, coded as MAXLANES and MAXRATE, and how its attempts went;
an attempt beyond the list succeeds. -/
def execLinkTrainingEnd (sinkLanes : Fin 3) (sinkRate : Fin 4) (steps : List TrainStep) (s : State) : Out :=
  if !s.gal.training then .next s
  else
    let lanes := min sinkLanes.val (s.get Fd.GAL_CTRL_MAXLANES)
    let rate := min sinkRate.val (s.get Fd.GAL_CTRL_MAXRATE)
    let s0 := { s with gal := { s.gal with training := false } }
    match dpTry s lanes rate 64 steps false false lanes rate with
    | .ok n r =>
      .next ((((s0.set Fd.GAL_STATUS_LINK_UP 1).set Fd.GAL_STATUS_LANES n).set Fd.GAL_STATUS_RATE r).raise 0x0903 [.w4 n, .w4 r])
    | .failed => .next ((s0.set Fd.GAL_STATUS_TRAIN_FAIL 1).raise 0x0904 [.w4 1])
    | .narrow => .next ((s0.set Fd.GAL_STATUS_BW_SHORT 1).raise 0x0904 [.w4 2])

end Sys2Proof.Machine
end

