-- ==== Sys2Proof/Machine/Weaver.lean ====
section
/-! DEFINITION. Weaver (R349 to R378): the sequence table, the two engines with their passes, jumps and stops, refill
underruns, the transmit link, and the levels at the DACs and the pattern pins. -/

namespace Sys2Proof.Machine

/-! ### Grids and the table (R350, R353, R355) -/

/-- The DAC sample period Q in ticks (R350). -/
def waveQ (s : State) : Nat := 2 ^ s.get Fd.WVR_CTRL_DDIV

/-- Converters per DAC and lanes per DAC of the transmit mode (R370). -/
def txM (s : State) : Nat := if s.get Fd.WVR_CTRL_TMODE % 2 = 1 then 2 else 1
def txL (s : State) : Nat := if s.get Fd.WVR_CTRL_TMODE < 2 then 8 else 4

/-- The range of F_s / Q of the transmit mode in kHz (R370). -/
def txRange (s : State) : Nat × Nat :=
  [(3880000, 12800000), (1940000, 7870000), (1940000, 7870000), (970000, 3930000)].getD (s.get Fd.WVR_CTRL_TMODE) (0, 0)

/-- The legal DDIV values (R350). -/
def ddivLegal (s : State) : List Nat :=
  (List.range 5).filter (fun d => decide ((txRange s).1 * 2 ^ d ≤ s.get Fd.ING_FS_KHZ) &&
    decide (s.get Fd.ING_FS_KHZ ≤ (txRange s).2 * 2 ^ d))

/-- An engine's grid in ticks: 0 is the wave engine, 1 the pattern engine (R350). -/
def engGrid (s : State) (e : Nat) : Nat := if e = 0 then 64 * waveQ s else 64

/-- Enabled DACs, counted as 1 when there is none (R353). -/
def dacCount (s : State) : Nat := max 1 (b2n (s.onBit Fd.WVR_CTRL_DAC_EN 0) + b2n (s.onBit Fd.WVR_CTRL_DAC_EN 1))

/-- Bytes of a granule of an entry's kind (R353). -/
def granule (s : State) (kind : Nat) : Nat := if kind = 1 then 512 else 64 * dacCount s * 2 * txM s

/-- The reset word at a SEQ_ADDR: every entry is HALT (R355). -/
def seqReset (a : Nat) : Word := if a % 8 = 1 then 0x02000000#32 else 0#32

/-- The word at a SEQ_ADDR. -/
def seqWord (s : State) (a : Nat) : Nat := (Assoc.get (seqReset a) s.wvr.seq a).toNat

/-- A word of the table stored. -/
def seqPut (a w : Nat) (s : State) : State :=
  { s with wvr := { s.wvr with seq := Assoc.put (seqReset a) s.wvr.seq a (BitVec.ofNat 32 w) } }

/-- An entry of the table (R355). -/
def wvEntry (s : State) (i : Nat) : WvEntry :=
  let w (k : Nat) : Nat := seqWord s (8 * i + k)
  ⟨bits (w 0) 0 25, bits (w 1) 0 24, bits (w 1) 24 2, bits (w 1) 26 3, bits (w 2) 0 16, bits (w 2) 16 12, bit (w 2) 31,
   bits (w 3) 0 12, w 4, w 5⟩

/-- START and LEN of an entry held to the region and to each other (R353): each value changed counts a clamp. -/
def entryClamp (i : Nat) (s : State) : State :=
  let e := wvEntry s i
  let size := s.get Fd.WVR_REGION_SIZE * 2 ^ 20
  let g := granule s e.kind
  let start := min e.start ((size - 16 * g) / 512)
  let len := max 16 (min e.len (min 16777215 ((size - start * 512) / g)))
  let s1 := if start != e.start then (seqPut (8 * i) start s).clamped else s
  if len != e.len then (seqPut (8 * i + 1) (len + e.kind * 2 ^ 24 + e.cond * 2 ^ 26) s1).clamped else s1

/-- The entries held in the table are held to the region again (R353). -/
def wvrReclamp (s : State) : State :=
  let held := (s.wvr.seq.map (fun e => e.1 / 8)).eraseDups
  (s.each held entryClamp)

/-- A word of an entry as the table takes it: reserved bits 0, a reserved KIND read as HALT (R19, R355). -/
def seqMask (k w : Nat) : Nat :=
  match k with
  | 0 => bits w 0 25
  | 1 => bits w 0 24 + (if bits w 24 2 = 3 then 2 else bits w 24 2) * 2 ^ 24 + bits w 26 3 * 2 ^ 26
  | 2 => bits w 0 28 + bits w 31 1 * 2 ^ 31
  | 3 => bits w 0 12
  | 4 => w
  | 5 => w
  | _ => 0

/-- SEQ_DATA shows the word at SEQ_ADDR. -/
def seqShow (s : State) : State := s.set Fd.WVR_SEQ_DATA (seqWord s (s.get Fd.WVR_SEQ_ADDR))

/-- An access to SEQ_DATA (R355, R376): a word is written, or read where none is given, and SEQ_ADDR moves on. -/
def seqData (data : Option Word) (s : State) : State :=
  let a := s.get Fd.WVR_SEQ_ADDR
  let s1 := match data with
    | none => s
    | some w =>
      let m := seqMask (a % 8) w.toNat
      let s1 := if a % 8 = 1 ∧ bits w.toNat 24 2 = 3 then s.clamped else s
      let s2 := seqPut a m s1
      if a % 8 < 2 then entryClamp (a / 8) s2 else s2
  seqShow (s1.set Fd.WVR_SEQ_ADDR ((a + 1) % 32768))

/-- SEQ_DATA (R355). -/
def execSeqData (data : Option Word) (s : State) : Out := .next (seqData data s)

/-! ### Engines -/

/-- An entry that halts. -/
def WvEntry.halt : WvEntry := ⟨0, 0, 2, 0, 0, 0, false, 0, 0, 0⟩

/-- An engine at reset. -/
def EngSt.empty : EngSt :=
  { first := none, byStart := false, cur := 0, ent := WvEntry.halt, nxt := WvEntry.halt, jmp := WvEntry.halt, b := 0
    left := 0, vec := 0, vt := 0, jump := none, stop := none, reqs := [], under := none, resync := none, shift := 0 }

/-- The state of an engine. -/
def State.engine (s : State) (e : Nat) : EngSt := look EngSt.empty s.wvr.eng e

/-- The state of an engine replaced; JPEND follows (R376). -/
def setEng (e : Nat) (x : EngSt) (s : State) : State :=
  let s1 : State := { s with wvr := { s.wvr with eng := keep s.wvr.eng e x } }
  s1.set (Fd.ENG_STATUS_JPEND e) (b2n (x.jump.isSome || x.stop.isSome))

/-- STATE of an engine: 0 IDLE, 1 ARMED, 2 RUNNING, 3 STOPPING. -/
def engState (s : State) (e : Nat) : Nat := s.get (Fd.ENG_STATUS_STATE e)

/-- WVR.STATUS.QUIESCENT (R376): both engines are IDLE and the link is stopped. -/
def wvrQuiet (s : State) : State :=
  s.set Fd.WVR_STATUS_QUIESCENT (b2n (engState s 0 == 0 && engState s 1 == 0 && !s.on Fd.WVR_STATUS_LINK_UP))

/-- STATE of an engine set; its QUIESCENT is 1 in IDLE, and Weaver's follows. -/
def setState (e v : Nat) (s : State) : State :=
  wvrQuiet ((s.set (Fd.ENG_STATUS_STATE e) v).set (Fd.ENG_STATUS_QUIESCENT e) (b2n (v == 0)))

/-- An engine has stopped: IDLE, with event 0x0B02 (R365). -/
def engStop (e : Nat) (t : Tick) (cause : Nat) (s : State) : State :=
  let x := s.engine e
  let y := { EngSt.empty with
    cur := x.cur
    reqs := x.reqs
    resync := if x.under.isSome && e == 0 then some t else x.resync
    under := if e = 0 then none else x.under
    shift := x.shift }
  let s1 := if e = 1 then { s with wvr := { s.wvr with edges := [] } } else s
  (setState e 0 (setEng e y s1)).raise 0x0B02 [.w4 e, .t t, .w4 cause]

/-- A request is ignored (R359). -/
def engIgnore (e : Nat) (t : Tick) (s : State) : State :=
  (s.bump (Fd.ENG_IGNORED e)).raisePerLanding e 0x0B04 [.w4 e, .t t]

/-- A pass of an entry begins at t (R356, R358): both successors are read; a HALT entry or one of the other kind stops
the engine (R357, R364). -/
def passBegin (e : Nat) (t : Tick) (idx : Nat) (ent : WvEntry) (left : Nat) (s : State) : State :=
  if ent.kind = 2 then engStop e t 0 s
  else if ent.kind != e then engStop e t 3 s
  else
    let x := s.engine e
    let jump := x.jump.map (fun j => if j.2.2 then (j.1, wvEntry s j.1, false) else j)
    let y := { x with
      first := none
      byStart := false
      cur := idx
      ent := ent
      nxt := wvEntry s ent.next
      jmp := wvEntry s ent.jump
      b := t
      left := left
      vec := 0
      vt := t
      jump := jump
      stop := x.stop.map (fun p => (p.1, false)) }
    let s1 := s.set (Fd.ENG_STATUS_ENTRY e) idx
    -- a holdover of the stimulus PLL makes every granule due an underrun (R544)
    if e = 0 && s.on (Fd.PLL_STATUS_HOLD 3) && y.under.isNone then
      addSpan Df.stu allChans t none ((setEng e { y with under := some t, shift := 0 } s1).raise 0x0B06 [.w4 e, .t t])
    else setEng e y s1

/-- The pass now playing ends at t (R358, R360, R365): a stop, a jump, a repeat or NEXT, in this order. -/
def passEnd' (e : Nat) (t : Tick) (s : State) : State :=
  let x := s.engine e
  let x1 := if e = 0 && !s.on (Fd.PLL_STATUS_HOLD 3) && x.under.any (fun u => tlt u t) then { x with under := none, resync := some t } else x
  let s1 := setEng e x1 s
  match x1.stop with
  | some (c, false) => engStop e t c s1
  | _ =>
    match x1.jump with
    | some (i, ent, false) =>
      let s2 := (setEng e { x1 with jump := none } s1).raise 0x0B03 [.w4 e, .t t, .w4 x1.cur, .w4 i]
      passBegin e t i ent ent.repM1 s2
    | _ =>
      if x1.ent.forever then passBegin e t x1.cur x1.ent x1.left s1
      else if 0 < x1.left then passBegin e t x1.cur x1.ent (x1.left - 1) s1
      else passBegin e t x1.ent.next x1.nxt x1.nxt.repM1 s1

/-- Whether an engine plays a pass. -/
def engPlays (s : State) (e : Nat) : Bool := (engState s e == 2 || engState s e == 3) && (s.engine e).first.isNone

/-- The end of the pass now playing: known for the pattern engine once its last vector has started (R357). -/
def passEndAt (s : State) (e : Nat) : Option Tick :=
  let x := s.engine e
  if !engPlays s e then none
  else if e = 0 then some (tadd x.b (64 * waveQ s * x.ent.len))
  else if 64 * x.ent.len ≤ x.vec then some x.vt else none

/-- Whether the final granule of the pass has started at t (R357). -/
def inFinal (s : State) (e : Nat) (t : Tick) : Bool :=
  let x := s.engine e
  if e = 0 then tle (tadd x.b (64 * waveQ s * (x.ent.len - 1))) t else decide (64 * (x.ent.len - 1) < x.vec)

/-! ### Requests (R359 to R365) -/

/-- The first grid point at or after a stream time (R350). -/
def gridAt (s : State) (e : Nat) (t : Tick) : Tick := tceil (engGrid s e) t

/-- A stamp already released is placed at the first stream time not yet released (R362). -/
def placeStamp (e : Nat) (t : Tick) (s : State) : Tick × State :=
  if s.sys.counting && tlt t s.sys.next then
    (s.sys.next, (s.bump (Fd.ENG_LATE e)).raise 0x0B05 [.w4 e, .t t, .t s.sys.next])
  else (t, s)

/-- A jump request reaches an engine (R359, R362, R364): origin 0 triggers, 1 Tally events, 2 the host. -/
def engRequest (orig : Nat) (t : Tick) (e : Nat) (s : State) : State :=
  let st := engState s e
  if st = 0 ∨ st = 3 then engIgnore e t s
  else
    let p := placeStamp e t s
    let x := p.2.engine e
    if st = 1 then
      if x.first.isNone && bit x.ent.cond orig then
        let g := gridAt s e p.1
        (setEng e { x with first := some g } p.2).wrT (0xC011C + 0x40 * e) g
      else engIgnore e p.1 p.2
    else setEng e { x with reqs := x.reqs ++ [⟨p.1, 2 ^ orig, none⟩] } p.2

/-- A STOP or EN written to 0 reaches an engine (R365): at once while it is ARMED, before its first pass, or while stream
time does not run; else at its stamp. -/
def engStopReq (cause : Nat) (t : Tick) (e : Nat) (s : State) : State :=
  let st := engState s e
  if st = 0 then s
  else if st = 1 ∨ !s.sys.counting then engStop e t cause s
  else
    let p := placeStamp e t s
    let x := p.2.engine e
    if x.first.any (fun b => tlt p.1 b) then engStop e p.1 cause p.2
    else setEng e { x with reqs := x.reqs ++ [⟨p.1, 0, some cause⟩] } p.2

/-- A stop is taken at its stamp (R360, R365): EN replaces a pending jump, and a stop that would take effect later. -/
def takeStop (e : Nat) (t : Tick) (cause : Nat) (s : State) : State :=
  let x := s.engine e
  let late := inFinal s e t
  let stop := match x.stop with
    | none => some (cause, late)
    | some (c, l) => if cause = 2 && l && !late then some (cause, late) else some (c, l)
  setState e 3 (setEng e { x with stop := stop, jump := if cause = 2 then none else x.jump } s)

/-- The requests of one stamp are judged at it (R359, R377). -/
def judge (e : Nat) (t : Tick) (rs : List WvReq) (s : State) : State :=
  let orig := rs.foldl (fun a r => Nat.lor a r.orig) 0
  let stops := rs.filterMap WvReq.stop
  let x := s.engine e
  if engState s e != 2 && engState s e != 3 then (if orig = 0 then s else engIgnore e t s)
  else match stops with
    | [] =>
      if Nat.land orig x.ent.cond = 0 || x.jump.isSome || x.stop.isSome then engIgnore e t s
      else setEng e { x with jump := some (x.ent.jump, x.jmp, inFinal s e t) } s
    | _ =>
      let s1 := takeStop e t (if stops.contains 2 then 2 else 1) s
      if orig = 0 then s1 else engIgnore e t s1

/-- The earliest waiting stamp of an engine. -/
def firstReq (x : EngSt) : Option Tick :=
  x.reqs.foldl (fun acc r => some (match acc with
    | none => r.s
    | some t => tmin t r.s)) none

/-! ### Pattern vectors (R373, R375) -/

/-- The period of timing set k for vectors that start at t. -/
def tsPer (s : State) (k : Nat) (t : Tick) : Nat := let p := s.getAt t (Fd.TS_PER k); if p = 0 then 32768 else p

/-- The 8 bytes of a vector of the pass now playing. -/
def vecWord (s : State) (x : EngSt) (v : Nat) : Nat := s.loadN (s.rd64 0xC0008 + x.ent.start * 512 + 8 * v) 8

/-- The edges of a vector that starts at t (R373). -/
def vecEdges (s : State) (w : Nat) (t : Tick) : List PatEdge :=
  let k := bits w 32 3
  (List.range 32).flatMap (fun p =>
    let f := bits (s.getAt t (if p < 16 then Fd.TS_FMT_LO k else Fd.TS_FMT_HI k)) (2 * (p % 16)) 2
    let d := s.getAt t (Fd.TS_EDGE_D k p)
    let r := s.getAt t (Fd.TS_EDGE_R k p)
    let at' (h : Nat) (v : Bool) : PatEdge := ⟨p, tadd t (h / 2), h % 2, v⟩
    match f with
    | 0 => [at' d (bit w p)]
    | 1 => [at' d (bit w p), at' r false]
    | 2 => [at' d (bit w p), at' r true]
    | _ => [])

/-- The next vector starts, or an idle granule of 64 vectors of TS0 (R369, R373). -/
def vectorStart (s : State) : State :=
  let x := s.engine 1
  let t := x.vt
  if x.vec % 64 = 0 && x.under.any (fun u => tle u t) then
    let n := 64 * tsPer s 0 t
    let s1 := { s with wvr := { s.wvr with pat := x.ent.idle0, edges := [] } }
    setEng 1 { x with vt := tadd t n, shift := x.shift + n } s1
  else
    let w := vecWord s x x.vec
    let s1 := { s with wvr := { s.wvr with edges := s.wvr.edges ++ vecEdges s w t } }
    setEng 1 { x with vec := x.vec + 1, vt := tadd t (tsPer s (bits w 32 3) t) } s1

/-- Edges whose stream time has been released act (R352, R373). -/
def patRelease (t : Tick) (s : State) : State :=
  let due := s.wvr.edges.filter (fun e => tle e.t t)
  let pat := due.foldl (fun p e => if e.level then setBit p e.pin else clearBit p e.pin) s.wvr.pat
  { s with wvr := { s.wvr with pat := pat, edges := s.wvr.edges.filter (fun e => !tle e.t t) } }

/-! ### Underruns (R369) -/

/-- A resynchronisation is reported, and STU ends SYS.STU_EXTEND ticks later (R52, R369). -/
def wvrResync (e : Nat) (s : State) : State :=
  let x := s.engine e
  match x.resync with
  | none => s
  | some t =>
    let s1 := (setEng e { x with resync := none, shift := 0 } s).raise 0x0B07 [.w4 e, .t t, .w4 (if e = 1 then x.shift else 0)]
    let s2 := s1.bump (Fd.ENG_UNDERRUNS e)
    let other := (s2.engine (1 - e)).under.isSome || (s2.engine (1 - e)).resync.isSome
    if other then s2 else closeSpans Df.stu allChans (tadd t (s2.get Fd.SYS_STU_EXTEND)) s2

/-- The start of the next granule of the pass now playing. -/
def nextGranule (s : State) (e : Nat) : Tick :=
  let x := s.engine e
  if e = 0 then
    let g := 64 * waveQ s
    tadd x.b (ceilTo g (s.sys.next - x.b).toNat)
  else
    let n := (64 - x.vec % 64) % 64
    (List.range n).foldl (fun t i => tadd t (tsPer s (bits (vecWord s x (x.vec + i)) 32 3) t)) x.vt

/-- WEAVER_UNDERRUN (R52, R369): the next granule of an engine's pass is not complete when due; its outputs hold idle
values, and every channel's outputs carry STU. -/
def weaverUnderrun (e : Nat) (s : State) : State :=
  let x := s.engine e
  if !engPlays s e || x.under.isSome then s
  else
    let t := nextGranule s e
    let s1 := (setEng e { x with under := some t, shift := 0 } s).raise 0x0B06 [.w4 e, .t t]
    addSpan Df.stu allChans t none s1

/-- WEAVER_UNDERRUN (R369). -/
def execWeaverUnderrun (engine : Fin 2) (s : State) : Out := .next (weaverUnderrun engine.val s)

/-- UNDERRUN_RESYNC (R369): the wave engine resynchronises with the pass after the underrun, the pattern engine at its
next granule once it has played an idle one. -/
def underrunResync (e : Nat) (s : State) : State :=
  let x := s.engine e
  if e = 1 && x.under.isSome && decide (0 < x.shift) then
    wvrResync 1 (setEng 1 { x with under := none, resync := some x.vt } s)
  else wvrResync e s

/-- UNDERRUN_RESYNC (R369). -/
def execUnderrunResync (engine : Fin 2) (s : State) : Out := .next (underrunResync engine.val s)

/-! ### What happens at a stream time -/

/-- The first pass of an engine begins (R363, R364, FIRST_PASS_START); requests stamped before it count as stamped at its
start (R359). -/
def firstPass (e : Nat) (t : Tick) (s : State) : State :=
  let x := s.engine e
  let reqs := x.reqs.map (fun r => if tlt r.s t then { r with s := t } else r)
  let s1 := (setState e 2 (setEng e { x with reqs := reqs } s)).raise 0x0B01 [.w4 e, .t t, .w4 x.cur]
  passBegin e t x.cur x.ent x.ent.repM1 s1

/-- What is due at an engine through stream time t happens: first passes, vectors, pass ends, then requests. -/
def engSettle (e : Nat) (t : Tick) : Nat → State → State
  | 0, s => s
  | n + 1, s =>
    let x := s.engine e
    let due (o : Option Tick) : Bool := o.any (fun u => tle u t)
    if due x.resync then engSettle e t n (wvrResync e s)
    else if due x.first then engSettle e t n (firstPass e (x.first.getD t) s)
    else if e = 1 && engPlays s 1 && decide (x.vec < 64 * x.ent.len) && tle x.vt t then engSettle e t n (vectorStart s)
    else if due (passEndAt s e) then engSettle e t n (passEnd' e ((passEndAt s e).getD t) s)
    else if x.first.isNone && due (firstReq x) then
      let u := (firstReq x).getD t
      let now := x.reqs.filter (fun r => r.s == u)
      engSettle e t n (judge e u now (setEng e { x with reqs := x.reqs.filter (fun r => r.s != u) } s))
    else s

/-- The word of DAC d at stream time t (R353, R365, R369). -/
def dacWord (s : State) (d : Nat) (t : Tick) : Nat :=
  let x := s.engine 0
  if !engPlays s 0 then s.get (if d = 0 then Fd.ENG_IDLE0 0 else Fd.ENG_IDLE1 0)
  else if x.under.any (fun u => tle u t) then (if d = 0 then x.ent.idle0 else x.ent.idle1)
  else if !s.onBit Fd.WVR_CTRL_DAC_EN d then 0
  else
    let k := (t - x.b).toNat / waveQ s
    let m := 2 * txM s
    let pos := if d = 1 && s.onBit Fd.WVR_CTRL_DAC_EN 0 then m else 0
    s.loadN (s.rd64 0xC0008 + x.ent.start * 512 + k * (m * dacCount s) + pos) m

/-- Weaver follows the release of stream time t (R349, R352, R363). -/
def wvrAt (t : Tick) (s : State) : State :=
  patRelease t (engSettle 1 t 8 (engSettle 0 t 8 s))

/-- The words at the DACs after a beat whose last sample is stamped t. -/
def wvrOut (t : Tick) (s : State) : State :=
  let idle := !engPlays s 1 || !s.on Fd.WVR_CTRL_EN || !s.on Fd.WVR_CTRL_PAT_EN
  { s with wvr := { s.wvr with
    dac0 := dacWord s 0 t
    dac1 := dacWord s 1 t
    pat := if idle then s.get (Fd.ENG_IDLE0 1) else s.wvr.pat } }

/-- The levels at the pattern pins (R375): while EN or PAT_EN is 0 they hold IDLE0. -/
def patPins (s : State) : Nat :=
  Nat.xor (if s.on Fd.WVR_CTRL_EN && s.on Fd.WVR_CTRL_PAT_EN && engPlays s 1 then s.wvr.pat else s.get (Fd.ENG_IDLE0 1))
    (s.get Fd.WVR_PAT_INV)

/-- PASS_BOUNDARY (R358, R360, R365): the pass of an engine that ends at the next stream time to be released ends. -/
def execPassBoundary (engine : Fin 2) (s : State) : Out :=
  match passEndAt s engine.val with
  | none => .next s
  | some t => .next (if tle t s.sys.next then passEnd' engine.val t s else s)

/-- FIRST_PASS_START (R363, R364): the first pass of an engine begins at its effective start. -/
def execFirstPassStart (engine : Fin 2) (s : State) : Out :=
  match (s.engine engine.val).first with
  | none => .next s
  | some t => .next (if s.sys.counting && tle t s.sys.next then firstPass engine.val t s else s)

/-! ### Commands (R363 to R366) -/

/-- START (R363): T is held to grid points at least 65,536 ticks after the command's arrival. -/
def engStart (e : Nat) (s : State) : State :=
  let st := engState s e
  if st != 0 then s.raise 0x0B0B [.w4 e, .w4 0, .w4 st]
  else
    let g := engGrid s e
    let want := s.rdT (0xC0108 + 0x40 * e)
    let least := tceil g (tadd (arrivalNow s) 65536)
    let down := BitVec.ofNat 64 (floorTo g want.toNat)
    let near := if 2 * (want - down).toNat ≤ g then down else tadd down g
    let t := if tlt near least then least else near
    let s1 := if t != want then s.clamped else s
    let i := s.get (Fd.ENG_START_ENTRY e)
    let x := { EngSt.empty with first := some t, byStart := true, cur := i, ent := wvEntry s i, reqs := (s.engine e).reqs }
    (setState e 2 (setEng e x s1)).wrT (0xC011C + 0x40 * e) t

/-- ARM_TRIG (R364). -/
def engArm (e : Nat) (s : State) : State :=
  let st := engState s e
  if st != 0 then s.raise 0x0B0B [.w4 e, .w4 1, .w4 st]
  else
    let i := s.get (Fd.ENG_START_ENTRY e)
    setState e 1 (setEng e { EngSt.empty with cur := i, ent := wvEntry s i, reqs := (s.engine e).reqs } s)

/-- The stamp of a host request that arrives now (R359). -/
def hostStamp (s : State) : Tick := tadd (arrivalNow s) (s.get Fd.WVR_JDELAY)

/-- A write of an engine's CMD (R366): STOP, START, ARM_TRIG, JUMP, each judged after the one before it. -/
def engCmd (e w : Nat) (s : State) : State :=
  let s1 := if bit w 2 then engStopReq 1 (hostStamp s) e s else s
  let s2 := if bit w 0 then engStart e s1 else s1
  let s3 := if bit w 1 then engArm e s2 else s2
  if bit w 3 then engRequest 2 (hostStamp s3) e s3 else s3

/-- START (R363). -/
def execStart (engine : Fin 2) (s : State) : Out := .next (engStart engine.val s)

/-- ARM_TRIG (R364). -/
def execArmTrig (engine : Fin 2) (s : State) : Out := .next (engArm engine.val s)

/-- STOP (R365). -/
def execStop (engine : Fin 2) (s : State) : Out := .next (engStopReq 1 (hostStamp s) engine.val s)

/-- JUMP (R359). -/
def execJump (engine : Fin 2) (s : State) : Out := .next (engRequest 2 (hostStamp s) engine.val s)

/-- Both engines are asked by a trigger of TUm or by a Tally event (R359, R361): the masks and the delay are those in
effect at the time `t` of the trigger or stamp. -/
def wvrAsk (orig unit : Nat) (t : Tick) (s : State) : State :=
  let mask := s.getAt t (if orig = 0 then Fd.WVR_JSRC_TUMASK else Fd.WVR_JSRC_EVMASK)
  if !bit mask unit then s
  else
    let stamp := tadd t (s.getAt t Fd.WVR_JDELAY)
    engRequest orig stamp 1 (engRequest orig stamp 0 s)

/-! ### The link and EN (R367, R371) -/

/-- The transmit lanes of the enabled DACs (R370). -/
def txLanes (s : State) : Nat :=
  let one (d : Nat) : Nat := if s.onBit Fd.WVR_CTRL_DAC_EN d then (2 ^ txL s - 1) * 2 ^ (8 * d) else 0
  one 0 + one 1

/-- The transmit EMB in ticks (R371). -/
def txEmb (s : State) : Nat := ([1024, 512, 512, 256].getD (s.get Fd.WVR_CTRL_TMODE) 1024) * waveQ s

/-- WEAVER_ENABLE (R371): EN has changed to 1 and the far ends of the used lanes have been sensed; `open'` names the open
lanes. -/
def wvrEnable (open' : Nat) (s : State) : State :=
  let s1 := wvrQuiet (((s.set Fd.WVR_CTRL_EN 1).set Fd.WVR_STATUS_LINK_UP 0).set Fd.WVR_STATUS_LINK_FAIL 0)
  let lanes := txLanes s1
  let bad := Nat.land lanes open'
  if lanes = 0 then s1
  else if bad != 0 then (s1.set Fd.WVR_STATUS_LINK_FAIL 1).raise 0x0B08 [.w4 bad, .w4 1]
  else if sysrefTicks s1 % txEmb s1 != 0 then (s1.set Fd.WVR_STATUS_LINK_FAIL 1).raise 0x0B08 [.w4 0, .w4 2]
  else { s1 with wvr := { s1.wvr with linkDue := true } }

/-- WEAVER_ENABLE (R371). -/
def execWeaverEnable (openLanes : BitVec 16) (s : State) : Out :=
  if s.on Fd.WVR_CTRL_EN then .next s else .next (wvrEnable openLanes.toNat s)

/-- LINK_START (R371): an LEMC edge has occurred while a link waits for one. -/
def execLinkStart (s : State) : Out :=
  if s.wvr.linkDue && s.ingEn && s.on Fd.ING_SR_STATUS_LEMC_SET then
    .next (wvrQuiet ({ s with wvr := { s.wvr with linkDue := false } }.set Fd.WVR_STATUS_LINK_UP 1))
  else .next s

/-- EN = 0 (R365, R367): both engines stop with cause 2, and a link that waits does not start. -/
def wvrDisable (s : State) : State :=
  let s1 := { s with wvr := { s.wvr with linkDue := false } }.set Fd.WVR_CTRL_EN 0
  engStopReq 2 (hostStamp s1) 1 (engStopReq 2 (hostStamp s1) 0 s1)

/-- WEAVER_DISABLE (R367). -/
def execWeaverDisable (s : State) : Out := if s.on Fd.WVR_CTRL_EN then .next (wvrDisable s) else .next s

/-- LINK_STOP (R367, R371): with EN 0 and both engines IDLE, the link stops at the end of an EMB, and QUIESCENT sets. -/
def execLinkStop (s : State) : Out :=
  if !s.on Fd.WVR_CTRL_EN && engState s 0 == 0 && engState s 1 == 0 then
    .next (wvrQuiet (s.set Fd.WVR_STATUS_LINK_UP 0))
  else .next s

/-! ### At a landing (R361, R374) -/

/-- The least JDELAY (R361). -/
def jdelayMin (s : State) : Nat :=
  let tu := maxL ((List.range 8).map (fun m => if s.onBit Fd.WVR_JSRC_TUMASK m then s.get (Fd.TU_DMIN m) else 0))
  let fs := s.get Fd.ING_FS_KHZ
  let ev := if s.on Fd.WVR_JSRC_EVMASK then 16 * ((128 * 1600000 + 16 * fs + 25600000 - 1) / 25600000) else 0
  max tu ev

/-- The edges of a timing set held to its period (R374). -/
def tsClamp (k : Nat) (s : State) : State :=
  let per := let p := s.get (Fd.TS_PER k); if p = 0 then 32768 else p
  s.each (List.range 32) (fun p s =>
    let s1 := clampRange (Fd.TS_EDGE_D k p) 0 (2 * per - 32) s
    clampRange (Fd.TS_EDGE_R k p) (s1.get (Fd.TS_EDGE_D k p) + 16) (2 * per - 16) s1)

/-- Weaver at a landing. -/
def wvrLand (old s : State) : State :=
  let changed := (List.range 8).filter (fun k =>
    anyChanged old s (Fd.TS_PER k :: (List.range 32).flatMap (fun p => [Fd.TS_EDGE_D k p, Fd.TS_EDGE_R k p])))
  let s1 := s.each changed tsClamp
  let least := jdelayMin s1
  if s1.get Fd.WVR_JDELAY < least then ((s1.set Fd.WVR_JDELAY least).clamped).raise 0x0B0A [.w4 least] else s1

/-- Weaver's counters are cleared (R376). -/
def wvrCntClear (s : State) : State :=
  s.each [0, 1] (fun e s => ((s.set (Fd.ENG_UNDERRUNS e) 0).set (Fd.ENG_IGNORED e) 0).set (Fd.ENG_LATE e) 0)

end Sys2Proof.Machine
end

