-- ==== Sys2Proof/Machine/Clock.lean ====
section
/-! DEFINITION. Clocks (R532 to R550): reference sources and moves of the core PLL, the four PLLs with their holdovers
and phase steps, the domains and their gating. What the oscillators and detectors report comes with the commands. -/

namespace Sys2Proof.Machine

/-! ### Reference sources (R532 to R535) -/

/-- Whether a source is available (R532). -/
def srcAvailable (s : State) (src : Nat) : Bool :=
  match src with
  | 0 => true
  | 1 => s.on Fd.CLK_STATUS_OCXO_RDY
  | 2 => s.on Fd.CLK_STATUS_EXT_OK && !s.on Fd.CLK_STATUS_EXT_FREQ
  | _ => s.on Fd.CLK_STATUS_EXT_OK && s.on Fd.CLK_STATUS_EXT_FREQ

/-- The source that the core PLL is to move to, if a move is due (R535, R538): the wanted one, or with AUTO the first
available of OCXO and TRO; a new REFMODE is a move to the same source. -/
def moveDue (s : State) : Option Nat :=
  let act := s.get Fd.CLK_SRC_ACT
  let sel := s.get Fd.CLK_SRC_SEL
  let mode := s.get (Fd.PLL_CTRL_REFMODE 0) != s.clk.refmode
  if srcAvailable s sel then (if sel != act || mode then some sel else none)
  else if s.on Fd.CLK_SRC_AUTO then
    let f := if srcAvailable s 1 then 1 else 0
    if f != act || mode then some f else none
  else if mode && srcAvailable s act then some act
  else none

/-- A move that is due while RUN is 1 waits, and event 0x0107 tells so once for each SEL value (R535). -/
def moveCheck (s : State) : State :=
  if s.run && (moveDue s).isSome && !s.clk.waited then
    ({ s with clk := { s.clk with waited := true } }).raise 0x0107 [.w4 (s.get Fd.CLK_SRC_SEL)]
  else s

/-- A write of CLK.SRC has taken effect; `old` is SEL before it. -/
def srcWrite (old : Nat) (s : State) : State :=
  moveCheck (if s.get Fd.CLK_SRC_SEL = old then s else { s with clk := { s.clk with waited := false } })

/-- OCXO_READY (R533). -/
def execOcxoReady (s : State) : Out :=
  if s.on Fd.CLK_STATUS_OCXO_RDY then .next s
  else .next (moveCheck ((s.set Fd.CLK_STATUS_OCXO_RDY 1).raise 0x0102))

/-- OCXO_LOST (R533): regulation breaks while the OCXO is the reference in effect. -/
def execOcxoLost (s : State) : Out :=
  if s.on Fd.CLK_STATUS_OCXO_RDY && s.get Fd.CLK_SRC_ACT == 1 then
    .next (moveCheck ((s.set Fd.CLK_STATUS_OCXO_RDY 0).raise 0x0104 [.w4 1]))
  else .next s

/-- The frequency code of a window of REF_IN, none where the window is not good (R534): amplitude in 0.1 dBm, frequency
in Hz. -/
def refWindow (s : State) (amp : Int) (hz : Nat) : Option Nat :=
  let near (f : Nat) : Bool :=
    let tol := if s.on Fd.CLK_STATUS_OCXO_RDY then f / 50000 else f * 3 / 100
    decide (f ≤ hz + tol) && decide (hz ≤ f + tol)
  if amp < 0 then none else if near 10000000 then some 0 else if near 100000000 then some 1 else none

/-- REF_WINDOW (R534): a 10 ms window of REF_IN has been measured. -/
def execRefWindow (amp : Int) (hz : Nat) (s : State) : Out :=
  let ok := s.on Fd.CLK_STATUS_EXT_OK
  let lose (s : State) : State := if ok then
      (s.set Fd.CLK_STATUS_EXT_OK 0).raise 0x0104 [.w4 (2 + s.get Fd.CLK_STATUS_EXT_FREQ)] else s
  .next (match refWindow s amp hz with
    | none => moveCheck (lose { s with clk := { s.clk with goodWindows := 0 } })
    | some f =>
      if s.clk.goodWindows = 0 ∨ s.clk.goodFreq = f then
        let n := min 100 (s.clk.goodWindows + 1)
        let s1 := { s with clk := { s.clk with goodWindows := n, goodFreq := f } }
        if n = 100 ∧ ok = false then
          moveCheck (((s1.set Fd.CLK_STATUS_EXT_OK 1).set Fd.CLK_STATUS_EXT_FREQ f).raise 0x0103 [.w4 f])
        else s1
      else moveCheck (lose { s with clk := { s.clk with goodWindows := 1, goodFreq := f } }))

/-! ### Settings of the PLLs (R537 to R539) -/

/-- The frequency of a reference source in kHz (R532). -/
def srcKhz (src : Nat) : Nat := [50000, 100000, 10000, 100000].getD src 0

/-- A phase-detector frequency in kHz: the reference as REFMODE divides or multiplies it. -/
def pfdKhz (ref mode : Nat) : Nat := if mode = 1 then 2 * ref else if mode = 2 then ref / 2 else ref

/-- The frequency of ICLK in kHz: F_s / 16. -/
def iclkKhz (s : State) : Nat := s.get Fd.ING_FS_KHZ / 16

/-- The DEVCLK divider D of R90. -/
def devclkDiv (s : State) : Nat := 16 * 2 ^ s.get Fd.ING_MODE_DEVCLK_DIV

/-- ODIV of the ingest PLL (R538): the largest power of two from 4 to 64 that keeps the VCO at or below 12.8 GHz. -/
def ingestOdiv (s : State) : Nat :=
  [64, 32, 16, 8].find? (fun o => decide (s.get Fd.ING_FS_KHZ * o ≤ 16 * 12800000)) |>.getD 4

/-- N of the ingest PLL (R538), from a REFMODE. -/
def ingestN (s : State) (mode : Nat) : Nat :=
  let n := ingestOdiv s * devclkDiv s
  if mode = 1 then n / 32 else if mode = 2 then n / 8 else n / 16

/-- The REFMODE values that put the ingest PLL's PFD within 25 to 800 MHz (R537, R538), compared as F_s against D times
the limit. -/
def ingestModes (s : State) : List Nat :=
  [0, 1, 2].filter (fun m =>
    let num := s.get Fd.ING_FS_KHZ * (if m = 1 then 4 else if m = 2 then 1 else 2)
    decide (2 * devclkDiv s * 25000 ≤ num) && decide (num ≤ 2 * devclkDiv s * 800000))

/-- REFMODE of the ingest PLL held to the legal value whose PFD lies nearest (R538): the PFDs stand as 2, 4 and 1. -/
def ingestModeClamp (s : State) (mode : Nat) : Nat :=
  let legal := ingestModes s
  if legal.contains mode then mode
  else if mode = 1 then (if legal.contains 0 then 0 else 2)
  else if mode = 2 then (if legal.contains 0 then 0 else 1)
  else if legal.contains 2 then 2 else if legal.contains 1 then 1 else 2

/-- The distance of two numbers. -/
def dist (a b : Nat) : Nat := (a - b) + (b - a)

/-- A setting (PD, N, ODIV) of the display PLL and how far it puts PCLK from what is wanted, as a fraction (R539). -/
structure PixelSet where
  pd : Nat
  n : Nat
  odiv : Nat
  /-- |ref·N − PCLK_KHZ·PD·ODIV| -/
  num : Nat
deriving DecidableEq, Repr

/-- Whether a setting lies nearer to PCLK_KHZ than another; a tie keeps the earlier one. -/
def PixelSet.nearer (a b : PixelSet) : Bool := decide (a.num * (b.pd * b.odiv) < b.num * (a.pd * a.odiv))

/-- The settings of one PD and ODIV: the two feedback dividers about the wanted ratio, within R537. -/
def pixelSets (ref want pd odiv : Nat) : List PixelSet :=
  let n0 := want * pd * odiv / ref
  [n0, n0 + 1].filterMap (fun n =>
    if 30 ≤ n ∧ n ≤ 6000 ∧ 3000000 * pd ≤ ref * n ∧ ref * n ≤ 6000000 * pd ∧ 1000 * pd ≤ ref ∧ ref ≤ 100000 * pd then
      some ⟨pd, n, odiv, dist (ref * n) (want * pd * odiv)⟩
    else none)

/-- The setting of the display PLL that brings PCLK nearest: ties go to the smallest PD, then the largest ODIV (R539). -/
def pixelBest (ref want : Nat) : Option PixelSet :=
  (List.range 100).foldl (fun best p =>
    (List.range 236).foldl (fun best o =>
      (pixelSets ref want (p + 1) (240 - o)).foldl (fun best x => match best with
        | none => some x
        | some b => if x.nearer b then some x else some b) best) best) none

/-- DIV and FOUT_KHZ of a PLL follow its settings when it locks (R537 to R539). -/
def pllSet (p : Nat) (s : State) : State :=
  match p with
  | 0 =>
    let pfd := pfdKhz (srcKhz (s.get Fd.CLK_SRC_ACT)) s.clk.refmode
    (s.set (Fd.PLL_DIV_N 0) (8000000 / pfd)).set (Fd.PLL_FOUT_KHZ 0) 8000000
  | 1 =>
    let s1 := if s.on Fd.TRG_XLOG_STATUS_PLAYBACK then
        let pfd := srcKhz (s.get Fd.CLK_SRC_ACT) / 2
        let n := iclkKhz s * ingestOdiv s / pfd
        (s.set (Fd.PLL_DIV_N 1) n).set (Fd.PLL_FOUT_KHZ 1) (pfd * n / ingestOdiv s)
      else (s.set (Fd.PLL_DIV_N 1) (ingestN s (s.get (Fd.PLL_CTRL_REFMODE 1)))).set (Fd.PLL_FOUT_KHZ 1) (iclkKhz s)
    s1.set (Fd.PLL_DIV_ODIV 1) (ingestOdiv s)
  | 2 =>
    let ref := pfdKhz (srcKhz (s.get Fd.CLK_SRC_ACT)) (s.get (Fd.PLL_CTRL_REFMODE 2))
    match pixelBest ref (s.get Fd.GAL_PCLK_KHZ) with
    | none => s
    | some x =>
      (((s.set (Fd.PLL_DIV_N 2) x.n).set (Fd.PLL_DIV_ODIV 2) x.odiv).set (Fd.PLL_DIV_PD 2) x.pd).set (Fd.PLL_FOUT_KHZ 2)
        (ref * x.n / (x.pd * x.odiv))
  | _ =>
    let fs := s.get Fd.ING_FS_KHZ
    let tm := s.get Fd.WVR_CTRL_TMODE
    (s.set (Fd.PLL_DIV_N 3) (Config.stimulusN fs tm).toNat).set (Fd.PLL_FOUT_KHZ 3) (Config.stimulusKhz fs tm).toNat

/-! ### Holdover (R541 to R544) -/

/-- The stream time now released at the ingest point, 0 while none is. -/
def clkNow (s : State) : Tick := if s.sys.counting then s.tRel else 0

/-- PLL_LOSS (R542, R544): a PLL declares loss of lock and coasts. `present` says whether reference edges still arrive. -/
def execPllLoss (pll : Fin 4) (present : Bool) (s : State) : Out :=
  let p := pll.val
  if !s.on (Fd.PLL_STATUS_LOCK p) then .next s
  else
    let s1 := ((s.set (Fd.PLL_STATUS_LOCK p) 0).set (Fd.PLL_STATUS_HOLD p) 1).set (Fd.PLL_STATUS_REF_PRESENT p) (b2n present)
    let s2 := (s1.bump (Fd.PLL_HOLDS p)).raise 0x0105 [.w4 p, .t (clkNow s)]
    let s3 := { s2 with clk := { s2.clk with limited := s2.clk.limited.filter (· != p) } }
    .next (match p with
      | 0 => if s.sys.counting then addSpan Df.hld allChans s.tRel none s3 else s3
      | 1 => if s.sys.counting then addSpan Df.hld allChans s.sys.next none s3 else s3
      | 2 => s3
      | _ => weaverUnderrun 0 s3)

/-- A PLL leaves holdover after `us` microseconds (R542): the HLD span ends where no other PLL keeps it open (R544). -/
def pllRegain (p us : Nat) (s : State) : State :=
  let s1 := ((s.set (Fd.PLL_STATUS_HOLD p) 0).set (Fd.PLL_STATUS_LOCK p) 1).set (Fd.PLL_STATUS_REF_PRESENT p) 1
  let other := p < 2 && s.on (Fd.PLL_STATUS_HOLD (1 - p))
  let s2 := if p < 2 && !other then closeSpans Df.hld allChans (clkNow s + 1) s1 else s1
  s2.raise 0x0106 [.w4 p, .t (clkNow s), .w4 us]

/-- PLL_LOCK (R541, R542): a PLL declares lock, out of holdover after `us` microseconds or for the first time. -/
def execPllLock (pll : Fin 4) (us : BitVec 32) (s : State) : Out :=
  let p := pll.val
  if s.on (Fd.PLL_STATUS_HOLD p) then .next (pllRegain p us.toNat s)
  else if s.on (Fd.PLL_STATUS_LOCK p) then .next s
  else .next (pllSet p ((s.set (Fd.PLL_STATUS_LOCK p) 1).set (Fd.PLL_STATUS_REF_PRESENT p) 1))

/-- HOLD_LIMIT (R542): a holdover has lasted HOLD_LIM seconds. -/
def execHoldLimit (pll : Fin 4) (s : State) : Out :=
  let p := pll.val
  if s.on (Fd.PLL_STATUS_HOLD p) && !s.clk.limited.contains p then
    .next (({ s with clk := { s.clk with limited := p :: s.clk.limited } }).raise 0x010A [.w4 p])
  else .next s

/-- PLL_PHASE_STEP (R545): a phase group moves one step towards PHASE; PLL1.PHASE is reserved. -/
def execPllPhaseStep (pll : Fin 4) (s : State) : Out :=
  let p := pll.val
  let want := s.get (Fd.PLL_PHASE p)
  let now := s.get (Fd.PLL_PHASE_ACT p)
  if p = 1 then .next s
  else .next (s.set (Fd.PLL_PHASE_ACT p) (if now < want then now + 1 else if want < now then now - 1 else now))

/-! ### Moves (R540) -/

/-- RAMPING: a move of the core PLL or a ramp of a domain is under way. -/
def rampShow (s : State) : State :=
  s.set Fd.CLK_STATUS_RAMPING (b2n (s.clk.move.isSome || s.clk.gates.any (fun g => decide (0 < g.2.exp) &&
    (g.2.up || !bit (s.get (Fd.CLK_GSTAT (g.1 / 32))) (g.1 % 32)))))

/-- SOURCE_MOVE (R535, R540): with RUN 0 the core PLL begins the move that is due. -/
def execSourceMove (s : State) : Out :=
  if s.run || s.clk.move.isSome then .next s
  else match moveDue s with
  | none => .next s
  | some t =>
    let m : ClkMove := ⟨s.get Fd.CLK_SRC_ACT, t, s.get (Fd.PLL_CTRL_REFMODE 0), 1, false⟩
    .next (rampShow (({ s with clk := { s.clk with move := some m } }).set Fd.CLK_SRC_SWITCHING 1))

/-- PLL_RELOCK (R540): the core PLL relocks on the new source, or on the TRO if that has become unavailable. After a
holdover of `us` microseconds this ends it. -/
def execPllRelock (us : BitVec 32) (s : State) : Out :=
  match s.clk.move with
  | none => .next s
  | some m =>
    if m.locked || m.exp != 7 then .next s
    else
      let new := if srcAvailable s m.new then m.new else 0
      let s1 := { s with clk := { s.clk with
        move := some { m with new := new, exp := 6, locked := true }
        refmode := m.refmode } }
      let s2 := pllSet 0 (s1.set Fd.CLK_SRC_ACT new)
      let s3 := if s.on (Fd.PLL_STATUS_HOLD 0) then pllRegain 0 us.toNat s2
        else (s2.set (Fd.PLL_STATUS_LOCK 0) 1).set (Fd.PLL_STATUS_REF_PRESENT 0) 1
      .next (s3.raise 0x0101 [.w4 m.old, .w4 new, .w4 m.refmode])

/-- A tread of the core PLL's move ends (R540): down to ÷64, then the holding clock; after the relock up to ÷1. -/
def moveTread (s : State) : State :=
  match s.clk.move with
  | none => s
  | some m =>
    let keepMove (x : ClkMove) (s : State) : State := { s with clk := { s.clk with move := some x } }
    if m.locked then
      if m.exp ≤ 1 then moveCheck (({ s with clk := { s.clk with move := none } }).set Fd.CLK_SRC_SWITCHING 0)
      else keepMove { m with exp := m.exp - 1 } s
    else if m.exp < 6 then keepMove { m with exp := m.exp + 1 } s
    else if m.exp = 6 then keepMove { m with exp := 7 } (s.set (Fd.PLL_STATUS_LOCK 0) 0)
    else s

/-! ### Domains (R546) -/

/-- The Gate column: 0 never, 1 by handshake, 2 by handshake then stair ramp. -/
def gateKind (d : Nat) : Nat :=
  if [7, 9, 10, 11, 12, 13, 14, 15, 16, 17, 18, 19, 20, 21, 22, 81, 82, 83, 84, 85, 86, 87, 88, 89, 90, 91, 92, 93, 94, 95,
      96, 97, 103].contains d then 1
  else if [23, 24, 25, 26, 28, 29, 30, 31, 32, 33, 34, 35, 36, 37, 38, 39, 40, 41, 42, 43, 44, 45].contains d ||
      (decide (46 ≤ d) && decide (d ≤ 67)) || [69, 99, 100, 101].contains d then 2
  else 0

/-- The unit of a gateable domain, by the number that its event codes carry in their high byte; ingest is 2, Porter 14
and perturbation 17. -/
def domainUnit (d : Nat) : Nat :=
  if d = 7 then 19
  else if d = 9 ∨ (13 ≤ d ∧ d ≤ 16) ∨ (23 ≤ d ∧ d ≤ 26) then 2
  else if d = 10 ∨ d = 103 then 12
  else if d = 11 ∨ d = 34 then 6
  else if d = 12 ∨ (17 ≤ d ∧ d ≤ 19) then 11
  else if (20 ≤ d ∧ d ≤ 22) ∨ d = 44 then 9
  else if d = 28 ∨ d = 99 then 3
  else if d = 29 then 4
  else if 30 ≤ d ∧ d ≤ 33 then 5
  else if d = 35 then 7
  else if 36 ≤ d ∧ d ≤ 43 then 8
  else if (45 ≤ d ∧ d ≤ 61) ∨ (81 ≤ d ∧ d ≤ 88) ∨ d = 100 then 10
  else if 62 ≤ d ∧ d ≤ 66 then 13
  else if d = 67 then 14
  else if d = 69 ∨ (89 ≤ d ∧ d ≤ 97) then 16
  else 17

/-- Whether the unit of a domain is quiescent (R21, R547). -/
def unitIdle (s : State) (u : Nat) : Bool :=
  match u with
  | 2 => !s.ingEn
  | 3 => s.on Fd.ASY_STATUS_QUIESCENT
  | 4 => s.on Fd.ZB_STATUS_QUIESCENT
  | 5 => s.on Fd.SPXG_STATUS_QUIESCENT
  | 6 => s.on Fd.TRG_STATUS_QUIESCENT
  | 7 => s.on Fd.HOOP_STATUS_QUIESCENT
  | 8 => s.on Fd.DENG_STATUS_QUIESCENT
  | 9 => s.on Fd.GAL_STATUS_QUIESCENT
  | 10 => s.on Fd.SCR_STATUS_QUIESCENT
  | 11 => s.on Fd.WVR_STATUS_QUIESCENT
  | 12 => s.on Fd.TLY_STATUS_QUIESCENT
  | 13 => s.on Fd.CYK_STATUS_QUIESCENT
  | 14 => s.on Fd.PTR_STATUS_QUIESCENT
  | 16 => s.on Fd.BYO_STATUS_QUIESCENT
  | 19 => s.on Fd.CFG_STATUS_QUIESCENT
  | _ => !s.on Fd.PTB_CTRL_EN

/-- The gateable domains of a unit (R549). -/
def unitDomains (u : Nat) : List Nat := (List.range 104).filter (fun d => gateKind d != 0 && domainUnit d == u)

/-- The lane rate of ingest in kHz (R87) and of the transmit link (R370). -/
def rxRateKhz (s : State) : Nat := s.get Fd.ING_FS_KHZ * s.im.m * s.im.nprime * 66 / (64 * s.im.lanes)
def txRateKhz (s : State) : Nat := s.get Fd.ING_FS_KHZ / waveQ s * txM s * 16 * 66 / (64 * txL s)

/-- The nominal frequency of a domain in kHz (R546). -/
def domainKhz (s : State) (d : Nat) : Nat :=
  if d = 0 then 50000
  else if d = 1 then srcKhz (s.get Fd.CLK_SRC_ACT)
  else if d = 2 then 800000
  else if d = 3 then 400000
  else if d = 4 then 1000000
  else if d = 5 ∨ d = 79 ∨ (81 ≤ d ∧ d ≤ 84) then 100000
  else if d = 6 then 200000
  else if d = 7 then 50000
  else if (8 ≤ d ∧ d ≤ 12) ∨ d = 19 ∨ d = 102 then iclkKhz s
  else if 13 ≤ d ∧ d ≤ 16 then rxRateKhz s / 66
  else if d = 17 ∨ d = 18 then txRateKhz s / 66
  else if d = 20 then s.get Fd.GAL_PCLK_KHZ
  else if d = 21 then dpRate (s.get Fd.GAL_STATUS_RATE) / 20
  else if d = 22 then 2000
  else if (75 ≤ d ∧ d ≤ 78) ∨ d = 89 then 125000
  else if d = 80 ∨ (85 ≤ d ∧ d ≤ 88) then 1000000
  else if 90 ≤ d ∧ d ≤ 97 then 1328125
  else if d = 98 then 400000
  else if d = 103 then 97000
  else 1600000

/-- CLKOUT_DIV held to at least ceil(f_d / 400 MHz) (R550). -/
def clkoutClamp (s : State) : State :=
  let least := max 1 ((domainKhz s (s.get Fd.CLK_CLKOUT_SEL) + 399999) / 400000)
  if s.get Fd.CLK_CLKOUT_DIV < least then (s.set Fd.CLK_CLKOUT_DIV least).clamped else s

/-! ### Gating (R547 to R549) -/

/-- The gate of a domain that is asked for, if it is. -/
def State.gate (s : State) (d : Nat) : Option GateSt := (s.clk.gates.find? (fun g => g.1 == d)).map Prod.snd

/-- The gate of a domain replaced or removed. -/
def setGate (d : Nat) (g : Option GateSt) (s : State) : State :=
  let rest := drop s.clk.gates d
  rampShow { s with clk := { s.clk with gates := match g with
    | some x => keep rest d x
    | none => rest } }

/-- Whether a domain has stopped, or is on its way to stop after its acknowledgement (R549). -/
def domainGated (s : State) (d : Nat) : Bool := (s.gate d).any (fun g => g.ack && !g.up)

/-- A write of 1 to a GATE bit (R547). -/
def gateRequest (d : Nat) (s : State) : State :=
  if gateKind d = 0 ∨ (s.gate d).any (fun g => !g.up) then s
  else setGate d (some ⟨false, 0, false⟩) (s.setB (Fd.CLK_GATE (d / 32)) (d % 32))

/-- A domain's clock starts again (R548). -/
def ungate (d : Nat) (s : State) : State :=
  let s1 := s.clrB (Fd.CLK_GATE (d / 32)) (d % 32)
  match s.gate d with
  | none => s1
  | some g =>
    let s2 := s1.clrB (Fd.CLK_GSTAT (d / 32)) (d % 32)
    if g.ack && decide (gateKind d = 2) && decide (0 < g.exp) then setGate d (some { g with up := true }) s2
    else setGate d none s2

/-- GATE_REQUEST (R547). -/
def execGateRequest (d : Fin 104) (s : State) : Out := .next (gateRequest d.val s)

/-- UNGATE (R548). -/
def execUngate (d : Fin 104) (s : State) : Out := .next (ungate d.val s)

/-- IDLE_ACK (R547): the unit of a domain that is asked to gate is quiescent and acknowledges; an H domain stops, an HR
domain begins its ramp. -/
def execIdleAck (d : Fin 104) (s : State) : Out :=
  match s.gate d.val with
  | none => .next s
  | some g =>
    if g.ack || g.up || !unitIdle s (domainUnit d.val) then .next s
    else if gateKind d.val = 1 then
      .next (setGate d.val (some { g with ack := true }) (s.setB (Fd.CLK_GSTAT (d.val / 32)) (d.val % 32)))
    else .next (setGate d.val (some { g with ack := true, exp := 1 }) s)

/-- GATE_TIMEOUT (R547): no acknowledgement came within GATE_TMO. -/
def execGateTimeout (d : Fin 104) (s : State) : Out :=
  match s.gate d.val with
  | none => .next s
  | some g =>
    if g.ack || g.up then .next s
    else .next ((setGate d.val none (s.clrB (Fd.CLK_GATE (d.val / 32)) (d.val % 32))).raise 0x0108 [.w4 d.val])

/-- A tread of a domain's ramp ends (R547, R548). -/
def gateTread (d : Nat) (s : State) : State :=
  match s.gate d with
  | none => s
  | some g =>
    if !g.ack || g.exp = 0 then s
    else if g.up then (if g.exp = 1 then setGate d none s else setGate d (some { g with exp := g.exp - 1 }) s)
    else if g.exp < 6 then setGate d (some { g with exp := g.exp + 1 }) s
    else rampShow (s.setB (Fd.CLK_GSTAT (d / 32)) (d % 32))

/-- TREAD (R540, R547, R548): a tread of 8 µs ends, of the core PLL's move or of one domain's ramp. -/
def execTread (domain : Option (Fin 104)) (s : State) : Out :=
  match domain with
  | none => .next (rampShow (moveTread s))
  | some d => .next (gateTread d.val s)

/-- FREQ_MEASURE (R551): the selected domain's frequency has been measured against domain 1. -/
def execFreqMeasure (khz : Word) (s : State) : Out := .next (s.set Fd.CLK_FREQ_KHZ khz.toNat)

/-- CNT_CLEAR of CLK (R551). -/
def clkCntClear (s : State) : State := (s.set Fd.CLK_GATED_ACC 0).each (List.range 4) (fun p s => s.set (Fd.PLL_HOLDS p) 0)

end Sys2Proof.Machine
end

