-- ==== Sys2Proof/Machine/Target.lean ====
section
/-! DEFINITION. Accesses to device memory by a requester that does not own it (R23, R110, R269, R388, R404, R499, R501,
R564): what each region does with a write, what an undecoded address reads as, how poison travels, and the bytes each
memory port serves. -/

namespace Sys2Proof.Machine

/-- An access to an undecoded address (R501): port, or 15 where no port of R483 carries it. -/
def addrErr (port a : Nat) (s : State) : State :=
  (s.bump Fd.HBM_ADDR_ERR).raisePerSecond port 0x0F01 [.w4 port, .w8 a]

/-- Bytes served to a port count in PORTp.BYTES, in MiB. -/
def served (port n : Nat) (s : State) : State :=
  let b := look 0 s.hbm.served port + n
  let s1 := { s with hbm := { s.hbm with served := keep s.hbm.served port (b % 2 ^ 20) } }
  if b < 2 ^ 20 then s1 else s1.bump (Fd.HBMP_BYTES port) (b / 2 ^ 20)

/-- Whether an address lies in [lo, lo + n). -/
def within (lo n a : Nat) : Bool := decide (lo ≤ a) && decide (a < lo + n)

/-- The event of a write that its target discards: the replay region (R110), density snapshots (R269), Tally's queues
(R388), the memory of a core that is neither RESET nor HALTED (R404; `own` names a core that writes its own), the overlay
store (R564). -/
def targetDiscard (s : State) (own : Option Nat) (a : Nat) : Option Nat :=
  if within 0x17FE000000 0x2000000 a then some 0x0209
  else if within 0x010006000000 0x2000000 a then some 0x0805
  else if within 0x010004000000 0x800000 a then some 0x0C06
  else if within 0x010000000000 0x4000000 a then
    let n := (a - 0x010000000000) / 0x80000
    if own != some n && decide (2 ≤ s.get (Fd.COR_STATUS_STATE n)) then some 0x0D06 else none
  else if within 0x010008400000 0x40000 a then some 0x130B
  else none

/-- The codewords that n bytes from an address touch. -/
def codewords (a n : Nat) : List Nat :=
  (List.range ((a % 8 + n + 7) / 8)).map (fun i => floorTo 8 a + 8 * i)

/-- Bytes written with their poison (R499): poisoned data leaves poison at the destination. -/
def storePoisoned (a : Nat) (bs : List Byte) (poison : Bool) (s : State) : State :=
  let s1 := s.store a bs
  if !poison then s1
  else
    let ws := codewords a bs.length
    { s1 with hbm := { s1.hbm with poison := ws ++ s1.hbm.poison.filter (fun w => !ws.contains w) } }

/-- A write of one requester within a 64-byte line: the port of R483, the core that writes its own memory, the address. -/
def chunkWrite (port : Nat) (own : Option Nat) (a : Nat) (bs : List Byte) (poison : Bool) (s : State) : State :=
  match regionOf a with
  | .regs => addrErr port a s
  | .undecoded => addrErr port a s
  | _ =>
    match targetDiscard s own a with
    | some code => s.raise code [.w8 a]
    | none => storePoisoned a bs poison s

/-- Bytes cut at 64-byte lines, with their addresses. -/
def cutLines : Nat → Nat → List Byte → List (Nat × List Byte)
  | 0, _, _ => []
  | _ + 1, _, [] => []
  | fuel + 1, a, b :: bs =>
    let k := 64 - a % 64
    (a, (b :: bs).take k) :: cutLines fuel (a + k) ((b :: bs).drop k)

/-- A write of one requester, by 64-byte lines. -/
def targetWrite (port : Nat) (own : Option Nat) (a : Nat) (bs : List Byte) (poison : Bool) (s : State) : State :=
  let s1 := if regionOf a == .hbm && decide (port < 10) then served port bs.length s else s
  s1.each (cutLines bs.length a bs) (fun c s => chunkWrite port own c.1 c.2 poison s)

/-- A read of one requester within a 64-byte line: the bytes, whether they are poisoned, and the state. An address that is
not decoded, and a register here, reads as zeros (R23, R466). -/
def chunkRead (port a n : Nat) (s : State) : List Byte × Bool × State :=
  match regionOf a with
  | .regs => (zeros n, false, addrErr port a s)
  | .undecoded => (zeros n, false, addrErr port a s)
  | .hbm => (s.load a n, s.poisoned a n, if port < 10 then served port n s else s)
  | _ => (s.load a n, s.poisoned a n, s)

/-- A read of one requester, by 64-byte lines. -/
def targetRead (port a n : Nat) (s : State) : List Byte × Bool × State :=
  (cutLines n a (zeros n)).foldl (fun (r : List Byte × Bool × State) c =>
    let q := chunkRead port c.1 c.2.length r.2.2
    (r.1 ++ q.1, r.2.1 || q.2.1, q.2.2)) ([], false, s)

end Sys2Proof.Machine
end

