-- ==== Sys2Proof/Machine/Hbm.lean ====
section
/-! DEFINITION. The HBM memory system (R478 to R502): the address hash, requests with what the symbol code finds, floors
and ceilings, refresh, retraining, hot pseudo-channels, self-refresh and scrubbing. Grants among ports follow regulators
that only time decides; what they decide is the order in which requests come. -/

namespace Sys2Proof.Machine

/-! ### Address hashing (R479) -/

/-- Where an HBM address lies (R479). -/
structure HbmPlace where
  stack : Nat
  pc : Nat
  sid : Nat
  bg : Nat
  bank : Nat
  row : Nat
  col : Nat
deriving DecidableEq, Repr

/-- The placement of an HBM device address under a hash mask (R479). -/
def hbmPlace (seed a : Nat) : HbmPlace :=
  let g := a / 256
  let u := g / 128
  let m := Nat.land u seed
  let f := Nat.xor (Nat.xor (bits m 0 7) (bits m 7 7)) (Nat.xor (bits m 14 7) (bits m 21 1))
  let sel := Nat.xor (bits g 0 7) f
  let row := bits u 6 14
  { stack := bits sel 5 2
    pc := bits sel 0 5
    sid := u / 2 ^ 20
    bg := Nat.xor (bits u 2 2) (bits row 0 2)
    bank := Nat.xor (bits u 4 2) (bits row 2 2)
    row := row
    col := bits u 0 2 }

/-- The placement under the hash mask in use. -/
def State.place (s : State) (a : Nat) : HbmPlace := hbmPlace (s.get Fd.HBM_SEED) a

/-! ### Requests (R482, R497 to R501) -/

/-- A corrected error of a codeword (R498). -/
def memCorrected (a : Nat) (s : State) : State :=
  let p := s.place a
  (s.bump (Fd.HBM_CE_COUNT p.stack)).raisePerSecond p.stack 0x0F02 [.w4 p.stack, .w4 p.pc, .w8 a]

/-- An uncorrectable error (R499): the codewords of the access hold poison until they are overwritten in full. -/
def memUncorrectable (port a n : Nat) (s : State) : State :=
  let p := s.place a
  let words := (List.range ((n + 7) / 8)).map (fun i => floorTo 8 a + 8 * i)
  let s1 := { s with hbm := { s.hbm with poison := words ++ s.hbm.poison.filter (fun w => !words.contains w) } }
  let s2 := (s1.bump (Fd.HBM_UE_COUNT p.stack)).wr64 0x100050 a
  let s3 := ((s2.set Fd.HBM_UE_INFO_PORT port).set Fd.HBM_UE_INFO_PC p.pc).set Fd.HBM_UE_INFO_STACK p.stack
  s3.raise 0x0F03 [.w4 port, .w8 a]

/-- A request that the memory system serves (R482, R497 to R501): what the symbol code finds, then the bytes written,
which the rules of their region may discard. On-die SRAM has no symbol code, and any other address is undecoded here.
Entering a pseudo-channel queue is an opportunity of R589. -/
def memServe (r : MemReq) (s : State) : State :=
  let port := if r.port < 10 then r.port else 15
  let put (s : State) : State :=
    match r.write with
    | some bs => chunkWrite port none r.addr (bs.take (64 - r.addr % 64)) false s
    | none => s
  match regionOf r.addr with
  | .hbm =>
    let a := floorTo 64 r.addr
    let s0 := ptbOpportunity 1 s
    let s1 := if r.found = 1 then memCorrected a s0 else if r.found = 2 then memUncorrectable port a 64 s0 else s0
    put (if r.port < 10 then served r.port 64 s1 else s1)
  | .sram => put s
  | _ => addrErr port r.addr s

/-- MEMORY_REQUEST (R482, R496): a request of a port (10 the patrol of R500) reaches its controller; in self-refresh it
waits and starts the exit. `found`: 0 no error, 1 corrected, 2 uncorrectable. -/
def execMemoryRequest (port : Fin 11) (addr : BitVec 48) (write : Option (List Byte)) (found : Fin 3) (s : State) : Out :=
  let r : MemReq := ⟨port.val, addr.toNat, write, found.val⟩
  if s.get Fd.HBM_STATUS_SR = 0 then .next (memServe r s)
  else
    .next (({ s with hbm := { s.hbm with waiting := s.hbm.waiting ++ [r] } }).set Fd.HBM_STATUS_SR 3)

/-! ### Floors and ceilings (R485) -/

/-- FLOOR_SUM follows the floors. -/
def floorSum (s : State) : State := s.set Fd.HBM_FLOOR_SUM (sumL ((List.range 10).map (fun p => s.get (Fd.HBMP_FLOOR p))))

/-- A write of FLOOR or CEIL has taken effect for port p (R485): the floor is held to its range and to what the other
floors leave, and the ceiling to at least the floor. -/
def portClamp (p : Nat) (s : State) : State :=
  let others := sumL (((List.range 10).filter (· != p)).map (fun q => s.get (Fd.HBMP_FLOOR q)))
  let want := s.get (Fd.HBMP_FLOOR p)
  let got := min (max want (Config.portFloorMin p)) (24576 - others)
  let s1 := if got = want then s else ((s.set (Fd.HBMP_FLOOR p) got).clamped).raise 0x0F0A [.w4 p, .w4 got]
  let ceil := s1.get (Fd.HBMP_CEIL p)
  let c := min (max ceil got) 48000
  floorSum (if c = ceil then s1 else (s1.set (Fd.HBMP_CEIL p) c).clamped)

/-! ### Hot pseudo-channels (R488) -/

/-- The index of the largest of a list, the lowest where several are. -/
def argMax (l : List Nat) : Nat := (l.zipIdx.foldl (fun (b : Nat × Nat) x => if b.1 < x.1 then x else b) (l.headD 0, 0)).2

/-- HOT_WINDOW (R488): one millisecond's accesses of the 128 pseudo-channels and of the ten ports. -/
def execHotWindow (counts ports : List Nat) (s : State) : Out :=
  let c := (counts ++ List.replicate 128 0).take 128
  let top := maxL c
  let total := sumL c
  if 4 * total < 128 * top then
    let n := s.hbm.hot + 1
    let s1 := { s with hbm := { s.hbm with hot := n } }
    if n < 1000 ∨ s.hbm.hotDone then .next s1
    else
      let pc := argMax c
      let ratio := min 65535 (16 * 128 * top / total)
      let port := argMax (ports.take 10)
      let s2 := ((s1.set Fd.HBM_HOT_PC pc).set Fd.HBM_HOT_RATIO ratio).set Fd.HBM_HOT_PORT port
      let s3 := { s2 with hbm := { s2.hbm with hotDone := true } }
      .next (s3.raiseIf (s.on Fd.HBM_CTRL_HOT_EN) 0x0F04 [.w4 pc, .w4 ratio, .w4 port])
  else .next { s with hbm := { s.hbm with hot := 0, hotDone := false } }

/-! ### Refresh (R489 to R491) -/

/-- Postponed refreshes of a pseudo-channel. -/
def State.owed (s : State) (j : Nat) : Nat := look 0 s.hbm.owed j

/-- Postponed refreshes of a pseudo-channel set. -/
def setOwed (j n : Nat) (s : State) : State := { s with hbm := { s.hbm with owed := keep s.hbm.owed j n } }

/-- REFRESH (R489): a refresh falls due; while requests are queued it is postponed, up to eight, and an empty queue pays
what is owed. -/
def execRefresh (j : Fin 128) (queued : Bool) (s : State) : Out :=
  if !queued then .next (setOwed j.val 0 s)
  else if s.owed j.val < 8 then .next (setOwed j.val (s.owed j.val + 1) s)
  else .next s

/-- STACK_TEMP_READ (R489 to R491): a stack's temperature in 0.1 °C. Entering the doubled range pays twice what each
pseudo-channel owes. -/
def execStackTempRead (stack : Fin 4) (temp : BitVec 16) (s : State) : Out :=
  let k := stack.val
  let t := sext 16 temp.toNat
  let s1 := (s.set (Fd.HBM_TEMP k) temp.toNat).putB Fd.HBM_STATUS_TLIMIT k (decide (950 ≤ t))
  let pcs := (List.range 32).map (fun j => 32 * k + j)
  if !s.onBit Fd.HBM_STATUS_DBLREF k && decide (850 ≤ t) then
    let most := maxL (pcs.map (fun j => 2 * s.owed j))
    .next (((s1.setB Fd.HBM_STATUS_DBLREF k).each pcs (fun j s => setOwed j 0 s)).raise 0x0F05 [.w4 k, .w4 most])
  else if s.onBit Fd.HBM_STATUS_DBLREF k && decide (t < 820) then
    .next ((s1.clrB Fd.HBM_STATUS_DBLREF k).raise 0x0F06 [.w4 k])
  else .next s1

/-! ### Retraining (R493, R575) -/

/-- A re-plan's trims become pending; the next retraining pass applies them (R575). -/
def hbmTrims (s : State) : State := { s with hbm := { s.hbm with pending := List.range 128 } }

/-- RETRAINING_PASS (R493): every pseudo-channel is retrained; `below` are those whose trained margin lies below the
minimum. No pass runs in self-refresh. -/
def execRetrainingPass (below : List (Fin 128)) (s : State) : Out :=
  if !s.on Fd.HBM_RETRAIN_EN || s.get Fd.HBM_STATUS_SR != 0 then .next s
  else
    let s1 := { s with hbm := { s.hbm with pending := [], passDue := false } }
    .next (s1.each below (fun j s => s.raise 0x0F07 [.w4 j.val]))

/-! ### Self-refresh (R495, R496) -/

/-- A write of SR.REQ (R495): 1 is refused while stream time runs. -/
def srRequest (req : Bool) (s : State) : State :=
  if req && s.run then s.raise 0x0F0B else s.set Fd.HBM_SR_REQ (b2n req)

/-- Standby's request for self-refresh (R569). -/
def srReq (s : State) : State := srRequest true s

/-- SR_REQ (R495): SR.REQ is written. -/
def execSrReq (req : Bool) (s : State) : Out := .next (srRequest req s)

/-- SELF_REFRESH_ENTRY (R495): no request has arrived for SR.IDLE; the postponed refreshes are paid and the stacks enter
self-refresh. -/
def execSelfRefreshEntry (s : State) : Out :=
  if s.on Fd.HBM_SR_REQ && !s.run && s.get Fd.HBM_STATUS_SR == 0 then
    let s1 := { s with hbm := { s.hbm with owed := [] } }
    .next ((s1.set Fd.HBM_STATUS_SR 2).raise 0x0F08)
  else .next s

/-- SELF_REFRESH_EXIT (R496): the exit ends `ns` after its request, having lasted `ms` milliseconds in self-refresh; the
requests that waited are served. -/
def execSelfRefreshExit (ns : BitVec 16) (ms : Nat) (s : State) : Out :=
  if s.get Fd.HBM_STATUS_SR = 0 then .next s
  else
    let s1 := ((s.set Fd.HBM_STATUS_SR 0).set Fd.HBM_SR_LAT ns.toNat).raise 0x0F09 [.w4 ns.toNat]
    let s2 := { s1 with hbm := { s1.hbm with
      waiting := []
      passDue := s1.hbm.passDue || decide (s.get Fd.HBM_RETRAIN_MS < ms) } }
    .next (s2.each s.hbm.waiting memServe)

/-! ### Scrubbing and counters (R500, R502) -/

/-- SCRUB_PASS (R500): the patrol has read every codeword. -/
def execScrubPass (s : State) : Out :=
  if s.get Fd.HBM_SCRUB_HOURS = 0 ∨ s.get Fd.HBM_STATUS_SR ≠ 0 then .next s
  else
    let n := s.hbm.scrub + 1
    .next (({ s with hbm := { s.hbm with scrub := n } }).raise 0x0F0C [.w4 n])

/-- CNT_CLEAR of HBM. -/
def hbmCntClear (s : State) : State :=
  let s1 := s.each (List.range 4) (fun k s => (s.set (Fd.HBM_CE_COUNT k) 0).set (Fd.HBM_UE_COUNT k) 0)
  let s2 := s1.each (List.range 10) (fun p s => s.set (Fd.HBMP_BYTES p) 0)
  ({ s2 with hbm := { s2.hbm with served := [] } }).set Fd.HBM_ADDR_ERR 0

end Sys2Proof.Machine
end

