-- ==== Sys2Proof/Machine/Byora.lean ====
section
/-! DEFINITION. The Byora fabric (R505 to R530): ports, HELLOs and link state, the root and its node IDs, routing and the
tree, priority messages and their copies, exports and receive rings. What the links measure and carry comes with the
commands; the cells that the module gives to its links stand in `byo.sent`. Remote commands stand in
`Machine/HostRings.lean`. -/

namespace Sys2Proof.Machine

/-! ### The module on the fabric -/

/-- The module's serial (R508, R554). -/
def ownSerial : Nat := Config.factorySerial

/-- The module's node ID, if it has one. -/
def ownId (s : State) : Option Nat :=
  if s.on Fd.BYO_STATUS_ID_VALID then some (s.get Fd.BYO_STATUS_NODE_ID) else none

/-- Byora beyond its registers replaced. -/
def setByo (b : ByoSt) (s : State) : State := { s with byo := b }

/-- The C and B cells of 64 payload bytes that a message takes at its port (R505, R514); P cells are not perturbed. -/
def ByoCell.cells : ByoCell → Nat
  | .p _ _ => 0
  | .command _ _ c => (c.length + 63) / 64
  | .element _ _ bytes _ => (bytes.length + 63) / 64
  | _ => 1

/-- A cell is given to the links; each C or B cell is an opportunity of R589. -/
def sendCell (c : ByoCell) (s : State) : State :=
  setByo { s.byo with sent := s.byo.sent ++ [c] } (s.each (List.range c.cells) (fun _ s => ptbOpportunity 2 s))

/-- STATE of a port (R506): 0 DOWN, 1 TRAIN, 2 CAL, 3 UP, 4 FAILED. -/
def portState (s : State) (p : Nat) : Nat := s.get (Fd.BPORT_STATUS_STATE p)

/-- Whether a port is enabled. -/
def portEnabled (s : State) (p : Nat) : Bool := s.on Fd.BYO_CTRL_EN && s.onBit Fd.BYO_CTRL_PORT_EN p

/-- The UP ports. -/
def upPorts (s : State) : List Nat := (List.range 8).filter (fun p => portState s p == 3)

/-- The neighbour of a port: its serial, the lowest serial it knows, and its distance from that module. -/
def nbrOf (s : State) (p : Nat) : Option (Nat × Nat × Nat) :=
  (s.byo.nbrs.find? (fun e => e.1 == p)).map Prod.snd

/-! ### The link-state database (R508) -/

/-- The record of a serial. -/
def recOf (db : List LinkRec) (serial : Nat) : Option LinkRec := db.find? (fun r => r.serial == serial)

/-- A record put into a database in place of the one it replaces. -/
def putRec (db : List LinkRec) (r : LinkRec) : List LinkRec := r :: db.filter (fun x => x.serial != r.serial)

/-- A record is sent on every UP port but one. -/
def flood (except : Option Nat) (r : LinkRec) (s : State) : State :=
  s.each ((upPorts s).filter (fun p => some p != except)) (fun p s => sendCell (.linkState p r) s)

/-- The module's own record follows its ports and its ID, and is flooded with the next version (R508). -/
def linkUpdate (s : State) : State :=
  let links := (upPorts s).filterMap (fun p => (nbrOf s p).map (fun n => (p, n.1, s.get (Fd.BPORT_STATUS_NBR_PORT p))))
  let ver := ((recOf s.byo.db ownSerial).map LinkRec.ver).getD 0 + 1
  let r : LinkRec := ⟨ownSerial, ownId s, ver, links⟩
  let s1 := setByo { s.byo with db := putRec s.byo.db r, dirty := true, unserved := true } s
  flood none r s1

/-- The serials one link away from a module. -/
def linked (db : List LinkRec) (serial : Nat) : List Nat :=
  ((recOf db serial).map (fun r => r.links.map (fun l => l.2.1))).getD []

/-- Distances by breadth-first search: `n` rounds from a frontier at distance `d`. -/
def bfs (next : Nat → List Nat) : Nat → Nat → List Nat → List (Nat × Nat) → List (Nat × Nat)
  | 0, _, _, seen => seen
  | n + 1, d, frontier, seen =>
    let fresh := ((frontier.flatMap next).eraseDups).filter (fun x => !seen.any (fun e => e.1 == x))
    if fresh.isEmpty then seen else bfs next n (d + 1) fresh (seen ++ fresh.map (fun x => (x, d + 1)))

/-- Distances in hops from a module to every module it reaches. -/
def hopsFrom (db : List LinkRec) (serial : Nat) : List (Nat × Nat) :=
  bfs (linked db) (db.length + 1) 0 [serial] [(serial, 0)]

/-- A distance of such a list. -/
def hopsTo (l : List (Nat × Nat)) (serial : Nat) : Option Nat := (l.find? (fun e => e.1 == serial)).map Prod.snd

/-! ### The root (R509, R510) -/

/-- The lowest serial that the module knows of (R508, R509) with its distance. -/
def lowestKnown (s : State) : Nat × Nat :=
  (upPorts s).foldl (fun (best : Nat × Nat) p => match nbrOf s p with
    | some (_, low, d) => if low < best.1 then (low, d + 1) else if low = best.1 then (low, min best.2 (d + 1)) else best
    | none => best) (ownSerial, 0)

/-- The node ID of a serial as the database has it. -/
def idOf (s : State) (serial : Nat) : Option Nat :=
  if serial = ownSerial then ownId s else (recOf s.byo.db serial).bind LinkRec.id

/-- The root follows what the HELLOs tell; a change of a known root raises event 0x1003 (R509, R510). -/
def rootUpdate (s : State) : State :=
  let r := (lowestKnown s).1
  let id := (idOf s r).getD 0
  let s1 := (s.set Fd.BYO_STATUS_ROOT (b2n (r == ownSerial))).set Fd.BYO_ROOT_ID id
  let s2 := setByo { s1.byo with root := some r } s1
  match s.byo.root with
  | none => s2
  | some q => if q = r then s2 else (setByo { s2.byo with unserved := true } s2).raise 0x1003 [.w4 id]

/-! ### Ports (R506, R507, R526) -/

/-- A port leaves UP: its neighbour is forgotten and the module floods its record. -/
def portLeave (p : Nat) (s : State) : State :=
  let s1 := ((s.clrB Fd.BYO_STATUS_PORT_UP p).set (Fd.BPORT_STATUS_NBR_VALID p) 0)
  rootUpdate (linkUpdate (setByo { s1.byo with nbrs := drop s1.byo.nbrs p } s1))

/-- A port takes a state with a reason. -/
def portTo (p st reason : Nat) (s : State) : State :=
  let was := portState s p
  let s1 := (s.set (Fd.BPORT_STATUS_STATE p) st).set (Fd.BPORT_STATUS_REASON p) reason
  if was = 3 then portLeave p s1 else s1

/-- A port fails with a reason (R506, R526). -/
def portFail (p reason : Nat) (s : State) : State := (portTo p 4 reason s).raise 0x1002 [.w4 p, .w4 reason]

/-- CTRL has changed: a port that is no longer enabled goes DOWN with reason 7, an enabled one leaves DOWN for TRAIN
(R506, R526). -/
def portsFollow (s : State) : State :=
  s.each (List.range 8) (fun p s =>
    if !portEnabled s p then
      if portState s p = 0 then s
      else if portState s p = 3 then (portTo p 0 7 s).raise 0x1002 [.w4 p, .w4 7] else portTo p 0 7 s
    else if portState s p = 0 then portTo p 1 0 s else s)

/-- Whether a port trains: an enabled port leaves DOWN for TRAIN at once. -/
def training (s : State) (p : Nat) : Bool := portEnabled s p && decide (portState s p ≤ 1)

/-- PORT_TRAINED (R506): all four lanes lock; inverted lanes are noted. -/
def execPortTrained (port : Fin 8) (inverted : BitVec 4) (s : State) : Out :=
  let p := port.val
  if training s p then .next ((portTo p 2 0 s).set (Fd.BPORT_STATUS_POL_INV p) inverted.toNat) else .next s

/-- LANE_LOCK_TIMEOUT (R506): a lane has not locked within 20 ms. -/
def execLaneLockTimeout (port : Fin 8) (s : State) : Out :=
  if training s port.val then .next (portFail port.val 1 s) else .next s

/-- PORT_CALIBRATED (R507): the round trip in ps has been measured; the pad makes the hop 40.0 ns, or leaves none. -/
def execPortCalibrated (port : Fin 8) (roundTrip : Nat) (s : State) : Out :=
  let p := port.val
  let meas := roundTrip / 2
  if portState s p != 2 then .next s
  else if 40000 ≤ meas then .next (portFail p 3 (s.set (Fd.BPORT_DELAY_MEAS p) (min meas 65535)))
  else
    let s1 := (s.set (Fd.BPORT_DELAY_MEAS p) meas).set (Fd.BPORT_DELAY_PAD p) (40000 - meas)
    let s2 := (portTo p 3 0 s1).setB Fd.BYO_STATUS_PORT_UP p
    .next (linkUpdate (s2.raise 0x1001 [.w4 p, .w4 0xFFFF, .w4 (40000 - meas)]))

/-- PORT_FAILED (R526): a cause of R526 fails a port. -/
def execPortFailed (port : Fin 8) (reason : Fin 8) (s : State) : Out :=
  let st := portState s port.val
  if 1 ≤ st ∧ st ≤ 3 then .next (portFail port.val reason.val s) else .next s

/-- PORT_FAILED_RETRY (R506): 10 ms after failing a port trains again. -/
def execPortFailedRetry (port : Fin 8) (s : State) : Out :=
  if portState s port.val = 4 && portEnabled s port.val then .next (portTo port.val 1 (s.get (Fd.BPORT_STATUS_REASON port.val)) s)
  else .next s

/-- A write of RETRAIN (R506). -/
def portRetrain (p : Nat) (s : State) : State :=
  if portEnabled s p then portTo p 1 (s.get (Fd.BPORT_STATUS_REASON p)) s else s

/-- PORT_RETRAIN (R506). -/
def execPortRetrain (port : Fin 8) (s : State) : Out := .next (portRetrain port.val s)

/-! ### HELLOs and records (R508) -/

/-- HELLO_SEND (R508): an UP port sends its HELLO. -/
def execHelloSend (port : Fin 8) (s : State) : Out :=
  if portState s port.val != 3 then .next s
  else
    let k := lowestKnown s
    .next (sendCell (.hello port.val ownSerial (ownId s) k.1 k.2) s)

/-- HELLO_RECEIVE (R508, R526): a neighbour's serial, ID, port, and the lowest serial it knows with its distance. A
changed serial fails the port with reason 6. -/
def execHelloReceive (port : Fin 8) (serial : Nat) (id : Option (Fin 4096)) (nbrPort : Fin 8) (low dist : Nat) (s : State) :
    Out :=
  let p := port.val
  if portState s p != 3 then .next s
  else
    let known := (nbrOf s p).map Prod.fst
    if known.any (fun x => x != serial) then .next (portFail p 6 s)
    else
      let s1 := setByo { s.byo with nbrs := keep s.byo.nbrs p (serial, low, dist) } s
      let s2 := ((s1.set (Fd.BPORT_STATUS_NBR_VALID p) (b2n id.isSome)).set (Fd.BPORT_STATUS_NBR_ID p)
        ((id.map Fin.val).getD 0)).set (Fd.BPORT_STATUS_NBR_PORT p) nbrPort.val
      .next (rootUpdate (if known.isNone then linkUpdate s2 else s2))

/-- LINK_STATE_RECORD (R508): a record is stored if it is newer than the one held, and flooded on. -/
def execLinkStateRecord (port : Fin 8) (serial : Nat) (id : Option (Fin 4096)) (ver : Nat)
    (links : List (Fin 8 × Nat × Fin 8)) (s : State) : Out :=
  let p := port.val
  let r : LinkRec := ⟨serial, id.map Fin.val, ver, links.map (fun l => (l.1.val, l.2.1, l.2.2.val))⟩
  if portState s p != 3 || serial == ownSerial || (recOf s.byo.db serial).any (fun x => decide (ver ≤ x.ver)) then .next s
  else
    let s1 := setByo { s.byo with db := putRec s.byo.db r, dirty := true, unserved := true } s
    .next (flood (some p) r s1)

/-! ### Node IDs (R509, R510) -/

/-- The module takes a node ID (R509, R510). -/
def takeId (id : Nat) (s : State) : State :=
  let old := ownId s
  if old = some id then s
  else
    let s1 := (s.set Fd.BYO_STATUS_NODE_ID id).set Fd.BYO_STATUS_ID_VALID 1
    linkUpdate (s1.raise 0x1004 [.w4 id, .w4 (old.getD 0xFFFF)])

/-- Whether a module's ID is held by a reachable module of lower serial: it then gets a new one (R510). -/
def idTaken (held : List (Nat × Nat)) (serial id : Nat) : Bool := held.any (fun h => h.2 == id && decide (h.1 < serial))

/-- The lowest ID that is not in use. -/
def lowestFree (used : List Nat) : Option Nat := (List.range 4096).find? (fun i => !used.contains i)

/-- One module without an ID is served (R509, R510): its requested ID if free, else the lowest free one; beyond 255 hops
or 4,096 modules none. -/
def serveOne (reqs : List (Nat × Nat)) (m : Nat × Nat) (acc : State × List Nat) : State × List Nat :=
  let s := acc.1
  let used := acc.2
  let want := (reqs.find? (fun q => q.1 == m.1)).map Prod.snd
  let pick := match want with
    | some i => if used.contains i then lowestFree used else some i
    | none => lowestFree used
  match (if 255 < m.2 then none else pick) with
  | none => (s.raise 0x100F [.w8 m.1], used)
  | some i =>
    if m.1 = ownSerial then (takeId i s, i :: used)
    else
      let r := (recOf s.byo.db m.1).getD ⟨m.1, none, 0, []⟩
      let s1 := setByo { s.byo with db := putRec s.byo.db { r with id := some i } } s
      (sendCell (.assign m.1 i) s1, i :: used)

/-- The root serves the modules without an ID, in ascending order of distance and serial (R509). -/
def serveIds (reqs : List (Nat × Nat)) (s : State) : State :=
  let s0 := if (ownId s).isNone then takeId 0 s else s
  let reach := hopsFrom s0.byo.db ownSerial
  let held := reach.filterMap (fun m => (idOf s0 m.1).map (fun i => (m.1, i)))
  let without := reach.filter (fun m => match idOf s0 m.1 with
    | none => true
    | some i => idTaken held m.1 i)
  let used := held.map Prod.snd ++ s0.byo.reserved
  let order := (List.range (maxL (reach.map Prod.snd) + 1)).flatMap (fun d =>
    let here := (without.filter (fun m => m.2 == d))
    here.foldr (fun m l => (l.takeWhile (fun x => decide (x.1 < m.1))) ++ m :: l.dropWhile (fun x => decide (x.1 < m.1))) [])
  let r := order.foldl (fun acc m => serveOne reqs m acc) (s0, used)
  setByo { r.1.byo with unserved := false } r.1

/-- ID_ASSIGNMENT (R509): the root serves the modules without an ID, knowing the requests `reqs` of their ID_REQ by serial;
any other module receives the ID that the root sends it. -/
def execIdAssignment (received : Option (Fin 4096)) (reqs : List (Nat × Fin 4096)) (s : State) : Out :=
  if !s.on Fd.BYO_CTRL_EN then .next s
  else
    let s1 := rootUpdate s
    let own := if s1.on Fd.BYO_ID_REQ_VALID then [(ownSerial, s1.get Fd.BYO_ID_REQ_ID)] else []
    if s1.isRoot then .next (serveIds (own ++ reqs.map (fun q => (q.1, q.2.val))) s1)
    else match received with
      | some i => .next (takeId i.val s1)
      | none => .next s1

/-- ID_RELEASE (R510): a departed module's ID becomes free. -/
def execIdRelease (id : Fin 4096) (s : State) : Out :=
  .next (setByo { s.byo with reserved := s.byo.reserved.filter (· != id.val) } s)

/-! ### Routing and the tree (R511, R513) -/

/-- The parent of a module on the tree: port, neighbour and its port; the lowest port on a shortest path to the tree's
centre (R513). -/
def parentOf (db : List LinkRec) (toRoot : List (Nat × Nat)) (serial : Nat) : Option (Nat × Nat × Nat) :=
  match hopsTo toRoot serial, recOf db serial with
  | some d, some r =>
    (List.range 8).findSome? (fun p => (r.links.find? (fun l => l.1 == p && (hopsTo toRoot l.2.1).any (fun e => e + 1 == d))))
  | _, _ => none

/-- The centre of the tree: node 0, or the root while no ID 0 exists (R513). -/
def treeCentre (s : State) : Nat :=
  let reach := hopsFrom s.byo.db ownSerial
  ((reach.find? (fun m => idOf s m.1 == some 0)).map Prod.fst).getD (s.byo.root.getD ownSerial)

/-- The tree ports of the module (R513). -/
def treePorts (s : State) : List Nat :=
  let db := s.byo.db
  let toRoot := hopsFrom db (treeCentre s)
  let mine := ((parentOf db toRoot ownSerial).map Prod.fst).toList
  (upPorts s).filter (fun p => mine.contains p || (match nbrOf s p with
    | some n => (parentOf db toRoot n.1).any (fun l => l.2.1 == ownSerial && l.2.2 == p)
    | none => false))

/-- The longest path in hops between two modules along the tree (R513). -/
def treeDiam (s : State) : Nat :=
  let db := s.byo.db
  let toRoot := hopsFrom db (treeCentre s)
  let nodes := toRoot.map Prod.fst
  let edges := nodes.filterMap (fun m => (parentOf db toRoot m).map (fun l => (m, l.2.1)))
  let near (m : Nat) : List Nat := (edges.filter (fun e => e.1 == m)).map Prod.snd ++
    (edges.filter (fun e => e.2 == m)).map Prod.fst
  maxL (nodes.map (fun m => maxL ((bfs near nodes.length 0 [m] [(m, 0)]).map Prod.snd)))

/-- The entry for a destination: its distance and the UP ports on a shortest path (R511). -/
def routeTo (s : State) (serial : Nat) : Option (Nat × Nat) :=
  let from' := hopsFrom s.byo.db serial
  (hopsTo from' ownSerial).map (fun d =>
    let ports := (upPorts s).filter (fun p => (nbrOf s p).any (fun n => (hopsTo from' n.1).any (fun e => e + 1 == d)))
    (d, sumL (ports.map (2 ^ ·))))

/-- The table of the present database, by node ID. -/
def routesNow (s : State) : List (Nat × Nat × Nat) :=
  (hopsFrom s.byo.db ownSerial).filterMap (fun m =>
    match idOf s m.1, routeTo s m.1 with
    | some i, some r => some (i, r.1, r.2)
    | _, _ => none)

/-- The word of ROUTE_DATA for a destination (R511). -/
def routeWord (s : State) (id : Nat) : Nat :=
  match s.byo.routes.find? (fun r => r.1 == id) with
  | some (_, h, m) => 2 ^ 31 + min h 255 * 65536 + m % 256
  | none => 0

/-- Modules that the last table reached and this one does not: each is reported with what it sent last, and its ID stays
reserved for a second (R510, R518). -/
def departed (ids : List Nat) (s : State) : State :=
  s.each ids (fun id s =>
    let last := (s.byo.copies ++ s.byo.taken).filter (fun r => r.origin == id)
    let lines := (List.range 16).filterMap (fun f => last.find? (fun r => r.line == f))
    (setByo { s.byo with reserved := id :: s.byo.reserved } s).each lines (fun r s => s.raise 0x1006 [.w4 id, .w4 r.line, .t r.t]))

/-- ROUTING_INSTALL (R511): the table of the present database replaces the old one whole. -/
def execRoutingInstall (s : State) : Out :=
  if !s.byo.dirty then .next s
  else
    let new := routesNow s
    let gone := (s.byo.routes.map Prod.fst).filter (fun i => !new.any (fun r => r.1 == i))
    let diam := treeDiam s
    let depth := (hopsTo (hopsFrom s.byo.db (treeCentre s)) ownSerial).getD 0
    let s1 := setByo { s.byo with routes := new, dirty := false } s
    let s2 := ((s1.set Fd.BYO_TREE_PORTS (sumL ((treePorts s).map (2 ^ ·)))).set Fd.BYO_TREE_DIAM (min diam 255)).set
      Fd.BYO_NODES (max 1 new.length)
    let s3 := rootUpdate (s2.set Fd.BYO_ROOT_DEPTH (min depth 255))
    .next (departed gone (s3.raise 0x1005 [.w4 (max 1 new.length), .w4 diam]))

/-- ROUTE_DATA shows the entry at ROUTE_ADDR. -/
def routeShow (s : State) : State := s.set Fd.BYO_ROUTE_DATA (routeWord s (s.get Fd.BYO_ROUTE_ADDR))

/-- A read of ROUTE_DATA (R511): the entry, and ROUTE_ADDR moves on. -/
def routeRead (s : State) : State :=
  let s1 := routeShow s
  s1.set Fd.BYO_ROUTE_ADDR ((s.get Fd.BYO_ROUTE_ADDR + 1) % 4096)

/-- ROUTE_DATA (R511). -/
def execRouteData (s : State) : Out :=
  let s1 := routeRead s
  .next { s1 with hif := { s1.hif with readData := le 4 (s1.get Fd.BYO_ROUTE_DATA), readPoison := false } }

/-! ### Priority messages (R515 to R519) -/

/-- A message goes out on every tree port but one, as P cells and as C copies. -/
def broadcast (except : Option Nat) (pCell copy : Bool) (m : PMsg) (s : State) : State :=
  s.each ((treePorts s).filter (fun p => some p != except)) (fun p s =>
    let s1 := if pCell then sendCell (.p p m) s else s
    if copy then sendCell (.copy p m) s1 else s1)

/-- A trigger of a unit with FABOUT = line is broadcast and reaches the module's own line (R212, R517). -/
def fabSend (line : Nat) (t : Tick) (fl : Nat) (s : State) : State :=
  let s1 := match ownId s with
    | none => s
    | some id =>
      let n := look 0 s.byo.lseq line
      let m : PMsg := ⟨false, 0, id, line, fl % 128, t, n⟩
      setByo { s.byo with lseq := keep s.byo.lseq line ((n + 1) % 2 ^ 32) } s |> broadcast none true true m
  fabPlace line t fl s1

/-- EPOCH_MESSAGE_SEND (R33): the root sends the message of its broadcast. -/
def execEpochMessageSend (s : State) : Out :=
  if !s.sys.msgDue then .next s
  else
    let m : PMsg := ⟨true, 0, (ownId s).getD 0, 0, 0, s.rdT 0x108, 0⟩
    .next (broadcast none true true m { s with sys := { s.sys with msgDue := false } })

/-- Whether two received messages are the same one. -/
def LineRx.same (r : LineRx) (m : PMsg) : Bool := r.origin == m.origin && r.line == m.line && r.lseq == m.lseq

/-- Whether a C copy of this or a later message of its origin and line has arrived (R516, R518). -/
def copySeen (s : State) (m : PMsg) : Bool :=
  s.byo.copies.any (fun r => r.origin == m.origin && r.line == m.line && decide ((r.lseq + 2 ^ 32 - m.lseq) % 2 ^ 32 < 2 ^ 31))

/-- P_MESSAGE (R516, R517, R519): a priority cell arrives; `good` says that its check passes, `elapsed` counts the SYSREF
periods of R34. A message goes on along the tree and is delivered unless its copy came first. -/
def execPMessage (port : Fin 8) (good epoch : Bool) (hops : Nat) (origin : Fin 4096) (line : Fin 16) (flags : BitVec 7)
    (t : Tick) (lseq : Word) (elapsed : Nat) (s : State) : Out :=
  let p := port.val
  if portState s p != 3 then .next s
  else if !good then .next ((s.bump Fd.BYO_PLOST).raisePerSecond p 0x1007 [.w4 p])
  else
    let m : PMsg := ⟨epoch, (hops + 1) % 256, origin.val, line.val, flags.toNat, t, lseq.toNat⟩
    let s1 := broadcast (some p) true false m s
    if epoch then
      .next (fabricEpoch t elapsed (setByo { s1.byo with epochs := t :: s1.byo.epochs } s1))
    else if copySeen s m || s.byo.taken.any (fun r => r.same m) then .next s1
    else
      let rx : LineRx := ⟨m.origin, m.line, m.lseq, t⟩
      .next (fabPlace m.line t m.fl (setByo { s1.byo with taken := rx :: s1.byo.taken } s1))

/-- C_COPY (R516, R518, R519): a copy arrives in the order of its LSEQ; a gap is reported and marks the message FAB. -/
def execCCopy (port : Fin 8) (epoch : Bool) (origin : Fin 4096) (line : Fin 16) (flags : BitVec 7) (t : Tick) (lseq : Word)
    (s : State) : Out :=
  let p := port.val
  if portState s p != 3 then .next s
  else
    let m : PMsg := ⟨epoch, 0, origin.val, line.val, flags.toNat, t, lseq.toNat⟩
    let s1 := broadcast (some p) false true m s
    if epoch then .next (if s.byo.epochs.contains t then s1 else s1.raise 0x1009 [.t t])
    else
      let last := s.byo.copies.find? (fun r => r.origin == m.origin && r.line == m.line)
      let gap := last.any (fun r => (r.lseq + 1) % 2 ^ 32 != m.lseq)
      let before := (last.map LineRx.t).getD t
      let s2 := if gap then (s1.bump Fd.BYO_LGAPS).raise 0x1008 [.w4 m.origin, .w4 m.line, .t before, .t t] else s1
      let rx : LineRx := ⟨m.origin, m.line, m.lseq, t⟩
      let copies := rx :: s2.byo.copies.filter (fun r => !(r.origin == m.origin && r.line == m.line))
      let was := s.byo.taken.any (fun r => r.same m)
      let s3 := setByo { s2.byo with copies := copies, taken := s2.byo.taken.filter (fun r => !r.same m) } s2
      .next (if was then s3 else fabPlace m.line t (if gap then Nat.lor m.fl Df.fab else m.fl) s3)

/-! ### Exports (R523, R525) -/

/-- The fields of an export that land. -/
def xpFields (x : Nat) : List Fld :=
  [Fd.XP_CTRL_RING x, Fd.XP_CTRL_IDX x, Fd.XP_CTRL_KIND x, Fd.XP_CTRL_EN x, Fd.XP_DEST x, Fd.XP_BHZ x, Fd.XP_TUMASK x]

/-- Whether an export runs. -/
def xpRuns (s : State) (x : Nat) : Bool := (look [] s.byo.xp x).any (fun r => r.stop.isNone)

/-- Every run of an export that has no stop stops at L. -/
def xpStop (x : Nat) (l : Tick) (s : State) : State :=
  let rs := (look [] s.byo.xp x).map (fun r => { r with stop := some (r.stop.getD l) })
  setByo { s.byo with xp := keep s.byo.xp x rs } s

/-- Exports at landing L (R523): EN and the other fields take effect; a change begins a new run. -/
def xpLand (old : State) (l : Tick) (s : State) : State :=
  s.each (List.range 8) (fun x s =>
    if !s.on (Fd.XP_CTRL_EN x) then xpStop x l s
    else if s.sys.fresh || !xpRuns s x || anyChanged old s (xpFields x) then
      let s1 := xpStop x l s
      let r : XpRun := ⟨l, none, s.get (Fd.XP_CTRL_KIND x), s.get (Fd.XP_CTRL_IDX x), s.get (Fd.XP_TUMASK x),
        s.get (Fd.XP_DEST x), s.get (Fd.XP_CTRL_RING x), s.get (Fd.XP_BHZ x), 0⟩
      setByo { s1.byo with xp := keep s1.byo.xp x (look [] s1.byo.xp x ++ [r]) } s1
    else s)

/-- A stop of stream time at L, and a new epoch. -/
def xpStopAll (l : Tick) (s : State) : State := s.each (List.range 8) (fun x s => xpStop x l s)
def xpEpoch (s : State) : State := setByo { s.byo with xp := [] } s

/-- An export element: flags, marks, stamps and payload. -/
structure XpElem where
  fl : Nat
  short : Bool
  tFirst : Tick
  tLast : Tick
  payload : List Byte

/-- Whether a stamp falls within a run. -/
def XpRun.holds (r : XpRun) (t : Tick) : Bool := tle r.start t && r.stop.all (fun l => tlt t l)

/-- The next element of a run, with the number of source elements it takes (R523). -/
def xpNext (s : State) (r : XpRun) : Option (XpElem × Nat) :=
  let ofRec (l : List SpecRec) : Option (XpElem × Nat) :=
    (((l.filter (fun x => r.holds x.t)).reverse)[r.taken]?).map (fun x => (⟨x.fl, false, x.t, x.last, x.bytes⟩, 1))
  match r.kind with
  | 1 => ofRec (look [] s.spx.recs (trKey (r.idx % 4) (r.idx / 4)))
  | 2 => ofRec (look [] s.scr.lines (r.idx % 4))
  | 3 =>
    (((s.trg.trigs.filter (fun x => bit r.tumask x.tu && r.holds x.t)).reverse)[r.taken]?).map (fun x =>
      (⟨x.fl, false, x.t, x.t, trigRecord x⟩, 1))
  | _ =>
    let cx := elemComplex s 1 r.idx
    let l := ((cdSamples s r.idx).filter (fun x => r.holds x.t)).drop r.taken
    let ended := r.stop.any (fun e => (streamNext s (cdKey s r.idx)).all (fun t => tle e t))
    let n := if 1024 ≤ l.length then 1024 else if ended then l.length else 0
    let es := l.take n
    match es.head?, es.getLast? with
    | some a, some b =>
      some (⟨es.foldl (fun f x => Nat.lor f x.fl) 0, decide (n < 1024), a.t, b.t, es.flatMap (sampBytes cx)⟩, n)
    | _, _ => none

/-- The element's header of R524 and its payload. -/
def xpBytes (x kind fl marks origin xseq : Nat) (e : XpElem) : List Byte :=
  let pay := e.payload ++ zeros (32 - e.payload.length)
  let head := le 4 0x58464259 ++ le 1 1 ++ le 1 (x + 8 * kind) ++ le 1 fl ++ le 1 marks ++ le 2 origin ++ le 2 0 ++ le 4 xseq ++
    le 8 e.tFirst.toNat ++ le 8 e.tLast.toNat ++ le 4 pay.length ++ zeros 24
  head ++ le 4 (crc32c (head ++ pay)) ++ pay

/-- Runs without those that have a stop and give nothing more. -/
def xpTrim (s : State) (rs : List XpRun) : List XpRun := rs.dropWhile (fun r => r.stop.isSome && (xpNext s r).isNone &&
  r.stop.all (fun l => tle l s.sys.next || !s.sys.counting))

/-- EXPORT_ELEMENT (R523, R525): the next element of an export is staged and sent, or dropped where the staging is full
(`room` false) or the module has no ID. -/
def execExportElement (xp : Fin 8) (room : Bool) (s : State) : Out :=
  let x := xp.val
  match xpTrim s (look [] s.byo.xp x) with
  | [] => .next (setByo { s.byo with xp := keep s.byo.xp x [] } s)
  | r :: rest =>
    match xpNext s r with
    | none => .next (setByo { s.byo with xp := keep s.byo.xp x (r :: rest) } s)
    | some (e, n) =>
      let seq := s.get (Fd.XP_XSEQ x)
      let s1 := (setByo { s.byo with xp := keep s.byo.xp x ({ r with taken := r.taken + n } :: rest) } s).count (Fd.XP_XSEQ x)
      match (if room then ownId s else none) with
      | none =>
        let s2 := setByo { s1.byo with xpLoss := x :: s1.byo.xpLoss.filter (· != x) } s1
        .next ((s2.bump (Fd.XP_LOST x)).raisePerLanding x 0x100C [.w4 x, .w4 seq])
      | some id =>
        let marks := 2 * b2n (s.byo.xpLoss.contains x) + 4 * b2n e.short
        let bytes := xpBytes x r.kind e.fl marks id seq e
        let s2 := setByo { s1.byo with xpLoss := s1.byo.xpLoss.filter (· != x) } s1
        .next (sendCell (.element r.dest r.ring bytes r.bhz) (stick e.fl e.tFirst s2))

/-! ### Receive rings (R524) -/

/-- The BAR0 offset of a register of RXr. -/
def rxAt (r x : Nat) : Nat := 0x110600 + 0x40 * r + x

/-- An element is written to a receive ring, whose oldest unread element is lost if it is full (R194, R524). -/
def rxWrite (r origin : Nat) (bytes : List Byte) (s : State) : State :=
  let slots := max 2 (s.get (Fd.RX_SLOTS r))
  let wr := s.get (Fd.RX_WR r)
  let rd := s.get (Fd.RX_RD r)
  let s1 := if (wr + slots - rd) % slots = slots - 1 then
      ((s.set (Fd.RX_RD r) ((rd + 1) % slots)).bump (Fd.RX_LOST r)).raisePerLanding r 0x100D [.w4 r, .w4 origin]
    else s
  (s1.store (s1.rd64 (rxAt r 4) + 8320 * wr) bytes).set (Fd.RX_WR r) ((wr + 1) % slots)

/-- RECEIVE_ELEMENT (R524): an export element arrives for a receive ring, with its header's fields and the sender's
BHZ. -/
def execReceiveElement (ring xp : Fin 8) (kind : Fin 4) (flags : BitVec 7) (loss short : Bool) (origin : Fin 4096)
    (xseq : Word) (tFirst tLast : Tick) (bhz : Nat) (payload : List Byte) (s : State) : Out :=
  let r := ring.val
  if !s.on (Fd.RX_CTRL_EN r) || (ownId s).isNone then .next s
  else if s.on (Fd.RX_CTRL_FILTER r) && s.get (Fd.RX_CTRL_SRC_NODE r) != origin.val then
    .next ((s.bump (Fd.RX_REJECTED r)).raise 0x100D [.w4 r, .w4 origin.val])
  else
    let late := s.sys.counting && tle (tadd tLast bhz) s.tRel
    let fl := if late then Nat.lor flags.toNat Df.fab else flags.toNat
    let e : XpElem := ⟨fl, short, tFirst, tLast, payload.take 8256⟩
    let bytes := xpBytes xp.val kind.val fl (b2n late + 2 * b2n loss + 4 * b2n short) origin.val xseq.toNat e
    let s1 := if late then
        stick fl tFirst ((s.bump (Fd.RX_LATE r)).raisePerLanding r 0x100E [.w4 r, .w4 origin.val, .t tLast])
      else s
    .next (rxWrite r origin.val bytes s1)

/-- A receive ring is enabled: WR and RD start at 0. -/
def rxEnable (r : Nat) (s : State) : State := (s.set (Fd.RX_WR r) 0).set (Fd.RX_RD r) 0

/-! ### Disabling and counters (R529, R530) -/

/-- CTRL.EN = 0 (R529): every port goes DOWN with reason 7, the ID lapses, no cell is left. -/
def byoDisable (s : State) : State :=
  let s1 := portsFollow (s.set Fd.BYO_CTRL_EN 0)
  (s1.set Fd.BYO_STATUS_ID_VALID 0).set Fd.BYO_STATUS_QUIESCENT 1

/-- CTRL.EN = 1. -/
def byoEnable (s : State) : State := portsFollow ((s.set Fd.BYO_CTRL_EN 1).set Fd.BYO_STATUS_QUIESCENT 0)

/-- BYO_DISABLE (R529). -/
def execByoDisable (s : State) : Out := .next (byoDisable s)

/-- CNT_CLEAR of BYO (R530). -/
def byoCntClear (s : State) : State :=
  let s1 := ((s.set Fd.BYO_PLOST 0).set Fd.BYO_LGAPS 0).set Fd.BYO_RTIMEOUTS 0
  let s2 := s1.each (List.range 8) (fun p s => ((s.set (Fd.BPORT_FEC_CE p) 0).set (Fd.BPORT_FEC_UE p) 0).set (Fd.BPORT_RETRY p) 0)
  s2.each (List.range 8) (fun r s =>
    (((s.set (Fd.XP_LOST r) 0).set (Fd.RX_LOST r) 0).set (Fd.RX_REJECTED r) 0).set (Fd.RX_LATE r) 0)

/-- Whether a register of BYO keeps its word through an engine reset: the node ID (R567). -/
def byoKept (off : Nat) : Bool := off = 0x110004

/-- What Byora keeps through an engine reset: its neighbours, database, routes and IDs (R567). -/
def byoThroughReset (b : ByoSt) : ByoSt :=
  { ByoSt.init with
    nbrs := b.nbrs, db := b.db, root := b.root, reserved := b.reserved, routes := b.routes, sent := b.sent }

end Sys2Proof.Machine
end

