-- ==== Sys2Proof/Machine/HostBase.lean ====
section
/-! DEFINITION. The rings in host memory, MSI-X and the queues of Porter (R452 to R457, R463, R467, R472, R474, R520):
what writes a completion or an event entry, what enabling and disabling do. Commands and transfers stand in
`Machine/HostRings.lean`. -/

namespace Sys2Proof.Machine

/-- The host interface replaced. -/
def setHif (x : HifSt) (s : State) : State := { s with hif := x }

/-- Porter replaced. -/
def setPtr (x : PtrSt) (s : State) : State := { s with ptr := x }

/-! ### MSI-X (R463) -/

/-- A word of the MSI-X table: every vector is masked at reset. -/
def msixWord (s : State) (i : Nat) : Nat := (Assoc.get (if i % 4 = 3 then 1#32 else 0#32) s.hif.msix i).toNat

/-- A message of a vector is written to the host. -/
def msixSend (v : Nat) (s : State) : State :=
  s.store (hostAddr (msixWord s (4 * v) + 2 ^ 32 * msixWord s (4 * v + 1))) (le 4 (msixWord s (4 * v + 2)))

/-- A vector is signalled (R463): a masked one sets its pending bit. -/
def msixSignal (v : Nat) (s : State) : State :=
  if bit (msixWord s (4 * v + 3)) 0 then
    setHif { s.hif with pba := if s.hif.pba.contains v then s.hif.pba else v :: s.hif.pba } s
  else msixSend v s

/-- A word of the table is written; a vector that is unmasked with its pending bit set sends its message (R463). -/
def msixWrite (i w : Nat) (s : State) : State :=
  let v := if i % 4 = 3 then w % 2 else w
  let s1 := setHif { s.hif with msix := Assoc.put (if i % 4 = 3 then 1#32 else 0#32) s.hif.msix i (BitVec.ofNat 32 v) } s
  if i % 4 = 3 ∧ v = 0 ∧ s1.hif.pba.contains (i / 4) then
    msixSend (i / 4) (setHif { s1.hif with pba := s1.hif.pba.filter (· != i / 4) } s1)
  else s1

/-- A word of the pending-bit array. -/
def pbaWord (s : State) (k : Nat) : Nat := sumL ((s.hif.pba.filter (fun v => v / 32 == k)).map (fun v => 2 ^ (v % 32)))

/-! ### The event ring (R457, R458) -/

/-- The data items of an event, packed (R458). -/
def packItems : List EvItem → List Byte → List Byte
  | [], acc => acc
  | .w4 v :: xs, acc => packItems xs (acc ++ le 4 v)
  | .w8 v :: xs, acc => packItems xs (acc ++ zeros (ceilTo 8 acc.length - acc.length) ++ le 8 v)

/-- The 32 bytes of an event entry (R457). -/
def eventEntry (e : Event) (phase : Bool) : List Byte :=
  let d := packItems e.data []
  le 2 e.code ++ le 1 (b2n phase) ++ le 1 0 ++ le 4 e.eseq ++ (d ++ zeros (24 - d.length)).take 24

/-- Whether the event ring has room. -/
def evtRoom (s : State) : Bool := (s.get Fd.HIF_EVT_TAIL + 1) % s.get Fd.HIF_EVT_SIZE != s.hif.evtHead

/-- An event entry is written at the tail. -/
def evtWrite (e : Event) (s : State) : State :=
  let t := s.get Fd.HIF_EVT_TAIL
  let n := (t + 1) % max 1 (s.get Fd.HIF_EVT_SIZE)
  let s1 := s.store (hostAddr (s.rd64 0xE0030 + 32 * t)) (eventEntry e s.hif.evtPhase)
  (setHif { s1.hif with evtPhase := s1.hif.evtPhase != (n == 0), evtNew := true } s1).set Fd.HIF_EVT_TAIL n

/-- The events raised since the last flush go to the ring, or are lost on a full ring (R457). -/
def evtFlush (s : State) : State :=
  s.evq.foldl (fun s e =>
    if s.hif.lost = 0 ∧ evtRoom s then evtWrite e s
    else setHif { s.hif with lost := s.hif.lost + 1 } (s.bump Fd.HIF_EVT_LOST)) { s with evq := [] }

/-- The marker of lost events, first written once space returns (R457). -/
def evtMarker (s : State) : State :=
  if s.hif.lost = 0 || !evtRoom s then s
  else
    let s1 := evtWrite ⟨0x0E04, s.eseq, [.w4 s.hif.lost]⟩ s
    setHif { s1.hif with lost := 0 } { s1 with eseq := s1.eseq + 1 }

/-! ### The completion ring (R456) -/

/-- Whether the completion ring has room. -/
def cplRoom (s : State) : Bool := (s.get Fd.HIF_CPL_TAIL + 1) % s.get Fd.HIF_CPL_SIZE != s.hif.cplHead

/-- A completion entry is written at the tail, and then the message that its command asked for (R469). -/
def cplWrite (x : Cpl) (s : State) : State :=
  let t := s.get Fd.HIF_CPL_TAIL
  let n := (t + 1) % max 1 (s.get Fd.HIF_CPL_SIZE)
  let bytes := le 8 x.result ++ le 2 x.cid ++ le 1 x.status ++
    le 1 (b2n s.hif.cplPhase + 2 * b2n x.clamped + 4 * b2n (x.src != 0xFFFF)) ++ le 2 (s.get Fd.HIF_CMD_HEAD) ++ le 2 x.src
  let s1 := s.store (hostAddr (s.rd64 0xE0020 + 16 * t)) bytes
  let s2 := (setHif { s1.hif with
      cplPhase := s1.hif.cplPhase != (n == 0)
      cplNew := s1.hif.cplNew || x.src == 0xFFFF } s1).set Fd.HIF_CPL_TAIL n
  s2.when x.irq (msixSignal (32 + x.src))

/-- The ring is found full: once per stall it is counted and reported (R456). -/
def cplStall (s : State) : State :=
  if s.on Fd.HIF_STATUS_CPL_FULL then s
  else ((s.set Fd.HIF_STATUS_CPL_FULL 1).bump Fd.HIF_CPL_STALLS).raise 0x0E09

/-- Whether completions reach the ring: EN is 1, or was cleared with fetched commands left (R474). -/
def ringsOpen (s : State) : Bool := s.on Fd.HIF_CTRL_EN || s.hif.closing

/-- A completion is due: written, or kept while the rings are closed or full (R456, R474). -/
def postCpl (x : Cpl) (s : State) : State :=
  let keepIt (s : State) : State := setHif { s.hif with due := s.hif.due ++ [x] } s
  if !ringsOpen s then keepIt s
  else if !s.hif.due.isEmpty || !cplRoom s then cplStall (keepIt s)
  else cplWrite x s

/-- Completions kept are written while there is room. -/
def cplFlush (s : State) : State :=
  s.hif.due.foldl (fun s x => postCpl x s) (setHif { s.hif with due := [] } s)

/-- Vectors 0 and 1 send at most one message each (R463). -/
def ringMessages (s : State) : State :=
  let s1 := if s.hif.cplNew then msixSignal 0 (setHif { s.hif with cplNew := false } s) else s
  if s1.hif.evtNew then msixSignal 1 (setHif { s1.hif with evtNew := false } s1) else s1

/-! ### Enabling and disabling (R454, R474) -/

/-- With EN 0 the unit is quiescent once nothing fetched and no completion due remains (R474). -/
def hifQuiet (s : State) : State :=
  if s.on Fd.HIF_CTRL_EN then s
  else if s.hif.fetched.isEmpty && (!s.hif.closing || s.hif.due.isEmpty) then
    (setHif { s.hif with closing := false } s).set Fd.HIF_STATUS_QUIESCENT 1
  else s

/-- EN has changed to 1 (R454): the rings begin at their starts with phase 1, and polling starts. -/
def hifEnable (s : State) : State :=
  let s1 := setHif { s.hif with
    tail := 0
    cplHead := 0
    evtHead := 0
    cplPhase := true
    evtPhase := true
    closing := false } s
  let s2 := ((s1.set Fd.HIF_CMD_HEAD 0).set Fd.HIF_CPL_TAIL 0).set Fd.HIF_EVT_TAIL 0
  cplFlush (((s2.set Fd.HIF_CTRL_EN 1).set Fd.HIF_STATUS_RUNNING 1).set Fd.HIF_STATUS_QUIESCENT 0)

/-- EN = 0 (R474): events due are written, polling stops, fetched commands stay to be decoded. -/
def hifDisable (s : State) : State :=
  let s1 := ringMessages (evtFlush (s.set Fd.HIF_CTRL_EN 1))
  hifQuiet (setHif { s1.hif with closing := true } ((s1.set Fd.HIF_CTRL_EN 0).set Fd.HIF_STATUS_RUNNING 0))

/-- CNT_CLEAR of HIF (R476, R477). -/
def hifCntClear (s : State) : State :=
  let s1 := (((s.set Fd.HIF_FETCH_ERR 0).set Fd.HIF_EVT_LOST 0).set Fd.HIF_FWD_REFUSED 0).set Fd.HIF_CPL_STALLS 0
  s1.each (List.range 32) (fun n s => s.wr (0xE0100 + 4 * n) 0)

/-! ### Porter's queues (R467, R470, R472) -/

/-- The queue of a channel, its running item first. -/
def State.ptrQ (s : State) (ch : Nat) : List PtrItem := look [] s.ptr.queues ch

/-- The status of a channel and of Porter follow the queues (R477). -/
def ptrShow (ch : Nat) (s : State) : State :=
  let q := s.ptrQ ch
  let st := match q with
    | [] => 0
    | x :: _ => if x.fence then 2 else 1
  let cid := (q.head?.map PtrItem.cid).getD 0
  let s1 := (s.set (Fd.CH_STATUS_STATE ch) st).set (Fd.CH_STATUS_QDEPTH ch) q.length
  let s2 := (s1.set (Fd.CH_STATUS_CID ch) cid).set (Fd.CH_STATUS_QUIESCENT ch) (b2n q.isEmpty)
  s2.set Fd.PTR_STATUS_QUIESCENT (b2n (s2.ptr.queues.all (fun e => e.2.isEmpty) && s2.ptr.fences.isEmpty))

/-- The queue of a channel replaced. -/
def setPtrQ (ch : Nat) (q : List PtrItem) (s : State) : State :=
  ptrShow ch (setPtr { s.ptr with queues := keep s.ptr.queues ch q } s)

/-- The completion of a Porter item goes to the completion ring, or back to the module that sent the command (R464,
R469); `irq` says whether it signals the channel's vector. -/
def ptrComplete (ch : Nat) (x : PtrItem) (status result : Nat) (irq : Bool) (s : State) : State :=
  match x.from' with
  | .ring => postCpl ⟨result, x.cid, status, x.clamped, ch, irq⟩ s
  | .remote _ node rseq =>
    (sendCell (.completion node rseq 0 result x.cid status x.clamped x.tdec) s).when irq (msixSignal (32 + ch))

/-- Whether a channel holds before its next descriptor because its last completion has found no room (R456). -/
def ptrHeld (s : State) (ch : Nat) : Bool := s.hif.due.any (fun c => c.src == ch)

/-- The descriptors of a channel but for the running one are cancelled; fences stay (R472). -/
def ptrCancelQueue (ch : Nat) (s : State) : State :=
  let q := s.ptrQ ch
  let running := if ptrHeld s ch then [] else q.take 1
  let rest := q.drop running.length
  let s1 := setPtrQ ch (running ++ rest.filter (fun y => y.fence)) s
  s1.each (rest.filter (fun y => !y.fence)) (fun y s => ptrComplete ch y 4 0 false s)

/-- PTR.CHn.CTRL.EN = 0 (R472). -/
def porterDisable (ch : Nat) (s : State) : State := ptrCancelQueue ch (s.set (Fd.CH_CTRL_EN ch) 0)

/-- PORTER_DISABLE (R472). -/
def execPorterDisable (ch : Fin 32) (s : State) : Out := .next (porterDisable ch.val s)

/-- CNT_CLEAR of PTR (R477). -/
def ptrCntClear (s : State) : State := s.each (List.range 32) (fun n s => s.wr64 (0xF0108 + 0x20 * n) 0)

/-- HIF_ENABLE (R454): HIF.CTRL.EN changes to 1. -/
def execHifEnable (s : State) : Out := if s.on Fd.HIF_CTRL_EN then .next s else .next (hifEnable s)

/-- HIF_DISABLE (R474). -/
def execHifDisable (s : State) : Out := if s.on Fd.HIF_CTRL_EN then .next (hifDisable s) else .next s

/-- RCTRL.EN has changed to 1 (R520): heads and tails at 0, phase 1. -/
def rctrlEnable (s : State) : State :=
  setByo { s.byo with rsTail := 0, rcHead := 0, rsHead := 0, rcTail := 0, rcPhase := true } (s.set Fd.BYO_RCTRL_EN 1)

/-- RCTRL_ENABLE (R520). -/
def execRctrlEnable (s : State) : Out := if s.on Fd.BYO_RCTRL_EN then .next s else .next (rctrlEnable s)

end Sys2Proof.Machine
end

