-- ==== Sys2Proof/Machine/Housekeeping.lean ====
section
/-! DEFINITION. Housekeeping conversions (R76 to R84): timer scans, PWM conversions, averaging and the reference buffer.
The converter's codes come from outside as operands, and so does whether a PWM start instant lies within the following
1,000 ns, which R79 lets a timer conversion wait for. -/

namespace Sys2Proof.Machine

/-- The register offset of HK.SLOTn. -/
def hkSlotOff (n : Nat) : Nat := 0x120140 + 4 * n

/-- Whether a slot is active: its EN bit, or a set still in progress under its old settings (R77, R80). -/
def hkActive (s : State) (n : Nat) : Bool := s.on (Fd.HK_SLOT_EN n) || s.hk.sets.any (fun e => e.1 == n)

/-- The settings a slot converts under: those of its set in progress, else the slot register as it stands (R80). -/
def hkCfg (s : State) (n : Nat) : Word :=
  match s.hk.sets.find? (fun e => e.1 == n) with
  | some e => e.2.cfg
  | none => BitVec.ofNat 32 (s.rd (hkSlotOff n))

/-- A slot's conversion starts: the converter is busy, a new set takes the slot register, and a conversion that starts
while REF_RDY is 0 marks its set (R80, R83). -/
def hkStart (s : State) (n : Nat) : State :=
  let old := (s.hk.sets.find? (fun e => e.1 == n)).map Prod.snd
  let st := old.getD ⟨hkCfg s n, 0, 0, false⟩
  let st := { st with warm := st.warm || !s.on Fd.HK_CTRL_REF_RDY }
  { s with hk := { s.hk with busy := some n, sets := keep s.hk.sets n st } }

/-- The running scan starts its next conversion if the converter is free and nothing holds it back; slots that lost
their EN before their set began are passed over (R77, R79, R80). -/
def hkScanNext (s : State) (hold : Bool) : State :=
  let scan := s.hk.scan.dropWhile (fun n => !hkActive s n)
  let s := { s with hk := { s.hk with scan := scan } }
  match scan with
  | [] => s
  | n :: _ => if s.hk.busy.isSome || hold || !s.on Fd.HK_CTRL_RUN then s else hkStart s n

/-- What a write that leaves HK.CTRL.RUN at 0 does: conversions no longer run, so the running scan ends (R77). -/
def hkRunWrite (s : State) : State :=
  if s.on Fd.HK_CTRL_RUN then s else { s with hk := { s.hk with scan := [] } }

/-- HK_TIMER_SCAN (R77, R79): an expiry starts a scan of the active timer slots in ascending order, or is skipped and
counted if the previous scan has not finished. -/
def execHkTimerScan (hold : Bool) (s : State) : Out :=
  if !s.on Fd.HK_CTRL_RUN then .next s
  else if s.hk.scan ≠ [] then .next (s.bump Fd.HK_COUNTS_TSKIP)
  else
    let slots := (List.range 24).filter (fun n => s.on (Fd.HK_SLOT_EN n) && !s.on (Fd.HK_SLOT_TRIG n))
    .next (hkScanNext { s with hk := { s.hk with scan := slots } } hold)

/-- HK_PWM_CONVERSION (R77, R78): the start instant of an active PWM slot starts its conversion if the converter is
idle; else the edge is skipped and counted, and the slot's next result says so. -/
def execHkPwmConversion (slot : Fin 24) (s : State) : Out :=
  let n := slot.val
  if !s.on Fd.HK_CTRL_RUN || !hkActive s n || !bit (hkCfg s n).toNat 30 then .next s
  else if s.hk.busy.isSome then
    let sk := if s.hk.skipped.contains n then s.hk.skipped else n :: s.hk.skipped
    .next ({ s with hk := { s.hk with skipped := sk } }.bump Fd.HK_COUNTS_PSKIP)
  else .next (hkStart s n)

/-- The result register of a slot written as one word (R81, R84). -/
def hkResult (s : State) (n : Nat) (st : HkSet) : State :=
  let k := bits st.cfg.toNat 14 4
  let seq := (s.get (Fd.HK_RES_SEQ n) + 1) % 16
  let skip := b2n (s.hk.skipped.contains n)
  let word := seq * 2 ^ 28 + b2n st.warm * 2 ^ 27 + skip * 2 ^ 26 + bits st.cfg.toNat 24 5 * 2 ^ 16 + st.sum / 2 ^ k % 4096
  let hk := { s.hk with
    sets := drop s.hk.sets n
    skipped := s.hk.skipped.filter (· != n)
    scan := s.hk.scan.filter (· != n) }
  { s with hk := hk }.wr (0x120200 + 4 * n) word

/-- HK_CONVERSION_END (R77, R81, R83): a conversion ends with a code; the last of a set of 2^K writes the slot's result,
and the running scan goes on with its next conversion. -/
def execHkConversionEnd (code : BitVec 12) (hold : Bool) (s : State) : Out :=
  match s.hk.busy with
  | none => .next s
  | some n =>
    match s.hk.sets.find? (fun e => e.1 == n) with
    | none => .next { s with hk := { s.hk with busy := none } }
    | some e =>
      let st := { e.2 with sum := e.2.sum + code.toNat, done := e.2.done + 1 }
      let s1 := { s with hk := { s.hk with busy := none, sets := keep s.hk.sets n st } }
      let s2 := if 2 ^ bits st.cfg.toNat 14 4 ≤ st.done then hkResult s1 n st else s1
      .next (hkScanNext s2 hold)

/-- What a write that changes HK.CTRL.REF_EN does: a rise starts the 500 µs count, 0 clears REF_RDY at once (R82). -/
def hkRefWrite (s : State) (old : Bool) : State :=
  if s.on Fd.HK_CTRL_REF_EN then
    if old then s else { s with hk := { s.hk with refCount := true } }
  else { s with hk := { s.hk with refCount := false } }.set Fd.HK_CTRL_REF_RDY 0

/-- HK_REF_READY (R82): 500 µs after REF_EN rose, REF_RDY sets. -/
def execHkRefReady (s : State) : Out :=
  if s.hk.refCount then .next ({ s with hk := { s.hk with refCount := false } }.set Fd.HK_CTRL_REF_RDY 1) else .next s

/-- COUNT_CLEAR (R79): any write to HK.COUNT_CLEAR clears HK.COUNTS. -/
def execCountClear (s : State) : Out := .next ((s.set Fd.HK_COUNTS_TSKIP 0).set Fd.HK_COUNTS_PSKIP 0)

end Sys2Proof.Machine
end

