-- ==== Sys2Proof/Machine/Pins.lean ====
section
/-! DEFINITION. The protection of the output pins (R73 to R75): trips, retries and their clears. -/

namespace Sys2Proof.Machine

/-- The register field and bit of a pin ID (R73). -/
def pinBit (pin : Nat) : Fld × Nat := if pin < 32 then (Fd.PWR_PAT_SHORT, pin) else (Fd.PWR_SHORT, pin - 32)

/-- PIN_TRIP (R73, R74): a shorted output pin is placed in high impedance; its bit sets, and the event is raised when
the bit changes from 0 to 1. The unit that drives it goes on. -/
def execPinTrip (pin : Fin 38) (s : State) : Out :=
  let b := pinBit pin.val
  let was := s.onBit b.1 b.2
  let hiz := if s.pwr.hiz.contains pin.val then s.pwr.hiz else pin.val :: s.pwr.hiz
  let s1 := { s with pwr := { s.pwr with hiz := hiz, watch := s.pwr.watch.filter (· != pin.val) } }.setB b.1 b.2
  let s2 := if pin.val = 37 then s1.set Fd.PWR_STATUS_AUX_ON 0 else s1
  .next (s2.raiseIf (!was) 0x1210 [.w4 pin.val])

/-- A tripped pin's driver is enabled again. -/
def pinEnable (pin : Nat) (s : State) : State :=
  let s1 := { s with pwr := { s.pwr with hiz := s.pwr.hiz.filter (· != pin) } }
  if pin = 37 then s1.set Fd.PWR_STATUS_AUX_ON 1 else s1

/-- PIN_RETRY (R73): with LATCH = 0 a tripped driver is re-enabled RETRY_CFG.INTERVAL ms after its trip. -/
def execPinRetry (pin : Fin 38) (s : State) : Out :=
  if s.on Fd.PWR_RETRY_CFG_LATCH || !s.pwr.hiz.contains pin.val then .next s
  else
    let s1 := pinEnable pin.val s
    .next { s1 with pwr := { s1.pwr with watch := pin.val :: s1.pwr.watch } }

/-- PIN_HELD (R73): a re-enabled pin has held for 10 ms. -/
def execPinHeld (pin : Fin 38) (s : State) : Out :=
  if s.pwr.watch.contains pin.val then
    .next ({ s with pwr := { s.pwr with watch := s.pwr.watch.filter (· != pin.val) } }.raise 0x1211 [.w4 pin.val])
  else .next s

/-- A W1C write of SHORT or PAT_SHORT (R73): written bits clear, and with LATCH = 1 their tripped drivers are enabled. -/
def pinShortClear (pat : Bool) (data : Nat) (s : State) : State :=
  let f := if pat then Fd.PWR_PAT_SHORT else Fd.PWR_SHORT
  let base := if pat then 0 else 32
  let pins := ((List.range f.width).filter (fun i => bit data i)).map (· + base)
  let s1 := s.set f (Nat.land (s.get f) (Nat.xor (Nat.land data (2 ^ f.width - 1)) (2 ^ f.width - 1)))
  if s.on Fd.PWR_RETRY_CFG_LATCH then s1.each (pins.filter (fun p => s.pwr.hiz.contains p)) pinEnable else s1

/-- PIN_SHORT_CLEAR (R73, R75): a W1C write to PAT_SHORT (`pat`) or SHORT. -/
def execPinShortClear (pat : Bool) (data : Word) (s : State) : Out := .next (pinShortClear pat data.toNat s)

end Sys2Proof.Machine
end

