-- ==== Sys2Proof/Machine/Block.lean ====
section
/-! DEFINITION. The block format (R333 to R348): stored blocks as the module writes them, and the decoder that reads any
block, which is also the verifying decompressor of R308. -/

namespace Sys2Proof.Machine

/-! ### Writing (R333 to R335, R344) -/

/-- The 16 header bytes of a block (R333). -/
def blockHeader (method flags ulen clen : Nat) : List Byte :=
  le 4 0x4B4C4253 ++ le 1 1 ++ le 1 method ++ le 1 flags ++ le 1 0 ++ le 4 ulen ++ le 4 clen

/-- A block: header, data, and the check over the header and the payload (R333, R344). -/
def blockOf (method flags : Nat) (payload data : List Byte) : List Byte :=
  let h := blockHeader method flags payload.length data.length
  h ++ data ++ le 4 (crc32c (h ++ payload))

/-- A block stored raw with a reason (R309, R334, R335): reason 1 alone carries VERIFIED. -/
def storedBlock (reason : Nat) (payload : List Byte) : List Byte :=
  blockOf 0 (b2n (reason == 1) + 2 * reason) payload payload

/-- A coded block (R334). -/
def codedBlock (payload data : List Byte) : List Byte := blockOf 1 1 payload data

/-! ### Bits (R337) -/

/-- The bits of bytes, least significant first. -/
def bitsOf : List Byte → List Bool
  | [] => []
  | b :: bs => (List.range 8).map (fun i => bit b.toNat i) ++ bitsOf bs

/-- A fixed-width field of k bits, with what follows it. -/
def takeBits : Nat → List Bool → Option (Nat × List Bool)
  | 0, bs => some (0, bs)
  | _ + 1, [] => none
  | k + 1, b :: bs => (takeBits k bs).map (fun r => (b2n b + 2 * r.1, r.2))

/-- n fields of 4 bits (R338). -/
def takeLens : Nat → List Bool → Option (List Nat × List Bool)
  | 0, bs => some ([], bs)
  | n + 1, bs => (takeBits 4 bs).bind (fun r => (takeLens n r.2).map (fun q => (r.1 :: q.1, q.2)))

/-! ### Prefix codes (R339, R340) -/

/-- Symbols of a code length. -/
def countLen (lens : List Nat) (l : Nat) : Nat := (lens.filter (fun x => x == l)).length

/-- The first code of length l (R339). -/
def firstCode (lens : List Nat) : Nat → Nat
  | 0 => 0
  | l + 1 => (firstCode lens l + (if l = 0 then 0 else countLen lens l)) * 2

/-- The symbol of the code value c of length l (R339). -/
def codeSym (lens : List Nat) (l c : Nat) : Option Nat :=
  let f := firstCode lens l
  if c < f ∨ l = 0 then none
  else ((lens.zipIdx.filter (fun x => x.1 == l)).map Prod.snd)[c - f]?

/-- The next symbol of a code: `l` bits have given the value `c` (R337). -/
def takeSym (lens : List Nat) : Nat → Nat → Nat → List Bool → Option (Nat × List Bool)
  | 0, _, _, _ => none
  | _ + 1, _, _, [] => none
  | n + 1, l, c, b :: bs =>
    let c' := 2 * c + b2n b
    match codeSym lens (l + 1) c' with
    | some s => some (s, bs)
    | none => takeSym lens n (l + 1) c' bs

/-- K of R340. -/
def kraft (lens : List Nat) : Nat := sumL (lens.map (fun l => if l = 0 then 0 else 2 ^ (15 - l)))

/-- Whether the literal/length code is acceptable (R340). -/
def litGood (lens : List Nat) : Bool := kraft lens == 32768 && lens.getD 256 0 != 0

/-- Whether the distance code is acceptable (R340). -/
def distGood (lens : List Nat) : Bool :=
  let used := lens.filter (fun l => l != 0)
  used.isEmpty || used == [1] || kraft lens == 32768

/-! ### Decoding (R341 to R345) -/

/-- The value of slot s, with what follows its extra bits (R343). -/
def slotValue (s : Nat) (bs : List Bool) : Option (Nat × List Bool) :=
  if s < 4 then some (s, bs)
  else
    let n := s / 2
    (takeBits (n - 1) bs).map (fun r => ((2 + s % 2) * 2 ^ (n - 1) + r.1, r.2))

/-- A match of L bytes at distance d, on the output with its newest byte first (R345). -/
def copyMatch (d : Nat) : Nat → List Byte → List Byte
  | 0, out => out
  | n + 1, out => copyMatch d n (out.getD (d - 1) 0#8 :: out)

/-- The symbol section: the output, newest byte first, and the bits after the end marker (R345). -/
def decodeSyms (lit dist : List Nat) (ulen : Nat) : Nat → List Byte → List Bool → Option (List Byte × List Bool)
  | 0, _, _ => none
  | n + 1, out, bs =>
    match takeSym lit 15 0 0 bs with
    | none => none
    | some (s, r) =>
      if s < 256 then
        if out.length < ulen then decodeSyms lit dist ulen n (BitVec.ofNat 8 s :: out) r else none
      else if s = 256 then some (out, r)
      else
        (slotValue (s - 257) r).bind (fun v =>
        if dist.all (fun l => l == 0) then none
        else (takeSym dist 15 0 0 v.2).bind (fun t =>
        (slotValue t.1 t.2).bind (fun w =>
          let len := v.1 + 4
          let d := w.1 + 1
          if d ≤ out.length ∧ out.length + len ≤ ulen then
            decodeSyms lit dist ulen n (copyMatch d len out) w.2
          else none)))

/-- Coded data decoded to exactly ULEN bytes; the end marker lies in the last byte and zeros pad it (R345). -/
def decodeData (ulen : Nat) (data : List Byte) : Option (List Byte) :=
  (takeLens 329 (bitsOf data)).bind (fun h =>
    let lit := h.1.take 289
    let dist := h.1.drop 289
    if !litGood lit || !distGood dist then none
    else (decodeSyms lit dist ulen (8 * data.length + 1) [] h.2).bind (fun r =>
      if r.1.length = ulen ∧ r.2.length < 8 ∧ r.2.all (fun b => !b) then some r.1.reverse else none))

/-- A block read from its bytes: the payload and METHOD, none where it is invalid (R345, R346). -/
def readBlock (bs : List Byte) : Option (List Byte × Nat) :=
  let method := fieldAt bs 5 1
  let flags := fieldAt bs 6 1
  let ulen := fieldAt bs 8 4
  let clen := fieldAt bs 12 4
  let data := (bs.drop 16).take clen
  let good := fieldAt bs 0 4 == 0x4B4C4253 && fieldAt bs 4 1 == 1 && decide (method ≤ 1) && decide (flags < 8) &&
    fieldAt bs 7 1 == 0 && decide (1 ≤ ulen) && decide (ulen ≤ 1048576) && decide (20 + clen ≤ bs.length)
  if !good then none
  else
    let out := if method = 0 then (if clen = ulen then some data else none)
      else if 165 ≤ clen ∧ clen ≤ 2097152 then decodeData ulen data else none
    match out with
    | none => none
    | some p => if crc32c (bs.take 16 ++ p) = fieldAt bs (16 + clen) 4 then some (p, method) else none

end Sys2Proof.Machine
end

