-- ==== Sys2Proof/Machine/Ledger.lean ====
section
/-! DEFINITION. The ledger (R573): its entries in flash, the entry taken at start-up, and the faults of the catalogue
that write one (R588). -/

namespace Sys2Proof.Machine

/-- Where slot SEQ mod 65,536 of ledger copy k lies in flash (R573). -/
def ledgerAt (k seq : Nat) : Nat := 0x02000000 + k * 0x00800000 + seq % 65536 * 128

/-- The mean shift of M0 to M47 from their factory values, in ppm (R573). -/
def roShift (s : State) : Int :=
  sumI ((List.range 48).map (fun m =>
    (((s.get (Fd.AGE_MON m) : Nat) : Int) - Config.factoryRo m) * 1000000 / (max 1 (Config.factoryRo m) : Nat))) / 48

/-- The least slack of M48 to M63 (R573). -/
def cprMin (s : State) : Int := ((minI? ((List.range 16).map (fun m => s.getI (Fd.AGE_MON (48 + m)))))).getD 0

/-- The 128 bytes of a ledger entry (R573). -/
def ledgerEntry (s : State) (kind : Nat) : List Byte :=
  let body := le 4 0x4744454C ++ le 2 1 ++ le 1 kind ++ le 1 0 ++ le 4 (s.get Fd.AGE_LSEQ) ++ le 4 (s.get Fd.AGE_POM) ++
    le 4 s.age.hotMin ++ le 2 (encI 16 s.age.tmax) ++ le 2 (s.get Fd.AGE_VCORE_SET) ++
    (List.range 4).flatMap (fun k => le 4 (s.rd (0x130040 + 4 * k))) ++
    le 4 (encI 32 (roShift s)) ++ le 2 (encI 16 (cprMin s)) ++ le 2 (min s.age.faultsCum 65535) ++
    le 8 s.age.lastT ++ le 2 s.age.lastCode ++ zeros 66
  withCrc body

/-- An entry is written, first to copy 0 and then to copy 1, and SEQ moves on (R573). -/
def ledgerWrite (kind : Nat) (s : State) : State :=
  let seq := s.get Fd.AGE_LSEQ
  let e := ledgerEntry s kind
  let s := (s.flashStore (ledgerAt 0 seq) e).flashStore (ledgerAt 1 seq) e
  { s.set Fd.AGE_LSEQ (seq + 1) with age := { s.age with tmax := s.getI Fd.AGE_TDIE } }

/-- Whether 128 bytes are a valid entry: MAGIC and CHECK pass (R573). -/
def ledgerValid (bs : List Byte) : Bool := fieldAt bs 0 4 == 0x4744454C && crcGood bs

/-- The valid entry with the highest SEQ of a copy, with its slot. -/
def ledgerNewest (s : State) (k : Nat) : Option (Nat × List Byte) :=
  (List.range 65536).foldl (fun best i =>
    let bs := s.flashLoad (0x02000000 + k * 0x00800000 + i * 128) 128
    if ledgerValid bs then
      match best with
      | none => some (i, bs)
      | some b => if fieldAt b.2 8 4 < fieldAt bs 8 4 then some (i, bs) else best
    else best) none

/-- The ledger is read at start-up (R573): POM and SEQ go on from the newest valid entry. -/
def ledgerRead (s : State) : State :=
  let c0 := ledgerNewest s 0
  let c1 := ledgerNewest s 1
  let take (bs : List Byte) (s : State) : State :=
    let s := (s.set Fd.AGE_POM (fieldAt bs 0x0C 4)).set Fd.AGE_LSEQ (fieldAt bs 8 4 + 1)
    { s with age := { s.age with hotMin := fieldAt bs 0x10 4, faultsCum := fieldAt bs 0x2E 2,
                                 lastT := fieldAt bs 0x30 8, lastCode := fieldAt bs 0x38 2 } }
  match c0, c1 with
  | none, none => ((s.set Fd.AGE_POM 0).set Fd.AGE_LSEQ 0).raise 0x1106 [.w4 0, .w4 2]
  | some a, none => take a.2 s
  | none, some b => take b.2 ((s.flashStore (ledgerAt 0 b.1) b.2).raise 0x1106 [.w4 0, .w4 1])
  | some a, some b =>
    if fieldAt a.2 8 4 < fieldAt b.2 8 4 then
      take b.2 ((s.flashStore (ledgerAt 0 b.1) b.2).raise 0x1106 [.w4 0, .w4 1])
    else take a.2 s

/-- A fault of the catalogue: FAULTS moves up and a KIND 3 entry is written with the fault's event code and stream time
(R573, R588). -/
def ageFault (code : Nat) (t : Nat) (s : State) : State :=
  let s := s.bump Fd.AGE_FAULTS
  ledgerWrite 3 { s with age := { s.age with faultsCum := min (s.age.faultsCum + 1) 65535, lastT := t, lastCode := code } }

end Sys2Proof.Machine
end

