-- ==== Sys2Proof/Machine/Scrivener.lean ====
section
/-! DEFINITION. Scrivener, recording (R305 to R321, R328 to R332): streams and their blocks, compression and its check,
admission, staging and gaps, the volume, labels and folios, the log stream, and the drives. -/

namespace Sys2Proof.Machine

/-! ### The volume (R315, R316) -/

/-- The ports enabled in DRV_EN, ascending: the drives in use (R315). -/
def usedPorts (s : State) : List Nat := (List.range 4).filter (fun p => s.onBit Fd.SCR_CTRL_DRV_EN p)

/-- The port and the byte address on its drive of a logical offset (R315). -/
def volAt (ports : List Nat) (su a : Nat) : Nat × Nat :=
  let u := 2 ^ su * 4096
  let d := max 1 ports.length
  let i := a / u
  (ports.getD (i % d) 0, 256 * 4096 + i / d * u + a % u)

/-- The contents of the drive at a port. -/
def State.drive (s : State) (p : Nat) : List Host.Cell := look [] s.scr.drives p

/-- Bytes written to the drive at a port. -/
def driveStore (p a : Nat) (bs : List Byte) (s : State) : State :=
  { s with scr := { s.scr with drives := keep s.scr.drives p (Memory.store (s.drive p) a bs) } }

/-- n pages of 4,096 bytes of the logical log. -/
def volLoad (s : State) (ports : List Nat) (su off : Nat) : Nat → List Byte
  | 0 => []
  | n + 1 =>
    let at' := volAt ports su off
    Memory.load (s.drive at'.1) at'.2 4096 ++ volLoad s ports su (off + 4096) n

/-- Bytes written to the logical log page by page; a failed drive is written no more (R320). -/
def volStore (off : Nat) (bs : List Byte) : Nat → State → State
  | 0, s => s
  | n + 1, s =>
    let at' := volAt s.scr.used (s.get Fd.SCR_CTRL_SU) off
    let s1 := if s.scr.dead.contains at'.1 then s else driveStore at'.1 at'.2 (bs.take 4096) s
    volStore (off + 4096) (bs.drop 4096) n s1

/-- The logical capacity of the drives of a recording (R315). -/
def volCap (s : State) : Nat :=
  let u := 2 ^ s.get Fd.SCR_CTRL_SU * 4096
  let n := (minN? (s.scr.used.map (fun p => s.rd64 (0xB040C + 0x40 * p)))).getD 0
  s.scr.used.length * u * ((n - 256) * 4096 / u)

/-- A label with its check (R316): the drive's number, END_LSEQ and FLAGS. -/
def labelBytes (s : State) (didx endSeq flags : Nat) : List Byte :=
  let head := le 4 0x56524353 ++ le 2 1 ++ le 1 s.scr.used.length ++ le 1 didx ++ le 8 (s.rd64 0xB0018) ++
    le 8 s.scr.tRec.toNat ++ le 8 endSeq ++ s.scr.label.take 7 ++ le 1 flags ++ s.scr.label.drop 8
  let streams := (List.range 15).flatMap (fun n => look (zeros 16) s.scr.desc n)
  withCrc (head ++ streams ++ zeros 3804)

/-- A label read from a drive: copy 0 at LBA 0, copy 1 at LBA 128, if its check passes (R316). -/
def readLabel (s : State) (p k : Nat) : Option (List Byte) :=
  let bs := Memory.load (s.drive p) (k * 128 * 4096) 4096
  if fieldAt bs 0 4 = 0x56524353 ∧ fieldAt bs 4 2 = 1 ∧ crcGood bs then some bs else none

/-- The label copies written to every drive of the recording that has not failed. -/
def writeLabels (endSeq flags : Nat) (s : State) : State :=
  s.each s.scr.used.zipIdx (fun d s =>
    if s.scr.dead.contains d.1 then s
    else
      let bs := labelBytes s d.2 endSeq flags
      driveStore d.1 0 bs (driveStore d.1 (128 * 4096) bs s))

/-! ### Rates and admission (R305, R311) -/

/-- The bit width that PACK selects (R306). -/
def packWidth (pack : Nat) : Nat := [16, 14, 12].getD pack 16

/-- Components of a sample of a stream's source. -/
def streamComps (s : State) (kind idx : Nat) : Nat :=
  if kind = 0 then s.im.m
  else if srcReal s (s.get (Fd.CD_CTRL_KIND idx)) (s.get (Fd.CD_CTRL_IDX idx)) then 1 else 2

/-- The bytes of a trace record B_t (R193). -/
def traceBytes (s : State) (c t : Nat) : Nat := 64 + 2 * ceilTo 32 (s.get (Fd.TR_COLS c t))

/-- R_s of a stream in bytes a second, as a fraction (R305). -/
def streamRate (s : State) (n : Nat) : Nat × Nat :=
  let idx := s.get (Fd.SS_CTRL_IDX n)
  let fs := s.get Fd.ING_FS_KHZ * 1000
  let b := packWidth (s.get (Fd.SS_CTRL_PACK n))
  match s.get (Fd.SS_CTRL_KIND n) with
  | 0 => (fs * s.im.m * b, 8)
  | 1 => (fs * streamComps s 1 idx * b,
      8 * max 1 (srcPeriod s (s.get (Fd.CD_CTRL_KIND idx)) (s.get (Fd.CD_CTRL_IDX idx)) * s.get (Fd.CD_DEC idx)))
  | 2 => (traceBytes s (idx % 4) (idx / 4) * fs, max 1 (s.get (Fd.SPX_HOP (idx % 4)) * s.get (Fd.TR_FDEC (idx % 4) (idx / 4))))
  | 3 => ((64 + 2 * s.get (Fd.DEN_MAP_DCOLS idx)) * fs, max 1 (s.get (Fd.SPX_HOP idx) * s.get (Fd.SG_SGFDEC idx)))
  | _ => (s.get (Fd.SS_RATE_MB n) * 1000000, 1)

/-- The admitted rate R_adm of a stream (R311). -/
def admRate (s : State) (n : Nat) : Nat × Nat :=
  let r := streamRate s n
  let b := 2 ^ s.get Fd.SCR_CTRL_BLK
  (r.1 * (b + 4096), r.2 * b)

/-- BUDGET in bytes a second (R311). -/
def scrBudget (s : State) : Nat :=
  let ports := usedPorts s
  min 52000000000 (ports.length * (minN? (ports.map (fun p => s.get (Fd.DRV_WBW p)))).getD 0 * 1000000) - 100000000

/-- The streams enabled. -/
def enabledStreams (s : State) : List Nat := (List.range 15).filter (fun n => s.on (Fd.SS_CTRL_EN n))

/-- The admitted sum over the enabled streams. -/
def admSum (s : State) : Nat × Nat := fracSum ((enabledStreams s).map (admRate s))

/-- A fraction of bytes a second in MB/s, truncated. -/
def inMB (f : Nat × Nat) : Nat := f.1 / (f.2 * 1000000)

/-- Admission at a landing (R311): the streams that start or change are refused, highest number first, until the sum
fits. -/
def admitStreams (s : State) : List Nat → State
  | [] => s
  | n :: rest =>
    let sum := admSum s
    if sum.1 ≤ scrBudget s * sum.2 then s
    else
      let rate := inMB (admRate s n)
      admitStreams ((s.set (Fd.SS_CTRL_EN n) 0).raise 0x0A07 [.w4 n, .w4 rate, .w4 (scrBudget s / 1000000)]) rest

/-- ADM_RATE, BUDGET and RADM follow the streams (R311). -/
def admShow (s : State) : State :=
  let s1 := (s.set Fd.SCR_ADM_RATE (inMB (admSum s))).set Fd.SCR_BUDGET (scrBudget s / 1000000)
  s1.each (List.range 15) (fun n s => s.set (Fd.SS_RADM n) (if s.on (Fd.SS_CTRL_EN n) then inMB (admRate s n) else 0))

/-! ### The log stream (R321) -/

/-- An entry of S15: a type word, a length word and a body (R321). -/
def logAppend (t : Tick) (type : Nat) (body : List Byte) (s : State) : State :=
  { s with scr := { s.scr with log := s.scr.log ++ [(t, le 4 type ++ le 4 body.length ++ body)] } }

/-- The offsets of a register's instances. -/
def RegDesc.offsets (d : RegDesc) : List Nat :=
  (List.range d.n1).flatMap (fun i => (List.range d.n2).map (fun j => d.off + i * d.s1 + j * d.s2))

/-- Whether a register has an RW or RWP field. -/
def RegDesc.settable (d : RegDesc) : Bool := d.fields.any (fun f => f.acc == .rw || f.acc == .rwp)

/-- The offsets of the registers of the configuration snapshot (R321). -/
def snapOffsets : List Nat :=
  ((RegMap.asyRegs ++ RegMap.ddcRegs ++ RegMap.spxRegs ++ RegMap.trgRegs ++ RegMap.hoopRegs ++ RegMap.denRegs).filter
    RegDesc.settable).flatMap RegDesc.offsets

/-- The body of the configuration snapshot (R321): (address, value) pairs, then each channel's coefficient set as a
record of R138 and its CSID. -/
def snapBody (s : State) (l : Tick) : List Byte :=
  snapOffsets.flatMap (fun a => le 4 a ++ le 4 (s.rd a)) ++
  [0, 1, 2, 3].flatMap (fun c => le 4 (s.get (Fd.ASY_CSID c)) ++
    calRecord c s.asyQ 0 0 l (s.get Fd.AGE_TDIE) (s.get (Fd.ASY_CONV_TEMP c)) 0x8000 (storedSet s c))

/-- The code of a pending entry's kind in a journal entry. -/
def PendKind.code : PendKind → Nat
  | .field => 0
  | .pair => 1
  | .action => 2

/-- The body of a journal entry (R321): register, lowest bit, width, kind, value, landing. -/
def journalBody (l : Tick) (e : PendEntry) : List Byte :=
  le 4 e.off ++ le 1 e.lo ++ le 1 e.width ++ le 1 e.kind.code ++ le 1 0 ++ le 8 e.value ++ le 8 l.toNat

/-- Entries of the calibration log that are complete go into S15, and LOG_RD advances (R321). -/
def pullCal (t : Tick) : Nat → State → State
  | 0, s => s
  | n + 1, s =>
    let rd := s.get Fd.ASY_LOG_RD
    if rd = s.get Fd.ASY_LOG_WR then s
    else
      let a := s.rd64 0x400D0 + 2048 * rd
      let q := s.loadN (a + 7) 1
      let s1 := logAppend t 2 (s.load a (0x34 + 16 * q)) s
      pullCal t n (s1.set Fd.ASY_LOG_RD ((rd + 1) % max 1 (s.get Fd.ASY_LOG_SIZE)))

/-- Entries of the external-event log that are complete go into S15, and XLOG_RD advances (R321). -/
def pullXlog (t : Tick) : Nat → State → State
  | 0, s => s
  | n + 1, s =>
    let rd := s.get Fd.TRG_XLOG_RD
    if rd = s.get Fd.TRG_XLOG_WR then s
    else
      let s1 := logAppend t 3 (s.load (s.rd64 0x70030 + 16 * rd) 16) s
      pullXlog t n (s1.set Fd.TRG_XLOG_RD ((rd + 1) % max 2 (s.get Fd.TRG_XLOG_SIZE)))

/-- A log loss is recorded once while its bit stays set (R321). -/
def logLoss (unit : Nat) (set' : Bool) (t : Tick) (s : State) : State :=
  let seen := s.scr.lossSeen.contains unit
  if set' && !seen then
    let s1 := logAppend t 5 (le 4 unit ++ le 8 t.toNat) s
    ({ s1 with scr := { s1.scr with loss := true, lossSeen := unit :: s1.scr.lossSeen } }).raise 0x0A0D [.w4 unit, .t t]
  else if !set' && seen then { s with scr := { s.scr with lossSeen := s.scr.lossSeen.filter (fun u => u != unit) } }
  else s

/-- While Scrivener records, it takes what the logs hold (R321). -/
def scrPull (s : State) : State :=
  if s.get Fd.SCR_STATUS_STATE != 1 then s
  else
    let t := s.tRel
    let s1 := pullXlog t (s.get Fd.TRG_XLOG_SIZE) (pullCal t (s.get Fd.ASY_LOG_SIZE) s)
    logLoss 6 (s1.on Fd.TRG_XLOG_STATUS_OVF) t (logLoss 3 (s1.on Fd.ASY_STATUS_LOG_OVF) t s1)

/-! ### Elements (R305 to R307, R314) -/

/-- An element of a record stream: its stamp, its flags and its bytes, none for an element that is lost (R314). -/
structure RecElem where
  t : Tick
  fl : Nat
  bytes : List Byte
  /-- slot of a Tally queue entry -/
  slot : Nat

/-- Whether a Hoop record is intact (R252). -/
def hoopIntact (s : State) (n : Nat) (r : HoopRec) : Bool :=
  let st := (s.hw n).st
  (decide ((s.get (Fd.HW_FILLING_SEQ n) + 2 ^ 32 - r.rseq) % 2 ^ 32 < s.get (Fd.HW_NSEG n)) || st == .done || st == .off) &&
    (let h := s.load r.hdr 64
     crcGood h && fieldAt h 0x28 4 == r.rseq)

/-- A Hoop record as an element: header and data, or lost (R314). -/
def hoopElem (s : State) (n : Nat) (r : HoopRec) : RecElem :=
  if hoopIntact s n r then
    let data := (List.range r.nsamp).flatMap (fun i => s.load (r.slot + (r.first + i) % max 1 r.cap * r.size) r.size)
    ⟨r.t0, r.fl, s.load r.hdr 64 ++ data, 0⟩
  else ⟨r.t0, r.fl, [], 0⟩

/-- Whether a stamp lies in a run. -/
def StrSt.holds (r : StrSt) (t : Tick) : Bool := tle r.start t && r.stop.all (fun l => tlt t l)

/-- The records of a run not yet handed on, oldest first; KIND 6 stands for S15. -/
def recElems (s : State) (r : StrSt) : List RecElem :=
  let spec (l : List SpecRec) : List RecElem :=
    ((l.filter (fun x => r.holds x.t)).map (fun x => (⟨x.t, x.fl, x.bytes, x.marks⟩ : RecElem))).reverse
  let all := match r.kind with
    | 2 => spec (look [] s.spx.recs (trKey (r.idx % 4) (r.idx / 4)))
    | 3 => spec (look [] s.scr.lines r.idx)
    | 4 => (((look [] s.scr.hoop r.idx).filter (fun (x : HoopRec) => r.holds x.t0)).map (hoopElem s r.idx)).reverse
    | 5 => spec (look [] s.scr.tally r.idx)
    | _ => s.scr.log.map (fun (e : Tick × List Byte) => (⟨e.1, 0, e.2, 0⟩ : RecElem))
  all.drop r.taken

/-- The samples of a run not yet handed on, oldest first. -/
def sampElems (s : State) (r : StrSt) : List Samp :=
  let src := if r.kind = 0 then (s.stream r.idx).reverse else cdSamples s r.idx
  src.filter (fun x => r.holds x.t && tle r.next x.t)

/-- Whether a run has ended: it has a stop, and its source delivers nothing more before it. -/
def runEnded (s : State) (r : StrSt) : Bool :=
  match r.stop with
  | none => false
  | some l =>
    let past (o : Option Tick) : Bool := o.all (fun t => tle l t)
    match r.kind with
    | 0 => tle l s.sys.next || !s.sys.counting
    | 1 => past (streamNext s (srcKey (s.get (Fd.CD_CTRL_KIND r.idx)) (s.get (Fd.CD_CTRL_IDX r.idx))))
    | 2 => (s.trace (r.idx % 4) (r.idx / 4)).frame.isNone && past (nextFrame s (r.idx % 4))
    | 3 => (s.sg r.idx).frame.isNone && past (nextFrame s r.idx)
    | 4 => (s.hw r.idx).rec'.isNone && (s.hw r.idx).headers.isEmpty
    | _ => tle l s.sys.next || !s.sys.counting

/-- Samples packed as R306 lays down: component j of the payload is bits [15:16−b] of its value. -/
def packSamples (b : Nat) (cx : Bool) (l : List Samp) : List Byte :=
  let top (v : Int) : Nat := encI 16 v / 2 ^ (16 - b)
  let comps := l.flatMap (fun x => if cx then [top x.i, top x.q] else [top x.i])
  let big := comps.foldr (fun v acc => v + 2 ^ b * acc) 0
  le ((comps.length * b + 7) / 8) big

/-! ### Blocks (R307, R309, R312, R313) -/

/-- A block as it closes. -/
structure Blk where
  t0 : Tick
  t1 : Tick
  nelem : Nat
  fl : Nat
  marks : Nat
  payload : List Byte

/-- Bytes of a raw folio of a payload (R313, R317). -/
def rawFolio (payload : Nat) : Nat := ceilTo 4096 (84 + payload)

/-- Staging held outside the reserve. -/
def stagingHeld (s : State) : Nat := sumL (s.scr.folios.map Folio.held)

/-- Whether a raw folio finds no room outside the reserve (R313). -/
def stagingShort (s : State) (n : Nat) : Bool :=
  decide ((s.get Fd.SCR_STAGE_SIZE - 64) * 2 ^ 20 - stagingHeld s < n)

/-- The next block sequence of a stream, and the state with it counted. -/
def nextBseq (n : Nat) (s : State) : Nat × State :=
  if n = 15 then (s.scr.logSeq, { s with scr := { s.scr with logSeq := s.scr.logSeq + 1 } })
  else (s.get (Fd.SS_BSEQ n), s.count (Fd.SS_BSEQ n))

/-- The bytes of a folio header (R317). -/
def folioHeader (rid : Nat) (f : Folio) (ulen flen : Nat) : List Byte :=
  withCrc (le 4 0x494C4F46 ++ le 1 1 ++ le 1 f.sid ++ le 1 f.fl ++ le 1 f.marks ++ le 8 rid ++ le 8 f.lseq ++ le 4 f.bseq ++
    le 1 f.greason ++ zeros 3 ++ le 8 f.t0.toNat ++ le 8 f.t1.toNat ++ le 4 f.nelem ++ le 4 ulen ++ le 4 flen)

/-- A folio with its final bytes (R317): the block, or none for a gap folio. -/
def folioDone (s : State) (f : Folio) (block : List Byte) : Folio :=
  let flen := ceilTo 4096 (64 + block.length)
  let h := folioHeader (s.rd64 0xB0018) f (if block.isEmpty then 0 else f.payload.length) flen
  { f with engine := none, bytes := h ++ block ++ zeros (flen - 64 - block.length) }

/-- A folio stored raw with a reason of R309: RAW and the reason stand in its marks. -/
def folioRaw (s : State) (f : Folio) (reason : Nat) : Folio :=
  let g := { f with raw := some reason, marks := Nat.lor f.marks (2 + 32 * reason) }
  folioDone s g (storedBlock reason f.payload)

/-- A folio is staged last (R312, R317); the staging write is an opportunity of R589. -/
def stageFolio (f : Folio) (s : State) : State :=
  ptbOpportunity 3 { s with scr := { s.scr with folios := s.scr.folios ++ [f], lseq := s.scr.lseq + 1 } }

/-- The open gap of a run becomes a gap folio in the reserve (R313, R314); `next` is the stamp of the element after
it. -/
def stageGap (n : Nat) (r : StrSt) (next : Option Tick) (s : State) : State :=
  match r.gap with
  | none => s
  | some (a, b, k, reason) =>
    let beside := r.kind = 4 ∨ r.kind = 5
    let t0 := if beside then r.prev else a
    let t1 := if beside then next.getD r.prev else b
    let q := nextBseq n s
    let f : Folio := ⟨n, s.scr.lseq, q.1, t0, t1, k, Df.gap, 1, reason, [], none, none, [], 0⟩
    stageFolio (folioDone s f []) q.2

/-- The engine that takes a block: the lowest-numbered one free and in service (R308). -/
def freeEngine (s : State) : Option Nat :=
  (List.range 16).find? (fun e => !s.age.engOut.contains e && !(s.scr.folios.any (fun f => f.engine == some e)))

/-- A block is staged after the open gap of its stream (R308, R309, R312): held for an engine, or final at once. -/
def stageBlock (n : Nat) (r : StrSt) (b : Blk) (s : State) : State :=
  let s1 := stageGap n r (some b.t0) s
  let q := nextBseq n s1
  let held := if n = 15 then 0 else rawFolio b.payload.length
  let f : Folio := ⟨n, s1.scr.lseq, q.1, b.t0, b.t1, b.nelem, b.fl, b.marks, 0, b.payload, none, none, [], held⟩
  let s2 := q.2
  if !r.comp then stageFolio (folioRaw s2 f 0) s2
  else match freeEngine s2 with
    | none => stageFolio (folioRaw s2 f 3) s2
    | some e => stageFolio { f with engine := some e } s2

/-- An element or a span is added to the open gap of a run; a gap of another reason is written first. -/
def openGap (n : Nat) (r : StrSt) (a b : Tick) (k reason : Nat) (s : State) : StrSt × State :=
  match r.gap with
  | some (a0, _, k0, r0) =>
    if r0 = reason then ({ r with gap := some (a0, b, k0 + k, r0) }, s)
    else ({ r with gap := some (a, b, k, reason) }, stageGap n r (some a) s)
  | none => ({ r with gap := some (a, b, k, reason) }, s)

/-- A block is handed on: staged, or dropped where staging is short (R313). -/
def handOn (n : Nat) (r : StrSt) (b : Blk) (s : State) : StrSt × State :=
  if n != 15 && stagingShort s (rawFolio b.payload.length) then
    let g := openGap n r b.t0 b.t1 b.nelem 1 s
    (g.1, ((g.2.bump Fd.SCR_GAPS).bump (Fd.SS_DROPPED n)).raisePerLanding n 0x0A08 [.w4 n, .t b.t0])
  else ({ r with gap := none, prev := b.t1 }, stageBlock n r b s)

/-- The whole records that fit a block of `cap` bytes: those taken and what follows; a lost record ends them. -/
def fitting (cap : Nat) : List RecElem → List RecElem × List RecElem
  | [] => ([], [])
  | e :: es =>
    if e.bytes.isEmpty || cap < e.bytes.length then ([], e :: es)
    else
      let r := fitting (cap - e.bytes.length) es
      (e :: r.1, r.2)

/-- The PARTIAL, CONT and LOSSY marks of a folio (R317). -/
def mkLossy : Nat := 4
def mkPartial : Nat := 8
def mkCont : Nat := 16

/-- RD of a Tally queue follows the entries that Scrivener has read (R387). -/
def tallyRead (r : StrSt) (es : List RecElem) (s : State) : State :=
  if r.kind != 5 then s
  else match es.getLast? with
    | some e => s.set (Fd.EV_RD r.idx) ((e.slot + 1) % 65536)
    | none => s

/-- The next block of a sample run, if one closes (R307). -/
def closeSamples (n : Nat) (r : StrSt) (s : State) : Option (StrSt × State) :=
  let els := sampElems s r
  let m := streamComps s r.kind r.idx
  let full := 2 ^ s.get Fd.SCR_CTRL_BLK * 8 / (r.width * m)
  let done := els.length < full
  if done && (!runEnded s r || els.isEmpty) then none
  else
    let l := els.take full
    let t0 := (l.head?.map Samp.t).getD r.next
    let t1 := (l.getLast?.map Samp.t).getD r.next
    let lossy := if r.kind = 1 ∧ r.width < 16 then mkLossy else 0
    let fl := l.foldl (fun a x => Nat.lor a x.fl) 0
    let b : Blk := ⟨t0, t1, l.length, fl, (if done then mkPartial else 0) + lossy, packSamples r.width (m == 2) l⟩
    some (handOn n { r with next := t1 + 1 } b s)

/-- The next block of a record run, if one closes (R307, R314): a lost record goes into the gap; a record longer than a
block is carried over several. -/
def closeRecords (n : Nat) (r : StrSt) (s : State) : Option (StrSt × State) :=
  let cap := 2 ^ s.get Fd.SCR_CTRL_BLK
  match recElems s r with
  | [] => none
  | e :: es =>
    if e.bytes.isEmpty then
      let g := openGap n { r with taken := r.taken + 1 } e.t e.t 1 2 s
      some (g.1, tallyRead r [e] (g.2.bump (Fd.SS_DROPPED n)))
    else if cap < e.bytes.length then
      let piece := (e.bytes.drop r.part).take cap
      let last := decide (e.bytes.length ≤ r.part + cap)
      let r1 := if last then { r with taken := r.taken + 1, part := 0 } else { r with part := r.part + cap }
      let b : Blk := ⟨e.t, e.t, if r.part = 0 then 1 else 0, e.fl, if r.part = 0 then 0 else mkCont, piece⟩
      some (handOn n r1 b s)
    else
      let f := fitting cap (e :: es)
      let used := sumL (f.1.map (fun x => x.bytes.length))
      let lastLen := (f.1.getLast?.map (fun x => x.bytes.length)).getD 0
      let full := !f.2.isEmpty || (r.kind != 4 && decide (cap < used + lastLen))
      if !full && !runEnded s r then none
      else
        let t1 := (f.1.getLast?.map RecElem.t).getD e.t
        let fl := f.1.foldl (fun a x => Nat.lor a x.fl) 0
        let b : Blk := ⟨e.t, t1, f.1.length, fl, if full then 0 else mkPartial, f.1.flatMap RecElem.bytes⟩
        some (handOn n { r with taken := r.taken + f.1.length } b (tallyRead r f.1 s))

/-- BLOCK_CLOSE (R307): the next block of stream n is full, or the stream has ended, and it is handed on; an ended run
with nothing left gives way to the next. -/
def blockClose (n : Nat) (s : State) : State :=
  match look [] s.scr.streams n with
  | [] => s
  | r :: rest =>
    let res := if r.kind < 2 then closeSamples n r s else closeRecords n r s
    match res with
    | some (r1, s1) => { s1 with scr := { s1.scr with streams := keep s1.scr.streams n (r1 :: rest) } }
    | none =>
      let left := if r.kind < 2 then (sampElems s r).length else (recElems s r).length
      if runEnded s r && left == 0 then
        let s1 := stageGap n r none s
        { s1 with scr := { s1.scr with streams := keep s1.scr.streams n rest } }
      else s

/-- BLOCK_CLOSE (R307). -/
def execBlockClose (stream : Fin 16) (s : State) : Out := .next (blockClose stream.val s)

/-- A folio of the staging ring replaced. -/
def putFolio (f : Folio) (s : State) : State :=
  { s with scr := { s.scr with folios := s.scr.folios.map (fun g => if g.lseq = f.lseq then f else g) } }

/-- COMPRESSION_END (R308, R309, R591): the engine's output, decoded again, is compared with the staged payload; a
difference marks the engine faulty, and a form that is not smaller is dropped. -/
def compressionEnd (e : Nat) (coded : List Byte) (s : State) : State :=
  match s.scr.folios.find? (fun f => f.engine == some e) with
  | none => s
  | some f =>
    if decodeData f.payload.length coded != some f.payload then
      let s1 := (putFolio (folioRaw s f 2) s).bump Fd.SCR_VFAIL
      let s2 := s1.raise 0x0A09 [.w4 e, .w4 f.sid, .w4 f.bseq]
      let s3 := { s2 with age := { s2.age with engOut := e :: s2.age.engOut } }.raise 0x1125 [.w4 e]
      ageFault 0x1125 (timeNow s3).toNat s3
    else
      let block := codedBlock f.payload coded
      if rawFolio f.payload.length ≤ ceilTo 4096 (64 + block.length) then putFolio (folioRaw s f 1) s
      else putFolio (folioDone s f block) s

/-- COMPRESSION_END (R308). -/
def execCompressionEnd (engine : Fin 16) (coded : List Byte) (s : State) : Out :=
  .next (compressionEnd engine.val coded s)

/-- FOLIO_WRITE_END (R312, R317, R320): every write of the oldest folio has completed; its staging is freed, and a
recording that is running out of capacity is to close. -/
def folioWriteEnd (s : State) : State :=
  match s.scr.folios with
  | [] => s
  | f :: rest =>
    if f.bytes.isEmpty then s
    else
      let s1 := volStore s.scr.off f.bytes (f.bytes.length / 4096) s
      let off := s.scr.off + f.bytes.length
      let full := decide (volCap s < off + 2 * s.get Fd.SCR_STAGE_SIZE * 2 ^ 20)
      let req := if full && s.get Fd.SCR_STATUS_STATE = 1 && s1.scr.closeReq.isNone then some 2 else s1.scr.closeReq
      { s1 with scr := { s1.scr with folios := rest, off := off, written := some f.lseq, closeReq := req } }

/-- FOLIO_WRITE_END (R312). -/
def execFolioWriteEnd (s : State) : Out := .next (folioWriteEnd s)

/-- CKPT_FLUSH (R319): Flush has completed on every used drive; the folios written before it survive a loss of
power. -/
def execCkptFlush (s : State) : Out :=
  if s.get Fd.SCR_STATUS_STATE = 1 ∨ s.get Fd.SCR_STATUS_STATE = 2 then
    .next { s with scr := { s.scr with flushed := s.scr.written } }
  else .next s

/-! ### Recordings (R318 to R320) -/

/-- A stream's run starts at L (R318). -/
def streamStart (n : Nat) (l : Tick) (s : State) : State :=
  let kind := if n = 15 then 6 else s.get (Fd.SS_CTRL_KIND n)
  let idx := s.get (Fd.SS_CTRL_IDX n)
  let b := if n = 15 then 16 else packWidth (s.get (Fd.SS_CTRL_PACK n))
  let comp := n != 15 && s.on (Fd.SS_CTRL_COMP n)
  let lists := recElems s ⟨l, none, kind, idx, b, comp, 0, l, 0, l, none⟩
  let r : StrSt := ⟨l, none, kind, idx, b, comp, lists.length, l, 0, l, none⟩
  let desc := le 1 kind ++ le 1 idx ++ le 1 b ++ le 1 (b2n comp) ++ le 4 (s.get (Fd.SS_RATE_MB n)) ++ zeros 8
  let s1 := { s with scr := { s.scr with streams := keep s.scr.streams n (look [] s.scr.streams n ++ [r]) } }
  if n = 15 then s1 else { s1 with scr := { s1.scr with desc := keep s1.scr.desc n desc } }

/-- A stream's last run ends before L (R318). -/
def streamEnd (l : Tick) (n : Nat) (s : State) : State :=
  let runs := (look [] s.scr.streams n).map (fun r => if r.stop.isNone then { r with stop := some l } else r)
  { s with scr := { s.scr with streams := keep s.scr.streams n runs } }

/-- PACK held to the converter resolution for a KIND 0 stream that starts (R306). -/
def packClamp (n : Nat) (s : State) : State :=
  let most := [2, 1, 0].getD (s.get Fd.ING_MODE_NRES) 0
  if s.get (Fd.SS_CTRL_KIND n) = 0 ∧ most < s.get (Fd.SS_CTRL_PACK n) then
    (s.set (Fd.SS_CTRL_PACK n) most).clamped
  else s

/-- A recording closes at L with a cause: every stream ends (R320). -/
def scrClose (l : Tick) (cause : Nat) (s : State) : State :=
  if s.get Fd.SCR_STATUS_STATE != 1 then s
  else
    let s1 := s.each (List.range 16) (streamEnd l)
    let s2 := { s1 with scr := { s1.scr with closeReq := none, cause := cause } }
    (s2.set Fd.SCR_CTRL_REC 0).set Fd.SCR_STATUS_STATE 2

/-- A start is refused (R318, cause 4). -/
def recRefuse (s : State) : State :=
  (s.set Fd.SCR_CTRL_REC 0).raise 0x0A06 [.w4 4, .w8 (s.rd64 0xB0018), .w8 0]

/-- Whether any analysis unit ran before a landing (R324). -/
def anyAnalysis (s : State) : Bool :=
  (List.range 4).any (fun c => ddcRunning s c || spxRunning s c || s.on (Fd.DEN_CTRL_EN c)) ||
  (List.range 64).any (fun z => zcRunning s z) ||
  (List.range 8).any (fun n => s.on (Fd.TU_CTRL_EN n) || (s.hw n).st != .off)

/-- The highest RID in a valid label on the used drives (R318). -/
def highestRid (s : State) : Nat :=
  maxL ((usedPorts s).flatMap (fun p => ((readLabel s p 0).toList ++ (readLabel s p 1).toList).map (fun b => fieldAt b 8 8)))

/-- A recording starts at L (R318): `fresh` is FRESH of R324. -/
def recStart (l : Tick) (fresh : Bool) (s : State) : State :=
  let ports := usedPorts s
  let rid := highestRid s + 1
  let label := le 4 (s.get Fd.ING_FS_KHZ) ++ le 1 (s.get Fd.SCR_CTRL_SU) ++ le 1 (s.get Fd.SCR_CTRL_BLK) ++
    le 1 (s.get Fd.SYS_LANDING_CFG_K) ++ le 1 0 ++ le 4 (s.rd Fd.ING_MODE.off) ++ le 4 0
  let scr := { s.scr with
    dead := []
    retried := []
    streams := []
    desc := []
    folios := []
    lseq := 0
    logSeq := 0
    off := 0
    written := none
    flushed := none
    tRec := l
    used := ports
    label := label
    loss := false
    lossSeen := []
    log := []
    closeReq := none
    cause := 0 }
  let s1 := ((({ s with scr := scr }.wr64 0xB0018 rid).set Fd.SCR_STATUS_STATE 1).set Fd.SCR_STATUS_QUIESCENT 0).set
    Fd.SCR_STATUS_FRESH (b2n fresh)
  let s2 := s1.each (List.range 15) (fun n s => s.set (Fd.SS_BSEQ n) 0)
  let s3 := logAppend l 4 (snapBody s2 l) (streamStart 15 l s2)
  let cand := enabledStreams s3
  let s4 := s3.each cand packClamp
  let s5 := admShow (admitStreams s4 cand.reverse)
  let s6 := s5.each (enabledStreams s5) (fun n s => streamStart n l s)
  (writeLabels (2 ^ 64 - 1) (2 * b2n fresh) s6).raise 0x0A05 [.w8 rid, .t l]

/-- The fields that decide what a stream records. -/
def streamFields (n : Nat) : List Fld := [Fd.SS_CTRL_EN n, Fd.SS_CTRL_KIND n, Fd.SS_CTRL_IDX n, Fd.SS_CTRL_PACK n]

/-- Streams that start, change or end at a landing during a recording (R311, R318). -/
def streamsLand (old : State) (l : Tick) (s : State) : State :=
  let changed := (List.range 15).filter (fun n => anyChanged old s (streamFields n))
  if changed.isEmpty then s
  else
    let s1 := s.each changed (streamEnd l)
    let cand := changed.filter (fun n => s1.on (Fd.SS_CTRL_EN n))
    let s2 := s1.each cand packClamp
    let s3 := admShow (admitStreams s2 cand.reverse)
    s3.each (cand.filter (fun n => s3.on (Fd.SS_CTRL_EN n))) (fun n s => streamStart n l s)

/-- Scrivener at a landing (R318, R320, R321): the journal, then a close, a start or changes of streams. -/
def scrLand (old : State) (l : Tick) (landed : List PendEntry) (s : State) : State :=
  let st := s.get Fd.SCR_STATUS_STATE
  let rec' := s.on Fd.SCR_CTRL_REC
  if st = 1 then
    let s1 := s.each landed (fun e s => logAppend l 1 (journalBody l e) s)
    if !rec' then scrClose l 0 s1
    else match s1.scr.closeReq with
      | some c => scrClose l c s1
      | none => streamsLand old l s1
  else if rec' && (s.sys.fresh || !old.on Fd.SCR_CTRL_REC) then
    let ports := usedPorts s
    let ready := !ports.isEmpty && ports.all (fun p => s.get (Fd.DRV_STATUS_STATE p) == 2)
    if st = 0 && ready && s.on Fd.SCR_CTRL_EN then recStart l (!anyAnalysis old) s else recRefuse s
  else s

/-- RECORDING_CLOSED (R320): once the last folio is written, Flush, the closed labels, event 0x0A06, IDLE. -/
def execRecordingClosed (s : State) : Out :=
  if s.get Fd.SCR_STATUS_STATE = 2 ∧ s.scr.folios = [] ∧ (s.scr.streams.all (fun e => e.2.isEmpty)) = true then
    let endSeq := s.scr.lseq - 1
    let flags := 1 + 2 * s.get Fd.SCR_STATUS_FRESH + 4 * b2n s.scr.loss
    let s1 := writeLabels endSeq flags { s with scr := { s.scr with flushed := s.scr.written, streams := [] } }
    let s2 := s1.raise 0x0A06 [.w4 s.scr.cause, .w8 (s.rd64 0xB0018), .w8 endSeq]
    .next ((s2.set Fd.SCR_STATUS_STATE 0).set Fd.SCR_STATUS_QUIESCENT 1)
  else .next s

/-! ### Drives (R328, R329) -/


/-- The drive at a port is set to FAILED (R329): a recording that uses it closes with cause 1. -/
def driveFail (p opcode status : Nat) (s : State) : State :=
  let s1 := ((s.set (Fd.DRV_STATUS_STATE p) 4).set (Fd.DRV_STATUS_REASON p) (Config.failReason p s.free).toNat).fresh
  let s2 := s1.raise 0x0A03 [.w4 p, .w4 opcode, .w4 status]
  if s2.get Fd.SCR_STATUS_STATE = 1 && s2.scr.used.contains p then
    { s2 with scr := { s2.scr with dead := p :: s2.scr.dead, closeReq := some 1 } }
  else if s2.get Fd.SCR_STATUS_STATE = 2 && s2.scr.used.contains p then
    { s2 with scr := { s2.scr with dead := p :: s2.scr.dead, cause := 1 } }
  else s2

/-- Whether a drive is in bring-up or in use. -/
def driveLive (s : State) (p : Nat) : Bool :=
  s.onBit Fd.SCR_CTRL_DRV_EN p && (s.get (Fd.DRV_STATUS_STATE p) == 1 || s.get (Fd.DRV_STATUS_STATE p) == 2)

/-- DRIVE_BRINGUP (R328): the link of an enabled port has trained with a width and a speed, and bring-up ends. -/
def driveBringUp (p width speed nlba : Nat) (vwc : Bool) (res : Nat) (s : State) : State :=
  if !(s.onBit Fd.SCR_CTRL_DRV_EN p && s.get (Fd.DRV_STATUS_STATE p) == 1) then s
  else
    let s1 := (s.set (Fd.DRV_STATUS_WIDTH p) width).set (Fd.DRV_SPEED p) speed
    if res != 0 then ((s1.set (Fd.DRV_STATUS_STATE p) 3).set (Fd.DRV_STATUS_REASON p) res).raise 0x0A02 [.w4 p, .w4 res]
    else
      let s2 := ((s1.set (Fd.DRV_STATUS_STATE p) 2).set (Fd.DRV_STATUS_VWC p) (b2n vwc)).wr64 (0xB040C + 0x40 * p) nlba
      s2.raise 0x0A01 [.w4 p, .w4 width, .w4 speed]

/-- DRIVE_BRINGUP (R328). -/
def execDriveBringup (port : Fin 4) (width : Fin 3) (speed : Fin 6) (nlba : Nat) (vwc : Bool) (reason : Fin 4)
    (s : State) : Out := .next (driveBringUp port.val width.val speed.val nlba vwc reason.val s)

/-- NVME_COMPLETION (R329): an error status has the command issued once more; a second one fails the drive. -/
def nvmeCompletion (p opcode status : Nat) (s : State) : State :=
  if !driveLive s p then s
  else
    let again := s.scr.retried.contains (p, opcode)
    let rest := s.scr.retried.filter (fun r => r != (p, opcode))
    if status = 0 then { s with scr := { s.scr with retried := rest } }
    else if again then driveFail p opcode status { s with scr := { s.scr with retried := rest } }
    else { s with scr := { s.scr with retried := (p, opcode) :: s.scr.retried } }

/-- NVME_COMPLETION (R329). -/
def execNvmeCompletion (port : Fin 4) (opcode : Byte) (status : BitVec 16) (s : State) : Out :=
  .next (nvmeCompletion port.val opcode.toNat status.toNat s)

/-- NVME_TIMEOUT (R329): a command has not completed within 2 s. -/
def execNvmeTimeout (port : Fin 4) (opcode : Byte) (s : State) : Out :=
  if driveLive s port.val then .next (driveFail port.val opcode.toNat 0xFFFF s) else .next s

/-- SMART_POLL (R328): the health log page of a drive has been read. -/
def execSmartPoll (port : Fin 4) (temp : BitVec 16) (crit : Byte) (s : State) : Out :=
  let p := port.val
  if s.get (Fd.DRV_STATUS_STATE p) != 2 then .next s
  else
    let s1 := (s.set (Fd.DRV_SMART_TEMP p) temp.toNat).set (Fd.DRV_SMART_CRIT p) crit.toNat
    .next (if crit = 0 then s1
      else (s1.set (Fd.DRV_STATUS_CRITWARN p) 1).raise 0x0A04 [.w4 p, .w4 crit.toNat])

/-- DRV_EN has been written (R328, R329): a port newly set starts its bring-up, a port cleared turns its drive off. -/
def drvEnWrite (old : Nat) (s : State) : State :=
  s.each (List.range 4) (fun p s =>
    let now := s.onBit Fd.SCR_CTRL_DRV_EN p
    if now && !bit old p then ((s.wr (0xB0404 + 0x40 * p) 1).wr64 (0xB040C + 0x40 * p) 0).wr (0xB0408 + 0x40 * p) 0
    else if !now && bit old p then (s.wr (0xB0404 + 0x40 * p) 0).wr (0xB0408 + 0x40 * p) 0
    else s)

/-- Scrivener's counters are cleared. -/
def scrCntClear (s : State) : State :=
  let s1 := (((s.set Fd.SCR_GAPS 0).set Fd.SCR_VFAIL 0).set Fd.SCR_PB_MISSING 0).set Fd.SCR_PB_STALLS 0
  s1.each (List.range 15) (fun n s => s.set (Fd.SS_DROPPED n) 0)

end Sys2Proof.Machine
end

