-- ==== Sys2Proof/Machine/Playback.lean ====
section
/-! DEFINITION. Scrivener, playback (R322 to R327): the label and the log read back, the read-ahead of the KIND 0 streams,
the recorded changes, coefficient records and external events. The epoch of a playback and its end stand in
`Machine/Replay.lean`. -/

namespace Sys2Proof.Machine

/-! ### Reading folios (R326) -/

/-- A valid folio of the log. -/
structure LogFolio where
  sid : Nat
  lseq : Nat
  t0 : Tick
  t1 : Tick
  nelem : Nat
  greason : Nat
  fl : Nat
  flen : Nat
  payload : List Byte

/-- The volume that a playback reads: the ports of the drives, the stripe exponent and the recording's identifier. -/
structure Volume where
  ports : List Nat
  su : Nat
  rid : Nat

/-- The folio at a logical offset, if its header and its block pass their checks and its RID matches (R326, R345). -/
def folioAt (s : State) (v : Volume) (off : Nat) : Option LogFolio :=
  let h := (volLoad s v.ports v.su off 1).take 64
  let flen := fieldAt h 0x38 4
  if !(fieldAt h 0 4 == 0x494C4F46 && fieldAt h 4 1 == 1 && crcGood h && fieldAt h 8 8 == v.rid && decide (64 ≤ flen)) then none
  else
    let f (p : List Byte) : LogFolio := ⟨fieldAt h 5 1 % 16, fieldAt h 0x10 8, BitVec.ofNat 64 (fieldAt h 0x20 8),
      BitVec.ofNat 64 (fieldAt h 0x28 8), fieldAt h 0x30 4, fieldAt h 0x1C 1, fieldAt h 6 1, flen, p⟩
    if fieldAt h 0x1C 1 != 0 then some (f [])
    else
      let block := ((volLoad s v.ports v.su off ((flen + 4095) / 4096)).take flen).drop 64
      match readBlock block with
      | none => none
      | some (p, method) =>
        if p.length = fieldAt h 0x34 4 ∧ bit (fieldAt h 7 1) 1 = (method == 0) then some (f p) else none

/-- The next valid folio from an offset on (R326): its LSEQ is one more than the last, or, after an invalid folio,
greater; with the offset that follows it. -/
def nextFolio (s : State) (v : Volume) : Nat → Nat → Option Nat → Bool → Option (LogFolio × Nat)
  | 0, _, _, _ => none
  | n + 1, off, last, scan =>
    let good (q : Nat) : Bool := match last with
      | none => scan || q == 0
      | some p => if scan then decide (p < q) else q == p + 1
    match folioAt s v off with
    | some f => if good f.lseq then some (f, off + f.flen) else nextFolio s v n (off + 4096) last true
    | none => nextFolio s v n (off + 4096) last true

/-- Pages of 4,096 bytes that a search of the log need look at: none lies beyond the last byte of a drive that is not
zero. -/
def volPages (s : State) (v : Volume) : Nat :=
  let last := maxL (v.ports.map (fun p => ((s.drive p).getLast?.map Prod.fst).getD 0))
  v.ports.length * (last / 4096 + 2 ^ v.su + 1)

/-- Every valid folio of the log in order. -/
def allFolios (s : State) (v : Volume) : Nat → Nat → Option Nat → List LogFolio
  | 0, _, _ => []
  | n + 1, off, last =>
    match nextFolio s v (volPages s v - off / 4096) off last false with
    | none => []
    | some (f, off') => f :: allFolios s v n off' (some f.lseq)

/-- The entries of S15 from its payloads joined: type and body (R321). -/
def logEntries : Nat → List Byte → List (Nat × List Byte)
  | 0, _ => []
  | n + 1, bs =>
    let len := fieldAt bs 4 4
    if bs.length < 8 + len then []
    else (fieldAt bs 0 4, (bs.drop 8).take len) :: logEntries n (bs.drop (8 + len))

/-! ### What S15 restores (R137, R214, R324) -/

/-- The settable bits of a register. -/
def settableMask (off : Nat) : Nat :=
  match RegMap.find off with
  | none => 0
  | some (d, _, _) => sumL (d.fields.map (fun f =>
      if f.acc = .rw ∨ f.acc = .rwp then (2 ^ f.width - 1) * 2 ^ f.lo else 0))

/-- The (address, value) pairs of a snapshot are applied to the RW and RWP fields (R322). -/
def applyPairs : Nat → List Byte → State → State
  | 0, _, s => s
  | n + 1, bs, s =>
    let a := fieldAt bs 0 4
    let m := settableMask a
    let old := s.rd a
    let w := Nat.lor (Nat.land (fieldAt bs 4 4) m) (old - Nat.land old m)
    applyPairs n (bs.drop 8) (s.wr a w)

/-- The coefficient sets at the end of a snapshot. -/
def applySets (bs : List Byte) (s : State) : State :=
  let size := 4 + 0x34 + 16 * s.asyQ
  s.each [0, 1, 2, 3] (fun c s =>
    let e := bs.drop (c * size)
    match readCalRecord (e.drop 4) with
    | some (_, _, _, set) =>
      { s with asy := { s.asy with stored := keep s.asy.stored c set } }.set (Fd.ASY_CSID c) (fieldAt e 0 4)
    | none => s)

/-- The configuration snapshot is applied (R322). -/
def applySnapshot (body : List Byte) (s : State) : State :=
  let n := snapOffsets.length
  applySets (body.drop (8 * n)) (applyPairs n body s)

/-- A journal entry read back: its landing and the change. -/
def readJournal (b : List Byte) : Tick × PendKind × Nat × Nat × Nat × Nat :=
  let kind : PendKind := match fieldAt b 6 1 with
    | 0 => .field
    | 1 => .pair
    | _ => .action
  (BitVec.ofNat 64 (fieldAt b 16 8), kind, fieldAt b 0 4, fieldAt b 4 1, fieldAt b 5 1, fieldAt b 8 8)

/-- An external event read back: code, stamp, flags, LATE (R214). -/
def readXlog (b : List Byte) : Nat × Tick × Nat × Bool :=
  (fieldAt b 8 1, BitVec.ofNat 64 (fieldAt b 0 8), fieldAt b 9 1 / 2, bit (fieldAt b 9 1) 0)

/-- The recorded changes that land at L, as taken entries that come before every other (R324). -/
def pbJournal (s : State) (l : Tick) : List PendEntry :=
  match s.scr.pb with
  | none => []
  | some p => if !p.running then [] else
    (p.journal.filter (fun j => j.1 == l)).map (fun j => ⟨0, j.2.1, j.2.2.1, j.2.2.2.1, j.2.2.2.2.1, j.2.2.2.2.2, true⟩)

/-- The recorded coefficient changes that land at L (R137): a gradual application for a run, at once otherwise. -/
def pbCal (l : Tick) (s : State) : State :=
  match s.scr.pb with
  | none => s
  | some p => s.each ((p.cal.filter (fun e => p.running && e.1 == l)).map Prod.snd) (fun b s =>
      match readCalRecord b with
      | none => s
      | some (c, _, run, set) =>
        let flags := fieldAt b 12 4
        if flags % 32 = 0 then asyStore c l set (run % 2 ^ 25 * 128 + 64) s
        else
          let a : AsyApply := ⟨c, run, storedSet s c, set, 0, l, flags % 32, sext 16 (fieldAt b 0x1C 2)⟩
          { s with asy := { s.asy with applying := s.asy.applying.filter (fun x => x.ch != c) ++ [a] } })

/-! ### Starting (R322) -/

/-- The label copy that a playback takes on a drive: the closed one, else the one with the higher END_LSEQ (R322). -/
def chooseLabel (s : State) (p : Nat) : Option (List Byte) :=
  let closed (b : List Byte) : Bool := bit (fieldAt b 0x27 1) 0
  match readLabel s p 0, readLabel s p 1 with
  | none, o => o
  | some a, none => some a
  | some a, some b =>
    if closed a then some a else if closed b then some b
    else if fieldAt a 0x18 8 < fieldAt b 0x18 8 then some b else some a

/-- The label of the volume: every used drive holds one of the same recording. -/
def volLabel (s : State) : Option (List Byte) :=
  let ls := (usedPorts s).map (chooseLabel s)
  match ls with
  | some l :: _ =>
    if ls.all (fun o => o.any (fun x => fieldAt x 8 8 == fieldAt l 8 8)) && fieldAt l 6 1 == ls.length then some l else none
  | _ => none

/-- A playback is refused (R322). -/
def pbRefuse (s : State) : State := (s.set Fd.SCR_CTRL_PB 0).raise 0x0A0E [.w4 0xB0000]

/-- PLAYBACK_START (R322): the label, then the snapshot and the recorded log; the epoch follows with PLAYBACK_EPOCH. -/
def playbackStart (s : State) : State :=
  if s.get Fd.SCR_STATUS_STATE != 0 || s.ingEn || s.run || !s.on Fd.SCR_CTRL_EN then pbRefuse s
  else match volLabel s with
    | none => pbRefuse s
    | some lb =>
      let v : Volume := ⟨usedPorts s, fieldAt lb 0x24 1, fieldAt lb 8 8⟩
      let tRec : Tick := BitVec.ofNat 64 (fieldAt lb 0x10 8)
      let n := volPages s v
      let es := logEntries n (((allFolios s v n 0 none).filter (fun f => f.sid == 15)).flatMap LogFolio.payload)
      let bodies (t : Nat) : List (List Byte) := (es.filter (fun e => e.1 == t)).map Prod.snd
      let sids := (List.range 15).filter (fun i =>
        fieldAt lb (0x30 + 16 * i) 1 == 0 && fieldAt lb (0x30 + 16 * i + 2) 1 != 0)
      let streams := sids.map (fun i => (i, fieldAt lb (0x30 + 16 * i + 1) 1, fieldAt lb (0x30 + 16 * i + 2) 1))
      let cal := (bodies 2).map (fun b => ((BitVec.ofNat 64 (fieldAt b 0x10 8) : Tick), b))
      let closed := bit (fieldAt lb 0x27 1) 0
      let pb : PbSt := {
        tRec := tRec
        rid := v.rid
        drives := v.ports
        su := v.su
        streams := streams
        off := 0
        lseq := none
        done := false
        endLseq := if closed then some (fieldAt lb 0x18 8) else none
        ahead := sids.map (fun i => (i, []))
        expect := sids.map (fun i => (i, tRec))
        journal := (bodies 1).map readJournal
        cal := cal
        xlog := (bodies 3).map readXlog
        running := false
        stopReq := none
        ended := none }
      let s1 := (((s.set Fd.SYS_LANDING_CFG_K (fieldAt lb 0x26 1)).wr Fd.ING_MODE.off (fieldAt lb 0x28 4)).wr
        Fd.ING_FS_KHZ.off (fieldAt lb 0x20 4)).set Fd.SCR_CTRL_PB 1
      let s2 := match bodies 4 with
        | b :: _ => applySnapshot b s1
        | [] => s1
      let s3 := (s2.set Fd.TRG_XLOG_STATUS_PLAYBACK 1).wr64 0xB0018 v.rid
      let s4 := ((s3.set Fd.SCR_STATUS_STATE 3).set Fd.SCR_STATUS_QUIESCENT 0).set Fd.SCR_STATUS_FRESH
        (bits (fieldAt lb 0x27 1) 1 1)
      { s4 with scr := { s4.scr with pb := some pb } }

/-- PLAYBACK_START (R322): a write of SCR.CTRL.PB = 1. -/
def execPlaybackStart (s : State) : Out := .next (playbackStart s)

/-- A playback is to end at the next landing with cause 2 (R327); before its epoch it ends at once. -/
def playbackStop (s : State) : State :=
  let s0 := s.set Fd.SCR_CTRL_PB 0
  match s.scr.pb with
  | none => s0
  | some p => { s0 with scr := { s0.scr with pb := some { p with stopReq := some 2 } } }

/-- PLAYBACK_STOP_WRITE (R327). -/
def execPlaybackStopWrite (s : State) : Out := .next (playbackStop s)

/-- SCR_DISABLE (R330): EN = 0 closes a recording at the next landing with cause 3, or ends a playback. -/
def scrDisable (s : State) : State :=
  let s0 := s.set Fd.SCR_CTRL_EN 0
  match s.get Fd.SCR_STATUS_STATE with
  | 1 => { s0 with scr := { s0.scr with closeReq := some 3 } }
  | 3 => playbackStop s0
  | _ => s0

/-- SCR_DISABLE (R330). -/
def execScrDisable (s : State) : Out := .next (scrDisable s)

/-! ### The read-ahead (R325, R326) -/

/-- The samples that a payload packs (R306). -/
def unpackSamples (b m n : Nat) (payload : List Byte) : List (Int × Int) :=
  let big := ofLe payload
  let comp (j : Nat) : Int := sext b (bits big (b * j) b) * ((2 ^ (16 - b) : Nat) : Int)
  (List.range n).map (fun i => (comp (m * i), if m = 2 then comp (m * i + 1) else 0))

/-- A missing span of a stream is taken (R326). -/
def pbMissing (p : PbSt) (sid : Nat) (a b : Tick) (s : State) : PbSt × State :=
  let run : PbRun := ⟨a, ((b + 1) - a).toNat, [], true, Df.gap⟩
  let p1 := { p with ahead := keep p.ahead sid (look [] p.ahead sid ++ [run]), expect := keep p.expect sid (b + 1) }
  (p1, (s.bump Fd.SCR_PB_MISSING).raise 0x0A0B [.w4 sid, .t a, .t b])

/-- A folio of a KIND 0 stream is taken into the read-ahead (R326). -/
def pbTake (f : LogFolio) (b : Nat) (p : PbSt) (s : State) : PbSt × State :=
  let e := look p.tRec p.expect f.sid
  if f.greason != 0 then pbMissing p f.sid e f.t1 s
  else
    let r := if tlt e f.t0 then pbMissing p f.sid e (f.t0 - 1) s else (p, s)
    let run : PbRun := ⟨f.t0, f.nelem, unpackSamples b s.im.m f.nelem f.payload, false, f.fl⟩
    ({ r.1 with ahead := keep r.1.ahead f.sid (look [] r.1.ahead f.sid ++ [run]), expect := keep r.1.expect f.sid (f.t1 + 1) },
     r.2)

/-- PLAYBACK_FOLIO_READ (R326): the next folio has been read, or its read has failed. -/
def playbackFolioRead (ok : Bool) (s : State) : State :=
  match s.scr.pb with
  | none => s
  | some p =>
    if p.done then s
    else
      let v : Volume := ⟨p.drives, p.su, p.rid⟩
      let n := volPages s v
      let start := if ok then p.off else p.off + 4096
      let r := match nextFolio s v (n - start / 4096) start p.lseq (!ok) with
        | none => ({ p with done := true }, s)
        | some (f, off) =>
          let p1 := { p with off := off, lseq := some f.lseq, done := p.endLseq == some f.lseq }
          match p.streams.find? (fun (x : Nat × Nat × Nat) => x.1 == f.sid) with
          | some (_, _, b) => pbTake f b p1 s
          | none => (p1, s)
      { r.2 with scr := { r.2.scr with pb := some r.1 } }

/-- PLAYBACK_FOLIO_READ (R326). -/
def execPlaybackFolioRead (ok : Bool) (s : State) : Out := .next (playbackFolioRead ok s)

/-- The sample of a stream with a stamp, from the read-ahead: value and flags. -/
def pbSample (runs : List PbRun) (t : Tick) : Option (Int × Int × Nat) :=
  match runs.find? (fun r => tle r.t0 t && tlt t (tadd r.t0 r.n)) with
  | none => none
  | some r =>
    if r.gap then some (0, 0, Df.gap)
    else (r.data[(t - r.t0).toNat]?).map (fun x => (x.1, x.2, r.fl))

/-- Whether the read-ahead of every KIND 0 stream holds the beat from a stream time on (R323, R325). -/
def pbReady (p : PbSt) (t : Tick) : Bool :=
  p.streams.all (fun (x : Nat × Nat × Nat) => (List.range 16).all (fun i => (pbSample (look [] p.ahead x.1) (tadd t i)).isSome))

/-- The stream that feeds a channel in a playback. -/
def pbStreamOf (p : PbSt) (c : Nat) : Option Nat := (p.streams.find? (fun (x : Nat × Nat × Nat) => x.2.1 == c)).map Prod.fst

/-- Runs of the read-ahead that lie wholly before a stream time are released. -/
def pbTrim (t : Tick) (p : PbSt) : PbSt :=
  { p with ahead := p.ahead.map (fun e => (e.1, e.2.filter (fun r => tlt t (tadd r.t0 r.n)))) }

end Sys2Proof.Machine
end

