-- ==== Sys2Proof/Machine/Tally.lean ====
section
/-! DEFINITION. Tally (R379 to R398): the prescaler, stamps, the spacing limit, the queues, calibration tables, and the
frequency units. -/

namespace Sys2Proof.Machine

/-! ### Tables (R382, R392) -/

/-- The half of a CAL register that holds centre[i] of input k. -/
def calFld (k i : Nat) : Fld := if i % 2 = 0 then Fd.EV_CAL_EVEN k (i / 2) else Fd.EV_CAL_ODD k (i / 2)

/-- The uniform table (R392). -/
def uniformTable : List Nat := (List.range 32).map (fun i => 128 * i + 64)

/-- The table in effect of an input (R382, R392). -/
def calTable (s : State) (k : Nat) : List Nat := look uniformTable s.tly.tables k

/-- centre[i] of the table in effect of an input. -/
def calCentre (s : State) (k i : Nat) : Nat := (calTable s k).getD i 0

/-- A table put into effect, and shown in CAL. The register map gives the words of centre[16] to centre[31] of inputs 0 to 7
the addresses of the next input's registers, which keep them; those entries are not shown (DESIGN CHOICE). -/
def putTable (k : Nat) (t : List Nat) (s : State) : State :=
  let s1 : State := { s with tly := { s.tly with tables := keep s.tly.tables k t } }
  s1.each (t.zipIdx.filter (fun c => decide (c.2 < 16) || k == 8)) (fun c s => s.set (calFld k c.2) c.1)

/-- The table of R125 from the counts of the 32 phase codes, in 1/256 tick; none where the result is invalid. -/
def tableOf (n : List Nat) : Option (List Nat) :=
  let sum := sumL n
  if n.length != 32 || n.contains 0 || decide (sum < 2 ^ 20) then none
  else some ((List.range 32).map (fun i => 256 * 16 * (2 * sumL (n.take i) + n.getD i 0) / (2 * sum)))

/-- EVk.TIN at the effective rate (R382). -/
def tlyTin (s : State) : State :=
  s.each (List.range 9) (fun k s =>
    s.set (Fd.EV_TIN k) (Config.factoryDelay k * 256 * s.get Fd.ING_FS_KHZ / 1000000000))

/-! ### Edges (R380 to R389) -/

/-- Whether an edge is one that EDGE selects (R380). -/
def edgeSel (edge : Nat) (rising : Bool) : Bool :=
  match edge with
  | 0 => rising
  | 1 => !rising
  | _ => true

/-- Whether a measurement unit needs an edge of input k as its gate (R393, R394). -/
def gateUse (s : State) (k : Nat) (rising : Bool) : Bool :=
  (List.range 8).any (fun n =>
    (if s.get (Fd.FM_CTRL_GSRC n) = 0 then 8 else s.get (Fd.FM_CTRL_GSRC n) - 1) == k &&
    (s.on (Fd.FM_CTRL_GMODE n) || rising == !s.on (Fd.FM_CTRL_GPOL n)))

/-- A stamped edge stored in its queue (R385 to R387). -/
def tlyStore (k : Nat) (e : TlyEdge) (marks fl : Nat) (s : State) : State :=
  let wr := s.get (Fd.EV_WR k)
  let rd := s.get (Fd.EV_RD k)
  let exp := look 0 s.tly.stored k
  let loss := b2n (e.seq != exp) * 2
  let entry := le 9 e.stamp ++ le 1 (marks + loss) ++ le 1 fl ++ le 1 k ++ le 4 e.seq
  let r (bs : List Byte) : SpecRec := ⟨BitVec.ofNat 64 (e.stamp / 256), 0, fl, wr, 0, 0, bs⟩
  let push (x : SpecRec) (s : State) : State :=
    { s with scr := { s.scr with tally := keep s.scr.tally k (x :: look [] s.scr.tally k) } }
  if (wr + 65536 - rd) % 65536 = 65535 then
    ((push (r []) s).bump (Fd.EV_LOST k)).raisePerLanding k 0x0C01 [.w4 k, .w4 e.seq]
  else
    let s1 := push (r entry) (s.store (0x010004000000 + k * 0x100000 + 16 * wr) entry)
    { s1 with tly := { s1.tly with stored := keep s1.tly.stored k ((e.seq + 1) % 2 ^ 32) } }.set (Fd.EV_WR k)
      ((wr + 1) % 65536)

/-- The state of a measurement unit. -/
def State.fmUnit (s : State) (n : Nat) : FmSt := look ⟨0, none⟩ s.tly.fm n

/-- The state of a measurement unit replaced. -/
def setFm (n : Nat) (x : FmSt) (st : Nat) (s : State) : State :=
  { s with tly := { s.tly with fm := keep s.tly.fm n x } }.set (Fd.FM_STATUS_STATE n) st

/-- A window opens (R395). -/
def fmOpen (n : Nat) (g : TlyEdge) (s : State) : State := setFm n ⟨(s.fmUnit n).armAt, some g⟩ 2 s

/-- The result of a window (R395), its T_OPEN among the registers that RSEQ guards (R396). -/
def fmResult (n : Nat) (a b : TlyEdge) (s : State) : State :=
  let es := (look [] s.tly.edges n).filter (fun e => decide (a.stamp ≤ e.stamp) && decide (e.stamp ≤ b.stamp))
  let first := es.foldl (fun (acc : Option TlyEdge) e => match acc with
    | none => some e
    | some x => if e.stamp < x.stamp then some e else some x) none
  let last := es.foldl (fun (acc : Option TlyEdge) e => match acc with
    | none => some e
    | some x => if x.stamp < e.stamp then some e else some x) none
  let s0 := s.count (Fd.FM_RSEQ n)
  let put (num dt freq nosig : Nat) (used : List TlyEdge) (s : State) : State :=
    let s1 := (((s.set (Fd.FM_N n) num).wr64 (0xD040C + 0x40 * n) dt).wr64 (0xD0414 + 0x40 * n) freq).wr64
      (0xD041C + 0x40 * n) (a.stamp / 256)
    ((s1.set (Fd.FM_STATUS_NOSIG n) nosig).set (Fd.FM_STATUS_HLD n) (b2n (used.any TlyEdge.hld))).set
      (Fd.FM_STATUS_UNCAL n) (b2n (used.any TlyEdge.uncal))
  match first, last with
  | some f, some l =>
    if f.stamp = l.stamp then
      (put 0 0 0 1 [f, l, a, b] s0).raise 0x0C07 [.w4 n, .w4 (s0.get (Fd.FM_RSEQ n))]
    else
      let num := (l.seq + 2 ^ 32 - f.seq) % 2 ^ 32
      let dt := l.stamp - f.stamp
      let freq := num * (s.get (Fd.EV_CFG_PRE n) + 1) * 256 * s.get Fd.ING_FS_KHZ * 1000000 / dt
      (put num dt freq 0 [f, l, a, b] s0).raise 0x0C04 [.w4 n, .w4 (s0.get (Fd.FM_RSEQ n)), .w4 (freq % 2 ^ 32)]
  | _, _ => (put 0 0 0 1 [a, b] s0).raise 0x0C07 [.w4 n, .w4 (s0.get (Fd.FM_RSEQ n))]

/-- A gate edge at a measurement unit (R393, R395): it opens a window, or closes the open one. -/
def fmGate (n : Nat) (g : TlyEdge) (s : State) : State :=
  let x := s.fmUnit n
  let active := g.rising == !s.on (Fd.FM_CTRL_GPOL n)
  let level := s.on (Fd.FM_CTRL_GMODE n)
  let auto := s.on (Fd.FM_CTRL_AUTO n)
  match s.get (Fd.FM_STATUS_STATE n) with
  | 1 => if active && decide (x.armAt ≤ g.stamp) then fmOpen n g s else s
  | 2 =>
    match x.opened with
    | none => s
    | some a =>
      if active = level then s
      else
        let s1 := fmResult n a g s
        if !auto then setFm n ⟨x.armAt, none⟩ 0 s1
        else if level then setFm n ⟨g.stamp, none⟩ 1 s1
        else fmOpen n g (setFm n ⟨g.stamp, none⟩ 1 s1)
  | _ => s

/-- An edge of an input (R380 to R389, R394): during beat 16b, at phase code i. It may be a tallied edge, a gate edge, both,
or neither. -/
def tlyEdge (k : Nat) (rising : Bool) (code : Nat) (s : State) : State :=
  if !s.run || !s.on (Fd.EV_CFG_EN k) then s
  else
    let sel := decide (k < 8) && edgeSel (s.get (Fd.EV_CFG_EDGE k)) rising
    let cnt := look 0 s.tly.pre k
    let tallied := sel && cnt % (s.get (Fd.EV_CFG_PRE k) + 1) == 0
    let gate := gateUse s k rising
    let s1 := if sel then { s with tly := { s.tly with pre := keep s.tly.pre k (cnt + 1) } } else s
    if !tallied && !gate then s1
    else
      let raw := 256 * s.sys.next.toNat + calCentre s k code
      let seq := s1.get (Fd.EV_SEQ k)
      let s2 := if tallied then s1.count (Fd.EV_SEQ k) else s1
      if (s.tly.last.find? (fun e => e.1 == k)).any (fun e => decide (raw < e.2 + 32 * 256)) then
        (s2.bump (Fd.EV_OVERRUN k)).raisePerLanding k 0x0C02 [.w4 k, .w4 seq]
      else
        let stamp := ((raw : Int) - (s.get (Fd.EV_TIN k) : Nat) + s.getI (Fd.EV_DESKEW k)) % ((2 ^ 72 : Nat) : Int)
        let hld := s.on (Fd.PLL_STATUS_HOLD 1)
        let uncal := s.onBit Fd.TLY_STATUS_UNCAL k
        let tstep := s.tly.steps.any (fun x => x.input == k && decide (0 < x.j))
        let e : TlyEdge := ⟨stamp.toNat, seq, rising, hld, uncal || tstep⟩
        let t : Tick := BitVec.ofNat 64 (stamp.toNat / 256)
        let fl := if hld then Df.hld else 0
        let s3 := { s2 with tly := { s2.tly with last := keep s2.tly.last k raw } }
        let s4 :=
          if !tallied then s3
          else
            let s4 := { s3 with tly := { s3.tly with edges := keep s3.tly.edges k (e :: look [] s3.tly.edges k) } }
            let s5 := if s4.on (Fd.EV_CFG_QEN k) then
                tlyStore k e (b2n rising + b2n uncal * 4 + b2n tstep * 8) fl s4 else s4
            stick fl t (wvrAsk 1 k t (evPlace k t fl s5))
        if !gate then s4
        else
          let s5 := { s4 with tly := { s4.tly with gates := keep s4.tly.gates k (e :: look [] s4.tly.gates k) } }
          s5.each ((List.range 8).filter (fun n =>
            (if s.get (Fd.FM_CTRL_GSRC n) = 0 then 8 else s.get (Fd.FM_CTRL_GSRC n) - 1) == k)) (fun n s => fmGate n e s)

/-- TALLIED_EDGE (R380 to R389). -/
def execTalliedEdge (input : Fin 8) (rising : Bool) (code : Fin 32) (s : State) : Out :=
  .next (tlyEdge input.val rising code.val s)

/-- GATE_EDGE (R393 to R395). -/
def execGateEdge (input : Fin 9) (rising : Bool) (code : Fin 32) (s : State) : Out :=
  .next (tlyEdge input.val rising code.val s)

/-! ### Measurement units (R395 to R397) -/

/-- ARM of a measurement unit (R395): gate edges already caught with stamps at or after its arrival count. -/
def fmArm (n : Nat) (s : State) : State :=
  if s.get (Fd.FM_STATUS_STATE n) != 0 then s
  else
    let at' := 256 * (arrivalNow s).toNat
    let k := if s.get (Fd.FM_CTRL_GSRC n) = 0 then 8 else s.get (Fd.FM_CTRL_GSRC n) - 1
    let early := ((look [] s.tly.gates k).filter (fun g => decide (at' ≤ g.stamp))).reverse
    (setFm n ⟨at', none⟩ 1 s).each early (fun g s => fmGate n g s)

/-- STOP of a measurement unit (R396). -/
def fmStop (n : Nat) (s : State) : State := setFm n ⟨0, none⟩ 0 s

/-- A write of FMn.CTRL: STOP acts before ARM (R397). -/
def fmCtrl (n w : Nat) (s : State) : State :=
  let s1 := if bit w 1 then fmStop n s else s
  if bit w 0 then fmArm n s1 else s1

/-- FM_ARM (R395). -/
def execFmArm (unit : Fin 8) (s : State) : Out := .next (fmArm unit.val s)

/-- FM_STOP (R396). -/
def execFmStop (unit : Fin 8) (s : State) : Out := .next (fmStop unit.val s)

/-! ### Calibration (R390 to R392, R575) -/

/-- Whether a stepping of tables is in progress. -/
def tlyStepping (s : State) : Bool := !s.tly.steps.isEmpty

/-- New tables are computed from the counts of the enabled inputs (R391, R392). -/
def tcal (counts : List (Nat × List Nat)) (s : State) : State :=
  s.each (counts.filter (fun c => s.on (Fd.EV_CFG_EN c.1))) (fun c s =>
    match tableOf c.2 with
    | none => s.raise 0x0C05 [.w4 c.1]
    | some _ =>
      let t := { s.tly with counts := keep s.tly.counts c.1 c.2 }
      let t1 := if s.onBit Fd.TLY_STATUS_UNCAL c.1 then { t with whole := keep t.whole c.1 false }
        else if tlyStepping s then { t with waiting := c.1 :: t.waiting.filter (fun k => k != c.1) } else t
      { s with tly := t1 })

/-- TCAL_REQ (R391): `counts` are the phase counts collected by input. -/
def execTcalReq (counts : List (Fin 9 × List Nat)) (s : State) : Out :=
  .next (tcal (counts.map (fun c => (c.1.val, c.2))) s)

/-- TCAL_PERIOD (R391). -/
def execTcalPeriod (counts : List (Fin 9 × List Nat)) (s : State) : Out :=
  .next (tcal (counts.map (fun c => (c.1.val, c.2))) s)

/-- Steppings toward the newest tables of some inputs are posted (R391). -/
def stepsFor (ks : List Nat) (s : State) : List TlyStep :=
  ks.filterMap (fun k => match tableOf (look [] s.tly.counts k) with
    | none => none
    | some t => if s.onBit Fd.TLY_STATUS_UNCAL k || t == calTable s k then none else some ⟨k, calTable s k, t, 0⟩)

/-- NOW3 of R575 for the counts of an input, in 0.1 ps: 120 − floor(10·prec), exact. -/
def precNow (s : State) (n : List Nat) : Int :=
  let sum := sumL n
  let cubes := sumL (n.map (fun x => x ^ 3))
  let fs := s.get Fd.ING_FS_KHZ
  120 - (Nat.sqrt (100 * 4096 * cubes * 10 ^ 18 / (192 * sum ^ 3 * fs ^ 2)) : Nat)

/-- Class 3 of a re-plan (R575): the steppings that start, NOW3 if any enabled input has a valid table, and whether a table
changes. -/
def tlyReplan (s : State) : State × Option Int × Bool :=
  let ks := (List.range 9).filter (fun k => s.on (Fd.EV_CFG_EN k) && s.tly.counts.any (fun c => c.1 == k))
  let now := minI? (ks.map (fun k => precNow s (look [] s.tly.counts k)))
  if tlyStepping s then (s, now, false)
  else
    let st := stepsFor ks s
    ({ s with tly := { s.tly with steps := st, armed := false } }, now, !st.isEmpty)

/-- At a decision point, computed tables become due at the landing (R391). -/
def tlyDecide (s : State) : State :=
  { s with tly := { s.tly with whole := s.tly.whole.map (fun w => (w.1, true)), armed := !s.tly.steps.isEmpty } }

/-- One step of a table lands (R391): step 64 raises event 0x0C03. -/
def tlyStepLand (l : Tick) (x : TlyStep) (s : State) : State :=
  let j := x.j + 1
  let t := (x.old.zip x.new).map (fun p => ((p.1 : Int) + ((p.2 : Int) - p.1) * (j : Nat) / 64).toNat)
  let s1 := putTable x.input t s
  if j = 64 then s1.raise 0x0C03 [.w4 x.input, .t l] else s1

/-- Steps of the tables at a landing, and first tables applied whole (R391). -/
def tlySteps (l : Tick) (s : State) : State :=
  let due := s.tly.whole.filter (fun w => w.2)
  let s1 := s.each due (fun w s => match tableOf (look [] s.tly.counts w.1) with
    | none => s
    | some t => ((putTable w.1 t s).clrB Fd.TLY_STATUS_UNCAL w.1).raise 0x0C03 [.w4 w.1, .t l])
  let s2 := { s1 with tly := { s1.tly with whole := s1.tly.whole.filter (fun w => !w.2) } }
  if !s2.tly.armed then s2
  else
    let s3 := s2.each s2.tly.steps (tlyStepLand l)
    let left := (s3.tly.steps.map (fun x => { x with j := x.j + 1 })).filter (fun x => decide (x.j < 64))
    if left.isEmpty then
      let next := stepsFor s3.tly.waiting s3
      { s3 with tly := { s3.tly with steps := next, waiting := [], armed := false } }
    else { s3 with tly := { s3.tly with steps := left } }

/-- QUIESCENT of Tally: every input is off. -/
def tlyQuiet (s : State) : State :=
  s.set Fd.TLY_STATUS_QUIESCENT (b2n ((List.range 9).all (fun k => !s.on (Fd.EV_CFG_EN k))))

/-- Tally at a landing (R381, R396): changed inputs restart their prescaler; units whose input or gate is off end. -/
def tlyLand (old s : State) : State :=
  let changed := (List.range 9).filter (fun k =>
    anyChanged old s [Fd.EV_CFG_EN k, Fd.EV_CFG_TYPE k, Fd.EV_CFG_EDGE k, Fd.EV_CFG_PRE k])
  let s1 := { s with tly := { s.tly with pre := s.tly.pre.filter (fun e => !changed.contains e.1) } }
  let off := (List.range 8).filter (fun n =>
    let k := if s.get (Fd.FM_CTRL_GSRC n) = 0 then 8 else s.get (Fd.FM_CTRL_GSRC n) - 1
    let fell (i : Nat) : Bool := old.on (Fd.EV_CFG_EN i) && !s.on (Fd.EV_CFG_EN i)
    s.get (Fd.FM_STATUS_STATE n) != 0 && (fell n || fell k))
  tlyQuiet (s1.each off fmStop)

/-- Tally's counters are cleared. -/
def tlyCntClear (s : State) : State :=
  s.each (List.range 9) (fun k s => (s.set (Fd.EV_LOST k) 0).set (Fd.EV_OVERRUN k) 0)

end Sys2Proof.Machine
end

