-- ==== Sys2Proof/Machine/TrigUnits.lean ====
section
/-! DEFINITION. Trigger units (R215 to R230): the order in which a unit handles stream times, its sequence, holdoff and
forces, the trigger and its record, the lag and the least pin delay, and the TRIG_OUT pins. -/

namespace Sys2Proof.Machine

/-! ### Units and what they select -/

/-- A unit that has handled nothing. -/
def TuSt.init : TuSt := ⟨.off, none, none, 0, none, [], 0⟩

/-- The state of trigger unit n. -/
def State.tu (s : State) (n : Nat) : TuSt := look TuSt.init s.trg.tus n

/-- The code that STATUS.STATE reads (R231). -/
def TuState.code : TuState → Nat
  | .off => 0
  | .armed => 1
  | .holdoff => 2
  | .disarmed => 3
  | .stalled => 4

/-- Whether a unit is off and everything that landed on it is handled. -/
def TuSt.idle (u : TuSt) : Bool := u.st == .off && u.acts.isEmpty

/-- The engine is quiescent while it is off and every unit has ended (R21, R231). -/
def trgQuiet (s : State) : State :=
  s.set Fd.TRG_STATUS_QUIESCENT (b2n (!s.on Fd.TRG_CTRL_EN && (List.range 8).all (fun n => (s.tu n).idle)))

/-- The state of unit n replaced, with what STATUS shows of it. -/
def setTu (n : Nat) (u : TuSt) (s : State) : State :=
  let s1 := { s with trg := { s.trg with tus := keep s.trg.tus n u } }
  let s2 := (s1.set (Fd.TU_STATUS_STATE n) u.st.code).set (Fd.TU_STATUS_QUIESCENT n) (b2n u.idle)
  trgQuiet (s2.putB Fd.TRG_STATUS_STALLED n (u.st == .stalled))

/-- Whether unit n runs at a stream time (R221). -/
def tuOn (s : State) (n : Nat) : Bool := s.on Fd.TRG_CTRL_EN && s.on (Fd.TU_CTRL_EN n)

/-- The source codes A, B and Q of a unit at a stream time. -/
def tuCodes (s : State) (n : Nat) (t : Tick) : Nat × Nat × Nat :=
  (s.getAt t (Fd.TU_SRC_A n), s.getAt t (Fd.TU_SRC_B n), s.getAt t (Fd.TU_SRC_Q n))

/-- Events of one source with one stamp form one event (R215). -/
def mergeEvs : List TrgEv → Option TrgEv
  | [] => none
  | e :: es => some (es.foldl (fun a x => { a with fl := Nat.lor a.fl x.fl, late := a.late || x.late }) e)

/-- The event of a source at a stream time. -/
def srcEventAt (s : State) (code : Nat) (t : Tick) : Option TrgEv := mergeEvs (srcEvents s code t t)

/-- The event that a state source offers (R217). -/
def offered (s : State) (code : Nat) (t : Tick) : Option TrgEv :=
  let x := srcState s code t
  if x.1 then some ⟨t, x.2, false, false, 0⟩ else none

/-- The qualifier at a stream time and the flags of its evidence (R216, R224). -/
def tuQualifier (s : State) (n : Nat) (t : Tick) : Bool × Nat :=
  let q := (tuCodes s n t).2.2
  if q = 0 then (true, 0)
  else
    let st := srcState s q t
    let evs := srcEvents s q (tsub t (s.getAt t (Fd.TU_QWIN n))) t
    ((st.1 || !evs.isEmpty) != s.onAt t (Fd.TU_CTRL_QINV n),
     evs.foldl (fun a e => Nat.lor a e.fl) (if st.1 then st.2 else 0))

/-- The channel that a record names for its completing source (R225). -/
def srcCh (s : State) (code : Nat) (t : Tick) : Nat :=
  match srcKind code with
  | .td j => j / 2
  | .mask c => c
  | .den c => c
  | .zp p => s.getAt t (Fd.ZC_CTRL_SRC (s.getAt t (Fd.ZP_CTRL_ZC p)))
  | _ => 0xFF

/-- The flags of the reports of a source over (a, b]: those of its states and events there (R224). -/
def reportFlags (s : State) (code : Nat) (a b : Tick) : Nat :=
  let x := s.src code
  let inside := x.states.filter (fun e => tlt a e.1 && tle e.1 b)
  let before := (x.states.find? (fun e => tle e.1 a)).toList
  let fs := (inside ++ before).foldl (fun acc e => Nat.lor acc e.2.2) 0
  (srcEvents s code (a + 1) b).foldl (fun acc e => Nat.lor acc e.fl) fs

/-! ### TRIG_OUT pins (R228, R229) -/

/-- A pin that has scheduled nothing. -/
def ToutSt.init : ToutSt := ⟨[], false, false⟩

/-- The state of a TRIG_OUT pin. -/
def State.tout (s : State) (k : Nat) : ToutSt := look ToutSt.init s.trg.touts k

/-- The state of a TRIG_OUT pin replaced. -/
def setTout (k : Nat) (x : ToutSt) (s : State) : State := { s with trg := { s.trg with touts := keep s.trg.touts k x } }

/-- The level of a pin at a stream time: POL inverts, and EN = 0 holds it at its idle level (R231). -/
def toutLevel (s : State) (k : Nat) (t : Tick) (active : Bool) : Bool :=
  s.onAt t (Fd.TOUT_CTRL_POL k) != (active && s.onAt t (Fd.TOUT_CTRL_EN k))

/-- A pulse inserted into pulses in order that neither overlap nor touch: those it overlaps or touches are joined. -/
def joinPulse (a b : Tick) : List (Tick × Tick) → List (Tick × Tick)
  | [] => [(a, b)]
  | p :: ps =>
    if tlt b p.1 then (a, b) :: p :: ps
    else if tlt p.2 a then p :: joinPulse a b ps
    else joinPulse (tmin a p.1) (tmax b p.2) ps

/-- A trigger schedules a pulse on pin k (R228, R229): late, it starts at once; on a full queue it extends the last. -/
def toutPulse (k : Nat) (x : Trig) (s : State) : State :=
  if !(s.onAt x.t (Fd.TOUT_CTRL_EN k) && bit (s.getAt x.t (Fd.TOUT_CTRL_TUMASK k)) x.tu) then s
  else
    let a := tadd x.t (s.getAt x.t (Fd.TOUT_DELAY k))
    let b := tadd a (s.getAt x.t (Fd.TOUT_WIDTH k))
    let late := tle a s.tRel
    let s1 := if late then (s.bump (Fd.TOUT_STATUS_LATE k)).raise 0x0605 [.w4 k, .t x.t] else s
    let p := s1.tout k
    let a1 := if late then s1.sys.next else a
    if tle b a1 then s1
    else
      let q := joinPulse a1 b p.queue
      if 64 < q.length then
        let cut := p.queue.dropLast ++ (p.queue.getLast?.map (fun e => (e.1, tmax e.2 b))).toList
        ((setTout k { p with queue := cut } s1).bump (Fd.TOUT_STATUS_JOINED k)).raisePerLanding k 0x0606 [.w4 k, .t x.t]
      else setTout k { p with queue := q } s1

/-- TRIG_OUT_EDGE (R228): the next end of a scheduled pulse that has been released moves the pin. -/
def execTrigOutEdge (pin : Fin 4) (s : State) : Out :=
  let p := s.tout pin.val
  match p.queue with
  | [] => .next s
  | (a, b) :: rest =>
    if p.inPulse then
      if tle b s.tRel then
        .next (setTout pin.val { p with queue := rest, inPulse := false, level := toutLevel s pin.val b false } s)
      else .next s
    else if tle a s.tRel then .next (setTout pin.val { p with inPulse := true, level := toutLevel s pin.val a true } s)
    else .next s

/-! ### Fires (R219, R224, R225, R230) -/

/-- A record goes into the trigger ring (R225, R194): a full ring loses its oldest unread record. -/
def trgRingWrite (x : Trig) (s : State) : State :=
  let slots := max 2 (s.get Fd.TRG_RING_SLOTS)
  let wr := s.get Fd.TRG_WR
  let rd := s.get Fd.TRG_RD
  let base := s.rd64 0x70010
  let s1 := if (wr + slots - rd) % slots = slots - 1 then
      let lost := s.load (base + 32 * rd) 32
      ((s.set Fd.TRG_RD ((rd + 1) % slots)).bump Fd.TRG_LOST).raisePerLanding 0 0x0607
        [.w4 (fieldAt lost 0x18 4), .w4 (fieldAt lost 0x10 1)]
    else s
  (s1.store (base + 32 * wr) (trigRecord x)).set Fd.TRG_WR ((wr + 1) % slots)

/-- A trigger reaches every consumer (R222, R228, R230). -/
def trgDeliver (x : Trig) (fabout : Nat) (s : State) : State :=
  let s1 := trgRingWrite x (stick x.fl x.t { s with trg := { s.trg with trigs := x :: s.trg.trigs } })
  let s2 := pushEv (0x3D + x.tu) ⟨x.t, x.fl, false, false, 0⟩ s1
  let s3 := s2.each (List.range 4) (fun k s => toutPulse k x s)
  let s4 := wvrAsk 0 x.tu x.t (hoopTrigger x s3)
  if fabout < 16 then fabSend fabout x.t x.fl s4 else s4

/-- Unit n fires at trigger time t (R219): the sequence and the counter reset, the holdoff is recorded, and the trigger is
delivered. -/
def tuFire (n : Nat) (t tA : Tick) (src fl marks ch : Nat) (s : State) : State :=
  let u := s.tu n
  let held := tadd t (s.getAt t (Fd.TU_HOLDOFF n))
  let he := match u.holdEnd with
    | some h => tmax h held
    | none => held
  let st : TuState := if s.getAt t (Fd.TU_CTRL_ARMMODE n) = 0 then .disarmed else if tle he t then .armed else .holdoff
  let x : Trig := ⟨n, t, tA, src, fl, marks, ch, u.fseq⟩
  let u1 := { u with st := st, wait := none, count := 0, holdEnd := some he, fseq := (u.fseq + 1) % 2 ^ 32 }
  trgDeliver x (s.getAt t (Fd.TU_CTRL_FABOUT n)) ((setTu n u1 s).bump (Fd.TU_FIRES n))

/-- A completion at t by an event of a source (R218): the counter moves on, and at COUNT the unit fires. -/
def tuComplete (n : Nat) (t tA : Tick) (code : Nat) (e : TrgEv) (late : Bool) (fl : Nat) (s : State) : State :=
  let u := s.tu n
  if u.count + 1 < s.getAt t (Fd.TU_COUNT n) then setTu n { u with count := u.count + 1, wait := none } s
  else tuFire n t tA code fl (2 * b2n late + (if e.xv then 4 + 16 * (e.xf % 16) else 0)) (srcCh s code e.t) s

/-- An event that the unit cannot accept is counted (R215). -/
def tuIgnore (n : Nat) (s : State) : State :=
  if (s.tu n).st = .stalled then s else s.bump (Fd.TU_IGNORED n)

/-! ### One stream time (R215) -/

/-- Step 1: a holdoff that expires, then what lands; answers whether a state source offers an event (R217). -/
def tuLanded (n : Nat) (t : Tick) (acts : List TuAct) (s : State) : Bool × State :=
  let u := s.tu n
  let ends := u.st == .holdoff && u.holdEnd.any (fun h => tle h t)
  let u1 := if ends then { u with st := .armed } else u
  let one (p : Bool × TuSt) (a : TuAct) : Bool × TuSt :=
    match a with
    | .enable => (true, { p.2 with st := .armed, wait := none, count := 0, holdEnd := none })
    | .disable => (false, { p.2 with st := .off, wait := none, count := 0, holdEnd := none })
    | .change => (p.1, { p.2 with wait := none, count := 0 })
    | .arm =>
      if p.2.st = .disarmed then
        if p.2.holdEnd.any (fun h => tlt t h) then (p.1, { p.2 with st := .holdoff }) else (true, { p.2 with st := .armed })
      else p
    | .force => p
  let r := acts.foldl one (ends, u1)
  (r.1, setTu n r.2 s)

/-- Step 2: a force (R220). -/
def tuForce (n : Nat) (t : Tick) (s : State) : State :=
  match (s.tu n).st with
  | .armed | .holdoff => tuFire n t t 0xFF 0 1 0xFF s
  | _ => (s.bump (Fd.TU_FORCE_LOST n)).raise 0x0603 [.w4 n, .t t]

/-- Step 3: a B event. -/
def tuB (n : Nat) (t : Tick) (s : State) : State :=
  let b := (tuCodes s n t).2.1
  match srcEventAt s b t with
  | none => s
  | some e =>
    let u := s.tu n
    if u.st != .armed then tuIgnore n s
    else match u.wait with
      | none => s
      | some (a, fl) =>
        if tlt a.t t && tle t (tadd a.t (s.getAt t (Fd.TU_WINDOW n))) then
          if s.getAt t (Fd.TU_CTRL_MODE n) = 1 then tuComplete n t a.t b e (a.late || e.late) (Nat.lor fl e.fl) s
          else setTu n { u with wait := none } s
        else s

/-- Step 4: the window ends. -/
def tuWindow (n : Nat) (t : Tick) (s : State) : State :=
  let u := s.tu n
  match u.wait with
  | none => s
  | some (a, fl) =>
    if t = tadd a.t (s.getAt t (Fd.TU_WINDOW n)) then
      let c := tuCodes s n t
      if s.getAt t (Fd.TU_CTRL_MODE n) = 2 then
        tuComplete n t a.t c.1 a a.late (Nat.lor fl (reportFlags s c.2.1 a.t t)) s
      else setTu n { u with wait := none } s
    else s

/-- Step 5: an A event, real or offered. -/
def tuA (n : Nat) (t : Tick) (offer : Bool) (s : State) : State :=
  let c := tuCodes s n t
  let u := s.tu n
  let real := (srcEventAt s c.1 t).toList
  let shown := if offer && u.st == .armed then (offered s c.1 t).toList else []
  match mergeEvs (real ++ shown) with
  | none => s
  | some e =>
    if u.st != .armed then if c.1 = c.2.1 then s else tuIgnore n s
    else
      let q := tuQualifier s n t
      if !q.1 then s
      else
        let fl := Nat.lor e.fl q.2
        if s.getAt t (Fd.TU_CTRL_MODE n) = 0 then tuComplete n t t c.1 e e.late fl s
        else setTu n { u with wait := some (e, fl) } s

/-- A unit handles stream time t (R215). -/
def tuAt (n : Nat) (t : Tick) (s : State) : State :=
  let u := s.tu n
  let due := (u.acts.filter (fun a => tle a.1 t)).map Prod.snd
  let s1 := setTu n { u with acts := u.acts.filter (fun a => !tle a.1 t), done := some t } s
  let r := tuLanded n t due s1
  let s2 := r.2.each (due.filter (· == .force)) (fun _ s => tuForce n t s)
  tuA n t r.1 (tuWindow n t (tuB n t s2))

/-! ### How far a unit goes -/

/-- The stream time through which A, B and Q of a unit have all reported, for the codes at t (R215). -/
def tuReported (s : State) (n : Nat) (t : Tick) : Option Tick :=
  let c := tuCodes s n t
  match srcThrough s c.1, srcThrough s c.2.1, srcThrough s c.2.2 with
  | some a, some b, some q => some (tmin a (tmin b q))
  | _, _, _ => none

/-- The next stream time from t0 on at which anything happens to a unit. -/
def tuInstant (s : State) (n : Nat) (t0 : Tick) : Option Tick :=
  let u := s.tu n
  let c := tuCodes s n t0
  let first (code : Nat) : List Tick :=
    (((s.src code).evs.filter (fun e => tle t0 e.t)).map TrgEv.t).foldl (fun acc t => match acc with
      | [] => [t]
      | x :: _ => [tmin x t]) []
  let cands := (u.acts.map Prod.fst).take 1 ++ (if u.st = .holdoff then u.holdEnd.toList else []) ++
    (u.wait.map (fun w => tadd w.1.t (s.getAt t0 (Fd.TU_WINDOW n)))).toList ++ first c.1 ++ first c.2.1
  match cands.map (fun t => tmax t0 t) with
  | [] => none
  | t :: ts => some (ts.foldl tmin t)

/-- A unit goes on through `lim` as far as its sources have reported; a STALLED unit only takes what lands (R213). -/
def tuRun (n : Nat) (lim : Tick) : Nat → State → State
  | 0, s => s
  | k + 1, s =>
    let u := s.tu n
    match u.done with
    | none => s
    | some d =>
      let through := if u.st = .stalled then some lim else (tuReported s n (d + 1)).map (tmin lim)
      match through with
      | none => s
      | some e =>
        if tle e d then s
        else match tuInstant s n (d + 1) with
          | none => if u.st = .stalled then s else setTu n { u with done := some e } s
          | some t =>
            if tlt e t then if u.st = .stalled then s else setTu n { u with done := some e } s
            else if u.st != .stalled && !(tuReported s n t).any (fun r => tle t r) then setTu n { u with done := some (t - 1) } s
            else tuRun n lim k (tuAt n t s)

/-- TRIGGER_UNIT_STEP (R215): the unit handles the stream times through t that its sources have reported. -/
def execTriggerUnitStep (tu : Fin 8) (t : Tick) (s : State) : Out :=
  let lim := tmin t (relPoint s)
  match (s.tu tu.val).done with
  | none => .next s
  | some d => .next (if tle lim d then s else tuRun tu.val lim (lim - d).toNat s)

/-- The enabled Cykin line that a unit waits on: selected, and not reported through the unit's next stream time (R213). -/
def tuWaitsOn (s : State) (n : Nat) : Option Nat :=
  let u := s.tu n
  match u.done with
  | none => none
  | some d =>
    let c := tuCodes s n (d + 1)
    [c.1, c.2.1, c.2.2].findSome? (fun code => match srcKind code with
      | .cyk m => if cykLineLive s m && !reported s code (d + 1) then some m else none
      | _ => none)

/-- CYK_TIMEOUT (R213): a unit that waits on a silent line enters STALLED. -/
def execCykTimeout (tu : Fin 8) (s : State) : Out :=
  let n := tu.val
  let u := s.tu n
  match tuWaitsOn s n with
  | none => .next s
  | some m =>
    if u.st = .off ∨ u.st = .stalled then .next s
    else .next ((setTu n { u with st := .stalled, wait := none, count := 0 } s).raise 0x0602
      [.w4 n, .w4 m, .t (u.done.getD 0)])

/-- FORCE (R220): a write of 1 to TUn.CTRL.FORCE waits for the next landing. -/
def execForce (tu : Fin 8) (s : State) : Out :=
  .next (pendChange .action (Fd.TU_CTRL_FORCE tu.val).off 9 1 1 s)

/-- A write of 1 to TUn.CTRL.ARM (R219): it waits for the next landing, or has no effect while the unit is ARMED or in AUTO
mode. -/
def tuArm (n : Nat) (s : State) : State :=
  if s.on (Fd.TU_CTRL_ARMMODE n) || (s.tu n).st = .armed then s
  else pendChange .action (Fd.TU_CTRL_ARM n).off 8 1 1 s

/-- ARM (R219). -/
def execArm (tu : Fin 8) (s : State) : Out := .next (tuArm tu.val s)

/-! ### Lag and least pin delay (R226, R227) -/

/-- The lag of a source in 1/1,600,000 of a tick at x = 3, none where it is not bounded or nothing is selected; `tuLag`
gives the lag of an earlier unit (R226). -/
def srcLag (s : State) (tuLag : Nat → Option Int) (code : Nat) : Option Int :=
  let fs : Int := (s.get Fd.ING_FS_KHZ : Nat)
  let gw (c : Nat) : Nat := ddcDelay (s.get (Fd.DDC_CTRL_DEC c))
  let lag (ticks core : Int) : Option Int := some (1600000 * ticks + core * fs)
  let frame (c : Nat) (extra : Int) : Option Int :=
    let l := s.get (Fd.SPX_CTRL_LOG2N c)
    let d := s.on (Fd.SPX_CTRL_SRC c)
    let p : Nat := if d then srcPeriod s 1 c else 1
    lag (((2 ^ l / 2 - 1) * p + (if d then gw c else 0) + 32 : Nat) : Int)
      (((3 + 29 + (if d then 10 else 0) + 2 ^ l / 16 + 2 * l : Nat) : Int) + extra)
  match srcKind code with
  | .none => none
  | .td j => if s.on (Fd.TD_CTRL_SRC j) then lag ((gw (j / 2) + 32 : Nat) : Int) 31 else lag 32 21
  | .zp p =>
    let z := s.get (Fd.ZP_CTRL_ZC p)
    lag ((s.get (Fd.ZC_GDELAY z) + 32 : Nat) : Int) ((43 + 4 * (z / 16) : Nat) : Int)
  | .mask c => frame c 0
  | .den c => frame c 4
  | .tin n => lag (48 - s.getI (Fd.TIN_OFF n)) 6
  | .ev _ => lag 128 13
  | .fab _ => lag ((s.get Fd.TRG_FAB_HZ : Nat) : Int) 5
  | .cyk _ => none
  | .tu m => (tuLag m).map (fun x => x + 2 * fs)

/-- The lags of units 0 to n−1, newest first. -/
def tuLags (s : State) : Nat → List (Option Int)
  | 0 => []
  | n + 1 =>
    let prev := tuLags s n
    let of (m : Nat) : Option Int := if m < n then (prev[n - 1 - m]?).getD none else none
    let lags := [s.get (Fd.TU_SRC_A n), s.get (Fd.TU_SRC_B n), s.get (Fd.TU_SRC_Q n)].filterMap (srcLag s of)
    (match lags with
      | [] => none
      | x :: xs => some (xs.foldl max x)) :: prev

/-- D_min of a unit from its lag (R227); a negative figure reads 0. -/
def dMin (s : State) (lag : Option Int) : Nat :=
  let num := lag.getD 0 + 3 * ((s.get Fd.ING_FS_KHZ : Nat) : Int)
  (16 * -(-num / 25600000)).toNat

/-- TUn.DMIN follows the configuration (R227). -/
def refreshDmin (s : State) : State :=
  let lags := tuLags s 8
  s.each (List.range 8) (fun n s => s.set (Fd.TU_DMIN n) (dMin s ((lags[7 - n]?).getD none)))

/-- DELAY is held to the largest D_min of the units of its mask (R228). -/
def toutClamp (k : Nat) (s : State) : State :=
  let least := maxL ((List.range 8).filterMap (fun n =>
    if s.onBit (Fd.TOUT_CTRL_TUMASK k) n then some (s.get (Fd.TU_DMIN n)) else none))
  if s.get (Fd.TOUT_DELAY k) < least then
    ((s.set (Fd.TOUT_DELAY k) least).clamped).raise 0x060A [.w4 k, .w4 least]
  else s

/-! ### At a landing, a stop and an epoch -/

/-- The fields of a unit and of the sources it selects (R221). -/
def tuFields (s : State) (n : Nat) : List Fld :=
  srcFields (.tu n) ++ [s.get (Fd.TU_SRC_A n), s.get (Fd.TU_SRC_B n), s.get (Fd.TU_SRC_Q n)].flatMap
    (fun c => srcFields (srcKind c))

/-- Something lands on a unit and waits for the unit to reach it. -/
def tuQueue (n : Nat) (l : Tick) (a : TuAct) (s : State) : State :=
  let u := s.tu n
  setTu n { u with acts := u.acts ++ [(l, a)] } s

/-- Unit n at landing L (R219 to R221). -/
def tuLandOne (old : State) (l : Tick) (landed : List (Nat × Nat)) (n : Nat) (s : State) : State :=
  let on := tuOn s n
  let was := tuOn old n
  let s1 := if on != was || (s.sys.fresh && on) then s.raise 0x0601 [.w4 n, .t l, .w4 (b2n on)] else s
  let s2 := if s1.sys.fresh then
      let u : TuSt := { TuSt.init with done := some (l - 1), fseq := (s1.tu n).fseq }
      let s' := setTu n u s1
      if on then tuQueue n l .enable s' else s'
    else if on && !was then tuQueue n l .enable s1
    else if !on && was then tuQueue n l .disable s1
    else if on && anyChanged old s1 (tuFields s1 n) then tuQueue n l .change s1
    else s1
  let s3 := if landedAt landed (Fd.TU_CTRL_ARM n) then tuQueue n l .arm s2 else s2
  if landedAt landed (Fd.TU_CTRL_FORCE n) then tuQueue n l .force s3 else s3

/-- Trigger units and TRIG_OUT pins at landing L (R219 to R221, R227, R228). -/
def tuLand (old : State) (l : Tick) (landed : List (Nat × Nat)) (s : State) : State :=
  let s1 := refreshDmin (s.each (List.range 8) (tuLandOne old l landed))
  let s2 := s1.each (List.range 4) toutClamp
  trgQuiet (s2.each (List.range 4) (fun k s =>
    let p := s.tout k
    setTout k { p with level := toutLevel s k l p.inPulse } s))

/-- Stream time stops at L: every unit ends there (R31, R221). -/
def tuStopAll (l : Tick) (s : State) : State :=
  s.each (List.range 8) (fun n s => if (s.tu n).st = .off ∧ (s.tu n).acts = [] then s else tuQueue n l .disable s)

/-- A new epoch: the sources and units begin anew, with nothing scheduled on the pins. -/
def trgEpoch (e : Tick) (s : State) : State :=
  let s1 := { s with trg := { s.trg with
    src := []
    cmp := (List.range 16).map (fun i => (i, { CmpSt.empty with next := e }))
    masks := []
    regions := []
    tins := s.trg.tins.map (fun (x : Nat × TinSt) => (x.1, { x.2 with lastEv := none }))
    trigs := [] } }
  let s2 := s1.each (List.range 8) (fun n s => setTu n { TuSt.init with fseq := (s.tu n).fseq } s)
  s2.each (List.range 4) (fun k s => setTout k { ToutSt.init with level := toutLevel s k e false } s)

/-- TRG.CNT_CLEAR (R231). -/
def trgCntClear (s : State) : State :=
  let s1 := s.set Fd.TRG_LOST 0
  let s2 := s1.each (List.range 8) (fun n s =>
    ((s.set (Fd.TU_FIRES n) 0).set (Fd.TU_IGNORED n) 0).set (Fd.TU_FORCE_LOST n) 0)
  s2.each (List.range 4) (fun k s => (s.set (Fd.TOUT_STATUS_JOINED k) 0).set (Fd.TOUT_STATUS_LATE k) 0)

end Sys2Proof.Machine
end

