-- ==== Sys2Proof/Machine/Bus.lean ====
section
/-! DEFINITION. Reads and writes of registers (R5, R6, R12 to R20, R549, R562, R614): clamping, access codes, shadows of
64-bit pairs, protected fields, and what a write does in its unit beyond storing a value. Writes that act on the whole
module (resets, shutdown, re-plan, standby, programming) are completed in `Machine/Top.lean`. -/

namespace Sys2Proof.Machine

/-! ### Legal values (R17 to R19) -/

/-- The nearest multiple of m from lo to hi, the lower of two equally near (R17, R18). -/
def nearMult (m lo hi v : Nat) : Nat :=
  let lo' := ceilTo m lo
  let hi' := floorTo m hi
  if v ≤ lo' then lo' else if hi' ≤ v then hi'
  else if 2 * (v % m) ≤ m then floorTo m v else floorTo m v + m

/-- The legal value that a written value becomes, for a field of a width with a reset value (R17 to R19). -/
def Legal.take (l : Legal) (w rst v : Nat) : Nat :=
  match l with
  | .any => v
  | .range lo hi => max lo (min hi v)
  | .atLeast lo => max lo v
  | .mult m lo hi => nearMult m lo hi v
  | .pow2 lo hi => nearest v (((List.range 64).map (fun k => 2 ^ k)).filter (fun p => lo ≤ p && p ≤ hi))
  | .odd lo hi => let x := max lo (min hi v); if x % 2 = 1 then x else x - 1
  | .enum hi => if hi < v then rst else v
  | .pairs2 hi => sumL ((List.range (w / 2)).map (fun k =>
      (if hi < bits v (2 * k) 2 then bits rst (2 * k) 2 else bits v (2 * k) 2) * 2 ^ (2 * k)))
  | .convTemp =>
    let x := sext 16 v
    if x = -32768 then v
    else if x < -550 then (if x + 32768 ≤ -550 - x then 0x8000 else encI 16 (-550))
    else if 1500 < x then 1500 else v
  | .per => if v = 0 then 0 else if v < 16 then 16 else if 32768 ≤ v then 0 else v
  | .trgSrc => if 0x44 ≤ v then rst else v
  | .bar2 => if 0x17F0000000 + 0x7408000000 < v then 0x10000000000 else nearMult 0x10000000 0 0x17F0000000 v

/-- How many fields a clamp has changed: each two-bit part of a `pairs2` field counts for itself (R20). -/
def Legal.changed (l : Legal) (w v x : Nat) : Nat :=
  match l with
  | .pairs2 _ => ((List.range (w / 2)).filter (fun k => bits v (2 * k) 2 != bits x (2 * k) 2)).length
  | _ => b2n (v != x)

/-- The largest legal IDX of a stream selection, by the register that holds it and the KIND beside it. -/
def idxMax (reg word : Nat) : Option Nat :=
  match reg with
  | 0x50A00 => some (if bits word 0 2 = 2 then 63 else 3)
  | 0x81004 => some ([3, 7, 15].getD (bits word 0 2) 3)
  | 0xB0100 => some ([3, 7, 15, 3, 7, 7].getD (bits word 5 3) 3)
  | 0x1001000 => some ([7, 3].getD (bits word 1 2) 0)
  | 0x110400 => some ([7, 15, 3, 0].getD (bits word 1 2) 0)
  | _ => none

/-- The ring-size field that bounds a read index, with what it is less than. -/
def ringLimit (s : State) (reg i j : Nat) : Option Nat :=
  match reg with
  | 0x60124 => some (s.get (Fd.TR_RING_SLOTS i j))
  | 0x70020 => some (s.get Fd.TRG_RING_SLOTS)
  | 0x70040 => some (s.get Fd.TRG_XLOG_SIZE)
  | 0x90818 => some (s.get (Fd.SG_RING_SLOTS i))
  | 0x1800054 => some (s.get (Fd.COR_OSLOTS i))
  | 0x110614 => some (s.get (Fd.RX_SLOTS i))
  | 0x400E0 => some (s.get Fd.ASY_LOG_SIZE)
  | _ => none

/-- Legal ranges that rest on other fields, as they stand in the written word or in effect: register, instance, lowest
bit of the field, the written word, the value after the field's own range. -/
def dependLegal (s : State) (reg i j lo word v : Nat) : Nat :=
  let idx := idxMax reg word
  let selLo := if reg = 0x110400 ∨ reg = 0x81004 ∨ reg = 0xB0100 ∨ reg = 0x1001000 ∨ reg = 0x50A00 then 8 else 99
  if lo = selLo then min v (idx.getD v)
  else match ringLimit s reg i j with
  | some n => min v (n - 1)
  | none =>
    match reg, lo with
    | 0x71004, _ => if 0x3D + i ≤ v then 0 else v
    | 0x70404, 16 => max v (bits word 0 12)
    | 0x70408, 16 => max v (bits word 0 10)
    | 0x20000, _ => if v = 3 then 0 else if i = 1 then ingestModeClamp s v else v
    | 0x51008, 16 => min v (8192 - (bits word 0 13 + 1) / 2)
    | 0xA1000, 4 => if bits word 0 3 = 3 then v else v % 4
    | 0xA1004, 16 => min v (s.get Fd.GAL_VTIM0_VACT - 1)
    | 0xA1004, 0 => min v (s.get Fd.GAL_HTIM0_HACT - 1)
    | 0xA1008, 16 => max 1 (min v (s.get Fd.GAL_VTIM0_VACT - s.get (Fd.PANE_POS_Y i)))
    | 0xA1008, 0 => max 1 (min v (s.get Fd.GAL_HTIM0_HACT - s.get (Fd.PANE_POS_X i)))
    | 0xA1014, _ => max v (ceilTo 64 (4 * s.get (Fd.PANE_SIZE_W i)))
    | 0xA1018, 16 => max 1 (min v (4096 - bits word 0 12))
    | 0xA101C, 16 => max 1 (min v (1024 - bits word 0 10))
    | _, _ => v

/-! ### Gates and phases (R549, R562) -/

/-- The number of the unit whose registers lie at an offset, among those that can be gated. -/
def gatedUnit (off : Nat) : Option Nat :=
  if off / 0x1000000 = 1 then some 13
  else if 0x138000 ≤ off ∧ off < 0x140000 then some 17
  else match off / 0x10000 with
  | 4 => some 3
  | 5 => some 4
  | 6 => some 5
  | 7 => some 6
  | 8 => some 7
  | 9 => some 8
  | 10 => some 9
  | 11 => some 10
  | 12 => some 11
  | 13 => some 12
  | 15 => some 14
  | 17 => some 16
  | 20 => some 19
  | _ => none

/-- Whether an access goes to the default responder (R549). -/
def regsGated (s : State) (off : Nat) : Bool :=
  match gatedUnit off with
  | some u => (unitDomains u).all (fun d => domainGated s d)
  | none => false

/-- The default responder counts and reports an access (R549). -/
def defaultResponder (off : Nat) (s : State) : State :=
  (s.bump Fd.CLK_GATED_ACC).raisePerSecond 0 0x0109 [.w4 off]

/-- Whether a BAR0 write is discarded by the phase (R559, R562). -/
def phaseBlocks (s : State) (off : Nat) : Bool :=
  let p := s.get Fd.CFG_STATUS_PHASE
  (decide (p < 4) || p == 8) && !(off / 0x10000 == 20 || off / 0x10000 == 14)

/-! ### Protected fields (R614) -/

/-- Whether trace and spectrogram starts have taken effect since the epoch (R560). -/
def startedUp (s : State) : Bool := s.sys.counting && !s.sys.fresh

/-- Whether a protected field may not be written now; `w` is the word written at `off`. -/
def protNow (s : State) (p : Prot) (off i j w : Nat) : Bool :=
  match p with
  | .none => false
  | .ing => s.ingEn || (off == 0x30000 && bit w 0)
  | .asy => s.on Fd.ASY_CTRL_EN
  | .ddc => ddcRunning s i
  | .zc => zcRunning s i
  | .tr => startedUp s && s.on (Fd.TR_TCTRL_EN i j)
  | .sg => startedUp s && s.on (Fd.SG_CTRL_EN i)
  | .gal => s.on Fd.GAL_CTRL_EN || !s.on Fd.GAL_STATUS_QUIESCENT || (off == 0xA0000 && bit w 0)
  | .scr => s.get Fd.SCR_STATUS_STATE != 0
  | .wvr => s.on Fd.WVR_CTRL_EN || !s.on Fd.WVR_STATUS_QUIESCENT || (off == 0xC0000 && bit w 0)
  | .core => decide (2 ≤ s.get (Fd.COR_STATUS_STATE i))
  | .hif => s.on Fd.HIF_CTRL_EN || !s.on Fd.HIF_STATUS_QUIESCENT
  | .rctrl => s.on Fd.BYO_RCTRL_EN
  | .rx => s.on (Fd.RX_CTRL_EN i)
  | .pll => (i == 1 && s.ingEn) || (i == 2 && s.on Fd.GAL_CTRL_EN) || (i == 3 && s.on Fd.WVR_CTRL_EN)

/-- The discard event of a protection (R614). -/
def Prot.event : Prot → Nat
  | .none => 0
  | .ing => 0x0208
  | .asy => 0x0309
  | .ddc => 0x0403
  | .zc => 0x0403
  | .tr => 0x0506
  | .sg => 0x0805
  | .gal => 0x0908
  | .scr => 0x0A0E
  | .wvr => 0x0B09
  | .core => 0x0D06
  | .hif => 0x0E0A
  | .rctrl => 0x1010
  | .rx => 0x1010
  | .pll => 0x010B

/-! ### Stored values -/

/-- Who writes: host software, the base image (R560) or an overlay at its landing (R565). -/
inductive WrMode where
  | host | image | overlay
deriving DecidableEq, Repr

/-- The bits of a field. -/
def FieldDesc.mask (f : FieldDesc) : Nat := (2 ^ f.width - 1) * 2 ^ f.lo

/-- A field of a register as a place. -/
def FieldDesc.at' (f : FieldDesc) (off : Nat) : Fld := ⟨off, f.lo, f.width⟩

/-- A field of a single register takes its part of a written word, by its access code (R12). -/
def applyField (m : WrMode) (reg off i j mask w : Nat) (f : FieldDesc) (s : State) : State :=
  if Nat.land mask f.mask = 0 ∨ (reg = 0xD0100 ∧ i = 8 ∧ (f.lo = 8 ∨ f.lo = 4)) ∨ (reg = 0x2000C ∧ i = 1) ∨
      (reg = 0x100100 ∧ i < 3) then s
  else
    let fld := f.at' off
    let raw := fld.get w
    let own := f.legal.take f.width f.rst raw
    let v := dependLegal s reg i j f.lo w own
    let n := if v = own then f.legal.changed f.width raw own else 1
    match f.acc with
    | .ro => s
    | .wo => s
    | .w1c => s.set fld (Nat.land (s.get fld) (Nat.xor (fld.get (Nat.land mask w)) (2 ^ f.width - 1)))
    | .rw => (s.set fld v).clamped n
    | .rwp => if m = .host then pendChange .field off f.lo f.width v (s.clamped n) else (s.set fld v).clamped n

/-- Whether a register of a pair can be written. -/
def RegDesc.writable (d : RegDesc) : Bool := d.fields.any (fun f => f.acc == .rw || f.acc == .rwp)

/-- The write shadow of a pair, by the offset of its low word (R16). -/
def writeShadow (s : State) (off : Nat) : Nat := (Assoc.get (RegMap.resetWord off) s.wsh off).toNat

/-- A pair's low word is held in its write shadow (R16). -/
def holdLow (off w : Nat) (s : State) : State :=
  { s with wsh := Assoc.put (RegMap.resetWord off) s.wsh off (BitVec.ofNat 32 w) }

/-- The legal values of a pair, by the offset of its low word. -/
def pairLegal (off : Nat) : Legal :=
  match RegMap.find off with
  | some (d, _, _) => (match d.pair with
    | .low l => l
    | _ => .any)
  | none => .any

/-- A geometry field of a Hoop writer, by the register that completes its write (R238). -/
def geomField (reg : Nat) : Option Nat :=
  match reg with
  | 0x8100C => some 0
  | 0x81010 => some 1
  | 0x81014 => some 2
  | 0x81018 => some 3
  | 0x8101C => some 4
  | 0x81024 => some 5
  | _ => none

/-- A pair's high word commits both words (R16). -/
def commitPair (m : WrMode) (d : RegDesc) (reg off i w : Nat) (s : State) : State :=
  let hiMask := d.fields.foldl (fun a f => a + f.mask) 0
  let v := writeShadow s (off - 4) + 2 ^ 32 * Nat.land w hiMask
  match geomField reg with
  | some g => geomWrite i g v s
  | none =>
    let x := (pairLegal (off - 4)).take 64 0 v
    let s1 := s.clamped (b2n (x != v))
    if m = .host ∧ d.fields.any (fun f => f.acc == .rwp) then pendChange .pair (off - 4) 0 64 x s1
    else s1.wr64 (off - 4) x

/-! ### What a write does in its unit -/

/-- FS_KHZ, MODE or a field they bound has changed: everything held against the sample rate is held again (R112, R350,
R382, R538, R550). -/
def rateFollows (s : State) : State :=
  let s1 := ingReclamp s
  let mode := s1.get (Fd.PLL_CTRL_REFMODE 1)
  let legal := ingestModeClamp s1 mode
  let s2 := if legal = mode then s1 else (s1.set (Fd.PLL_CTRL_REFMODE 1) legal).clamped
  clkoutClamp (seqShow (wvrReclamp (clampTo Fd.WVR_CTRL_DDIV (ddivLegal s2) (tlyTin s2))))

/-- SLOTS of an input ring held to the data memory (R425). -/
def iqClamp (n r : Nat) (s : State) : State :=
  let most := (262144 - s.get (Fd.COR_IQ_BASE n r)) / (32 * max 2 (s.get (Fd.COR_IQ_SLOTS_SLOT n r)))
  if most < s.get (Fd.COR_IQ_SLOTS_SLOTS n r) then (s.set (Fd.COR_IQ_SLOTS_SLOTS n r) most).clamped else s

/-- A changed EN bit calls what starts or stops the unit. -/
def enEdge (f : Fld) (old : State) (up down : State → State) (s : State) : State :=
  if s.on f && !old.on f then up s else if !s.on f && old.on f then down s else s

/-- PHASE counts asked of Tally by a register write (R390). -/
def tcalNow (s : State) : State :=
  tcal ((List.range 9).map (fun k => (k, Config.phaseCounts s.free k))) s.fresh

/-- SCR.CTRL after a write (R318, R322, R327, R328, R330). -/
def scrCtrlWrite (old s : State) : State :=
  let s1 := drvEnWrite (old.get Fd.SCR_CTRL_DRV_EN) s
  let s2 := if !s1.on Fd.SCR_CTRL_EN && old.on Fd.SCR_CTRL_EN then scrDisable s1 else s1
  if s2.on Fd.SCR_CTRL_PB && !old.on Fd.SCR_CTRL_PB then playbackStart s2
  else if !s2.on Fd.SCR_CTRL_PB && old.on Fd.SCR_CTRL_PB then playbackStop s2
  else s2

/-- What a write does beyond storing values: register, offset, instance, the written bits, the states before and after the
fields took their values. -/
def afterWrite (reg off i j w : Nat) (old s : State) : State :=
  match reg with
  | 0x14 => s.set Fd.SYS_CLAMP_COUNT 0
  | 0x110 => epochCtrlWrite w s
  | 0x10000 => srcWrite (old.get Fd.CLK_SRC_SEL) s
  | 0x10034 => clkCntClear s
  | 0x10040 => clkoutClamp s
  | 0x10044 => clkoutClamp s
  | 0x20000 => if i = 0 then moveCheck s else s
  | 0x30000 =>
    let s1 := if bit w 2 then srScan s else s
    enEdge Fd.ING_CTRL_EN old ingEnable ingDisable s1
  | 0x30004 => rateFollows s
  | 0x30008 => rateFollows s
  | 0x3000C => ingReclamp s
  | 0x30018 => if s.get Fd.ING_RBD = old.get Fd.ING_RBD then s else setRbd (s.get Fd.ING_RBD) s
  | 0x30070 => s.each (List.range 4) (fun c s => s.wr (0x30060 + 4 * c) 0)
  | 0x40000 =>
    let s1 := if s.on Fd.ASY_CTRL_EN != old.on Fd.ASY_CTRL_EN then asyEnWrite s else s
    let s2 := if bit w 12 then asyAbort 1 s1 else s1
    if bits w 8 4 = 0 then s2 else asyReq (bits w 8 4) s2
  | 0x40004 => if s.get Fd.ASY_CFG_Q = old.get Fd.ASY_CFG_Q then s else asyQWrite s
  | 0x400C0 => asySatClear s
  | 0x50800 => zbSatClear s
  | 0x60100 => if bit w 16 then pendChange .action off 16 1 1 s else s
  | 0x6100C => spxSatClear s
  | 0x70028 => maskShow s
  | 0x70048 => trgCntClear s
  | 0x71000 =>
    let s1 := if bit w 9 then pendChange .action off 9 1 1 s else s
    if bit w 8 then tuArm i s1 else s1
  | 0x80008 => hoopCntClear s
  | 0x81000 => if bit w 9 then pendChange .action off 9 1 1 s else s
  | 0x90000 => if bit w 1 then pendChange .action off 1 1 1 s else s
  | 0x90F04 => denSatClear s
  | 0xA0000 =>
    let s1 := enEdge Fd.GAL_CTRL_EN old galEnable galDisable s
    if bit w 8 then galRetrain s1 else s1
  | 0xA0040 => galCommit (w % 256) s
  | 0xA0058 => s.set Fd.GAL_UNDERRUNS 0
  | 0xA0060 => palShow s
  | 0xB0000 => scrCtrlWrite old s
  | 0xB0038 => scrCntClear s
  | 0xC0000 =>
    let s1 := seqShow (wvrReclamp (clampTo Fd.WVR_CTRL_DDIV (ddivLegal s) s))
    enEdge Fd.WVR_CTRL_EN old (fun s => wvrEnable (Config.openLanes s.free).toNat s.fresh) wvrDisable s1
  | 0xC000C => seqShow (wvrReclamp s)
  | 0xC0010 => seqShow (wvrReclamp s)
  | 0xC0028 => wvrCntClear s
  | 0xC0030 => seqShow s
  | 0xC0100 => engCmd i (w % 16) s
  | 0xD0004 => tlyCntClear s
  | 0xD0008 => if bit w 16 then tcalNow s else s
  | 0xD0400 => fmCtrl i w s
  | 0xE0000 => enEdge Fd.HIF_CTRL_EN old hifEnable hifDisable s
  | 0xE0070 => hifCntClear s
  | 0xF0004 => ptrCntClear s
  | 0xF0100 => if !s.on (Fd.CH_CTRL_EN i) && old.on (Fd.CH_CTRL_EN i) then porterDisable i s else s
  | 0x100018 => srRequest (s.on Fd.HBM_SR_REQ) (s.set Fd.HBM_SR_REQ (old.get Fd.HBM_SR_REQ))
  | 0x10005C => hbmCntClear s
  | 0x100100 => if i < 3 then s else portClamp i s
  | 0x100104 => portClamp i s
  | 0x110000 =>
    if s.on Fd.BYO_CTRL_EN && !old.on Fd.BYO_CTRL_EN then byoEnable s
    else if !s.on Fd.BYO_CTRL_EN && old.on Fd.BYO_CTRL_EN then byoDisable s
    else portsFollow s
  | 0x110020 => routeShow s
  | 0x11002C => if s.on Fd.BYO_RCTRL_EN && !old.on Fd.BYO_RCTRL_EN then rctrlEnable s else s
  | 0x11006C => byoCntClear s
  | 0x110114 => if bit w 0 then portRetrain i s else s
  | 0x110600 => if s.on (Fd.RX_CTRL_EN i) && !old.on (Fd.RX_CTRL_EN i) then rxEnable i s else s
  | 0x120100 =>
    let s1 := hkRunWrite s
    if s1.on Fd.HK_CTRL_REF_EN != old.on Fd.HK_CTRL_REF_EN then hkRefWrite s1 (old.on Fd.HK_CTRL_REF_EN) else s1
  | 0x12010C => (s.set Fd.HK_COUNTS_TSKIP 0).set Fd.HK_COUNTS_PSKIP 0
  | 0x130060 => (s.set Fd.AGE_FAULTS 0).each (List.range 5) (fun t s => s.set (Fd.PTB_COUNT t) 0)
  | 0x140030 => s.set Fd.CFG_OV_DISC 0
  | 0x1000004 => cykCntClear s
  | 0x1800020 => iqClamp i j s
  | 0x1800024 => iqClamp i j s
  | _ => s

/-! ### Writes -/

/-- A write of CLK.GATEk (R547, R548): each changed bit of a gateable domain asks for its gate or ends it. -/
def gateWrite (k w : Nat) (s : State) : State :=
  s.each (List.range 32) (fun b s =>
    let d := 32 * k + b
    if 104 ≤ d ∨ gateKind d = 0 then s
    else if bit w b && !s.onBit (Fd.CLK_GATE k) b then gateRequest d s
    else if !bit w b && s.onBit (Fd.CLK_GATE k) b then ungate d s
    else s)

/-- Registers whose writes their units take whole: data ports, gates, geometry, protected memories, pin clears. The
answer is the state and whether the write was discarded. -/
def specialWrite (reg off i j sent w : Nat) (s : State) : Option (State × Bool) :=
  let word := BitVec.ofNat 32 w
  match reg with
  | 0x10010 => some (gateWrite i w s, false)
  | 0x58000 => if cmInUse s i then some (s.raise 0x0403 [.w4 off], true) else none
  | 0x61004 => some (uwinData (some word) s, uwinInUse s)
  | 0x61008 => if uwinInUse s then some (s.raise 0x0506 [.w4 off], true) else none
  | 0x7002C => some (maskData (some word) s, bankInUse s (s.get Fd.TRG_MASK_ADDR / 8192) (s.get Fd.TRG_MASK_ADDR / 4096 % 2))
  | 0x81010 => some (geomWrite i 1 (w % 2 ^ 17) s, false)
  | 0x81014 => some (geomWrite i 2 (w % 2 ^ 17) s, false)
  | 0x81018 => some (geomWrite i 3 w s, false)
  | 0x8101C => some (geomWrite i 4 w s, false)
  | 0xA0064 => some (palData (some word) s,
      palInUse s (s.get Fd.GAL_PAL_ADDR / 2048) (s.get Fd.GAL_PAL_ADDR / 1024 % 2))
  | 0xC0034 => some (seqData (some word) s, false)
  | 0x120010 => some (pinShortClear false sent s, false)
  | 0x120014 => some (pinShortClear true sent s, false)
  | 0x1800000 => some (cykCtrl i w s, false)
  | _ => if j = 0 then none else none

/-- A write of the bits of `mask` at a BAR0 offset. The answer's second part says whether any of it was discarded by a
rule of its unit or never reached a register. -/
def busWriteMasked (m : WrMode) (off mask value : Nat) (s : State) : State × Bool :=
  match RegMap.find off with
  | none => if 0xE8000 ≤ off ∧ off < 0xE8400 then (msixWrite ((off - 0xE8000) / 4) value s, false) else (s, true)
  | some (d, i, j) =>
    if regsGated s off then (defaultResponder off s, true)
    else if m == .host && phaseBlocks s off then (s.raise 0x130B [.w4 off], true)
    else
      let old := s.rd off
      let sent := Nat.land value mask
      let w := sent + Nat.land old (Nat.xor mask (2 ^ 32 - 1))
      match specialWrite d.off off i j sent w s with
      | some r => r
      | none =>
        let closed := d.fields.filter (fun f => Nat.land mask f.mask != 0 && protNow s f.prot off i j w)
        let hit := closed.filter (fun f => (f.at' off).get w != (f.at' off).get old)
        let s0 := match hit with
          | [] => s
          | f :: _ => s.raise f.prot.event [.w4 off]
        let open' := d.fields.filter (fun f => !closed.contains f)
        match d.pair with
        | .single =>
          let s1 := s0.each open' (applyField m d.off off i j mask w)
          (afterWrite d.off off i j sent s0 s1, !hit.isEmpty)
        | .low _ => (if d.writable && closed.isEmpty then holdLow off w s0 else s0, !hit.isEmpty)
        | .high =>
          if d.writable && closed.isEmpty then
            (afterWrite d.off off i j sent s0 (commitPair m d d.off off i w s0), !hit.isEmpty)
          else (s0, !hit.isEmpty)

/-! ### Reads (R13 to R15, R549) -/

/-- A read of the word at a BAR0 offset: the word, and what the read does. -/
def busRead (off : Nat) (s : State) : Nat × State :=
  match RegMap.find off with
  | none =>
    (if 0xE8000 ≤ off ∧ off < 0xE8400 then msixWord s ((off - 0xE8000) / 4)
     else if off = 0xE9000 then pbaWord s 0 else if off = 0xE9004 then pbaWord s 1 else 0, s)
  | some (d, _, _) =>
    if regsGated s off then (2 ^ 32 - 1, defaultResponder off s)
    else match d.pair with
    | .low _ => (s.rd off, { s with rsh := Assoc.put 0#32 s.rsh (off + 4) (BitVec.ofNat 32 (s.rd (off + 4))) })
    | .high => ((Assoc.get 0#32 s.rsh off).toNat, s)
    | .single =>
      match off with
      | 0x61004 => ((Assoc.get 0#32 s.spx.uwin (s.get Fd.SPXG_UWIN_ADDR)).toNat, uwinData none s)
      | 0x7002C => let s1 := maskShow s; (s1.rd off, maskData none s1)
      | 0xA0064 => let s1 := palShow s; (s1.rd off, palData none s1)
      | 0xC0034 => let s1 := seqShow s; (s1.rd off, seqData none s1)
      | 0x110024 => let s1 := routeShow s; (s1.rd off, routeRead s1)
      | _ => (s.rd off, s)

end Sys2Proof.Machine
end

