-- ==== Sys2Proof/Machine/HealthLanding.lean ====
section
/-! DEFINITION. What the health unit does at a decision point and at a landing (R574, R575, R585, R586). -/

namespace Sys2Proof.Machine

/-- At a decision point a computed re-plan becomes due at the landing, and so does a reload (R574, R585). -/
def ageDecide (s : State) : State :=
  let due (t : Takeover) : Takeover := if t.phase = .retest then { t with phase := .reload } else t
  { s with age := { s.age with
    replan := s.age.replan.map (fun r => { r with armed := true })
    takeovers := s.age.takeovers.map due } }

/-- One equaliser step of a lane toward its goal. -/
def eqStep (e : EqStep) : EqStep :=
  if e.now < e.goal then { e with now := e.now + 1 } else if e.goal < e.now then { e with now := e.now - 1 } else e

/-- One step of every class of a re-plan lands; when the last step has landed the re-plan is complete (R574, R575). -/
def replanLand (s : State) : State :=
  match s.age.replan with
  | none => s
  | some r =>
    if !r.armed then s
    else
      let set := s.get Fd.AGE_VCORE_SET
      let tgt := s.get Fd.AGE_VCORE_TARGET
      let s1 := if set < tgt then s.set Fd.AGE_VCORE_SET (set + 1)
        else if tgt < set then s.set Fd.AGE_VCORE_SET (set - 1) else s
      let eq := r.eq.map eqStep
      let s2 := eq.foldl (fun s e => { s with age := { s.age with eqCode := keep s.age.eqCode e.lane e.now } }) s1
      let s3 := if r.trims then hbmTrims s2 else s2
      let doneEq := eq.all (fun e => e.now == e.goal)
      if s3.get Fd.AGE_VCORE_SET = tgt && doneEq && !tlyStepping s3 then
        let changed := if r.eq.all (fun e => e.dropped) then r.changed - bits r.changed 1 1 * 2 else r.changed
        let s4 := { s3 with age := { s3.age with replan := none } }.set Fd.AGE_STATUS_QUIESCENT 1
        ledgerWrite 2 (s4.raise 0x1103 [.w4 changed])
      else { s3 with age := { s3.age with replan := some { r with eq := eq, trims := false } } }

/-- The return after a takeover at landing L (R585, R586): reload, compare, switch. `diff` is the channel whose compare
has found a difference, if any. -/
def takeoverLand (l : Tick) (diff : Option Nat) (t : Takeover) (s : State) : Takeover × State :=
  match t.phase with
  | .covered => (t, s)
  | .retest => (t, s)
  | .reload => ({ t with phase := .live l }, s)
  | .live l1 =>
    if tle (tadd l1 (histTicks t.ch s)) l then ({ t with phase := .compare l }, s) else (t, s)
  | .compare lc =>
    if diff = some t.ch then
      ({ t with phase := .covered }, (s.setB Fd.AGE_STATUS_FAILED t.ch).raise 0x1123 [.w4 t.ch])
    else if tle (tadd lc (s.interval + t.o)) l then
      if s.on Fd.AGE_CTRL_AUTO_RETURN then ({ t with phase := .staged l }, endFlag t.ch 0x40 l s)
      else ({ t with phase := .covered }, s)
    else (t, s)
  | .staged _ => (t, s)

/-- Every takeover's step at landing L. -/
def takeoversLand (l : Tick) (diff : Option Nat) (s : State) : State :=
  let r := s.age.takeovers.foldl (fun (acc : List Takeover × State) t =>
    let q := takeoverLand l diff t acc.2
    (acc.1 ++ [q.1], q.2)) ([], s)
  { r.2 with age := { r.2.age with takeovers := r.1 } }

end Sys2Proof.Machine
end

