-- ==== Sys2Proof/Machine/Takeover.lean ====
section
/-! DEFINITION. Front-end faults and the replay takeover (R581 to R588): detection, the replay offset, and what a compare
difference is (R132, R581). -/

namespace Sys2Proof.Machine

/-- The replay offset of R582. -/
def replayOffset (tx need : Tick) : Nat :=
  min 409600 (4096 * (((tx - need).toNat + 4096 + 4095) / 4096))

/-- The replay offset before its cap. -/
def replayUncapped (tx need : Tick) : Nat := 4096 * (((tx - need).toNat + 4096 + 4095) / 4096)

/-- CHS covers channel c from t_x on with a replay offset (R582). -/
def cover (c o : Nat) (tx : Tick) (s : State) : State :=
  let t : Takeover := { ch := c, o := o, tx := tx, phase := .covered, bad := false }
  let s1 := (s.set Fd.ASY_STATUS_CHS_OWNER 2).setB Fd.AGE_STATUS_COVERED c
  { s1 with age := { s1.age with takeovers := s1.age.takeovers ++ [t] } }

/-- CHS takes channel c over by replay (R582, R583). -/
def takeover (c : Nat) (tx need : Tick) (s : State) : State :=
  let o := replayOffset tx need
  let s1 := addSpan Df.sby (2 ^ c) need none (flagSamples c need none Df.sby s)
  let s2 := if o < replayUncapped tx need then zeroSamples c (tsub tx 405504) s1 else s1
  ((cover c o tx s2).set (Fd.AGE_OFFSET c) o).raise 0x1121 [.w4 c, .w4 o, .t tx]

/-- CHS has failed (R587). -/
def chsFail (tx : Tick) (s : State) : State :=
  ((s.set Fd.AGE_STATUS_CHS_FAIL 1).set Fd.ASY_STATUS_CHS_OWNER 2).raise 0x1126 [.t tx]

/-- FRONT_END_FAULT (R581, R582, R587, R588): a check finds a fault of a pipeline; `need` is the earliest contributing
stream time of the first discarded output. Where the freed pipeline of a covered channel fails, CHS goes on feeding the
channel (R133). -/
def frontEndFault (pipe : Nat) (tx need : Tick) (s : State) : State :=
  let s1 := s.raise 0x1120 [.w4 pipe, .t tx]
  if pipe < 4 then
    if !s1.age.takeovers.isEmpty || s1.on Fd.AGE_STATUS_CHS_FAIL then
      { flagFrom pipe tx Df.mem s1 with age := { s1.age with uncovered := pipe :: s1.age.uncovered } }.raise 0x1124
        [.w4 pipe, .t tx]
    else
      let r := asyFrontEndFault pipe (ageFault 0x1120 tx.toNat s1)
      asyQueue false (if r.2 then takeover pipe tx need r.1 else cover pipe 0 tx r.1)
  else
    match s1.age.takeovers with
    | t :: ts =>
      { flagFrom t.ch tx Df.mem s1 with age := { s1.age with takeovers := { t with bad := true } :: ts } }
    | [] => asyQueue false (chsFail tx (asyChsFault tx (ageFault 0x1126 tx.toNat s1)))

/-- A compare of an Assayer run of channel c has found a difference at stream time t (R132, R581): the run aborts with
reason 4, and the pipeline that was being compared has failed: CHS in COMPARE; in RETURN_COMPARE the channel's own, and
CHS goes on feeding the channel. -/
def compareFault (c : Nat) (t : Tick) (s : State) : State :=
  match s.asy.run with
  | none => s
  | some r =>
    let found (pipe : Nat) : State :=
      asyDrop 4 ((s.raise 0x0306 [.w4 c, .t t]).raise 0x1120 [.w4 pipe, .t t])
    if r.ch != c then s
    else match r.phase with
      | .compare => asyQueue true (chsFail t (ageFault 0x1126 t.toNat (found 4)))
      | .retCompare => asyQueue true (cover c 0 t (ageFault 0x1120 t.toNat (found c)))
      | _ => s

end Sys2Proof.Machine
end

