-- ==== Sys2Proof/Machine/Landing.lean ====
section
/-! DEFINITION. Landings (R38 to R46, R615): the changes taken are applied in order of arrival, the internal steps follow,
every unit takes its configuration, and at a stop landing every unit ends its open work. -/

namespace Sys2Proof.Machine

/-! ### The changes (R41) -/

/-- A change that lands: an entry of the pending store, or an overlay. -/
inductive LandItem where
  | entry (e : PendEntry)
  | overlay (a : Apply)
deriving DecidableEq, Repr

/-- The arrival of a change (R41). -/
def LandItem.seq : LandItem → Nat
  | .entry e => e.seq
  | .overlay a => a.seq

/-- A change put in its place by arrival. -/
def insItem (x : LandItem) : List LandItem → List LandItem
  | [] => [x]
  | y :: ys => if x.seq < y.seq then x :: y :: ys else y :: insItem x ys

/-- What a landed entry of the pending store does to the registers; an action acts in its unit. -/
def landEntry (e : PendEntry) (s : State) : State :=
  match e.kind with
  | .field => s.set ⟨e.off, e.lo, e.width⟩ e.value
  | .pair => s.wr64 e.off e.value
  | .action => s

/-- The fields that an overlay's entry has written, as journal entries (R321, R565). -/
def overlayFields (e : ImgEntry) (s : State) : List PendEntry :=
  match RegMap.find e.addr with
  | none => []
  | some (d, _, _) =>
    match d.pair with
    | .single =>
      (d.fields.filter (fun f => Nat.land e.mask f.mask != 0 && (f.acc == .rw || f.acc == .rwp))).map
        (fun f => ⟨0, .field, e.addr, f.lo, f.width, s.get (f.at' e.addr), true⟩)
    | .low _ => []
    | .high => [⟨0, .pair, e.addr - 4, 0, 64, s.rd64 (e.addr - 4), true⟩]

/-- The entries of an image act one after the other (R565): the fields written, the entries discarded, the state. -/
def overlayEntries : List ImgEntry → State → List PendEntry × Nat × State
  | [], s => ([], 0, s)
  | e :: es, s =>
    let q := busWriteMasked .overlay e.addr e.mask e.value s
    let r := overlayEntries es q.1
    if q.2 then (r.1, r.2.1 + 1, r.2.2) else (overlayFields e q.1 ++ r.1, r.2.1, r.2.2)

/-- OV.PENDING, CFG.PEND and CFG.STATUS.QUIESCENT follow the applies that wait (R565). -/
def overlayShow (index : Nat) (s : State) : State :=
  let s1 := s.set (Fd.CFG_OV_PENDING index) (b2n (s.cfg.applies.any (fun a => a.index == index)))
  (s1.set Fd.CFG_PEND s.cfg.applies.length).set Fd.CFG_STATUS_QUIESCENT
    (b2n (s.cfg.applies.isEmpty && !s.on Fd.CFG_PROG_BUSY))

/-- An overlay acts and is reported (R565). -/
def overlayAct (index landing : Nat) (entries : List ImgEntry) (s : State) : List PendEntry × State :=
  let r := overlayEntries entries s
  (r.1, (r.2.2.bump Fd.CFG_OV_DISC r.2.1).raise 0x1304 [.w4 index, .w8 landing, .w4 r.2.1])

/-- The changes of a landing in order: what landed, and the state. -/
def landItems : List LandItem → State → List PendEntry × State
  | [], s => ([], s)
  | .entry e :: xs, s =>
    let r := landItems xs (landEntry e s)
    (e :: r.1, r.2)
  | .overlay a :: xs, s =>
    let s0 := { s with cfg := { s.cfg with applies := s.cfg.applies.filter (fun b => b.seq != a.seq) } }
    let q := overlayAct a.index a.landing.toNat a.entries s0
    let r := landItems xs (overlayShow a.index q.2)
    (q.1 ++ r.1, r.2)

/-- Every change that lands at L: recorded ones first in a playback (R324), then entries and overlays by arrival (R41). -/
def landChanges (l : Tick) (s : State) : List PendEntry × State :=
  let first := pbJournal s l
  let mine := s.sys.pend.filter (fun e => e.taken)
  let due := s.cfg.applies.filter (fun a => a.landing == l)
  let items := due.foldl (fun xs a => insItem (.overlay a) xs) (mine.map LandItem.entry)
  let sys := { s.sys with
    pend := s.sys.pend.filter (fun e => !e.taken)
    decided := none }
  let s0 := { s with sys := sys }
  let r := landItems (first.map LandItem.entry ++ items) s0
  (r.1, refreshLand r.2)

/-- The configuration that a landing replaces is kept for outputs that straddle it (R40). -/
def notePast (old : State) (l : Tick) (s : State) : State :=
  if s.regs = old.regs then s else { s with past := ⟨l, old.regs, old.trg.mask, old.spx.uwin⟩ :: s.past }

/-! ### Internal steps (R41, R134, R574) -/

/-- Coefficients after the landing's changes: the recorded ones, CORR_EN, the steps of gradual applications (R117, R134,
R137). -/
def coefLand (old : State) (l : Tick) (s : State) : State :=
  let s1 := s.each (List.range 4) (fun c s =>
    if s.onBit Fd.ASY_CTRL_CORR_EN c = old.onBit Fd.ASY_CTRL_CORR_EN c then s else asyCorrLand c l s)
  asySteps l (pbCal l s1)

/-- Internal steps land after every other change. -/
def internalSteps (old : State) (l : Tick) (s : State) : State := tlySteps l (replanLand (coefLand old l s))

/-! ### A stop (R31, R615, R579) -/

/-- Stream time stops at L: no sample stamped L or later reaches a unit, and every unit ends its open work. `shutdown`
says that an ordered shutdown stops it: Hoop then closes as for EN landing as 0 (R579). -/
def stopAt (shutdown : Bool) (l : Tick) (s : State) : State :=
  let sys := { s.sys with
    counting := false
    draining := true
    stopTaken := false
    stopReq := false
    decided := none }
  let s1 := { s with sys := sys }
  let s2 := s1.each (enabledChans s1) (fun c s => deliverCorrected c l 1048576 s)
  let s3 := cmpRunAll 1048576 (ddcStopAll l s2)
  let s4 := denStopAll l (spxCutAll l (spxStopAll l s3))
  let s5 := tuStopAll l s4
  let s6 := if shutdown then s5.each (List.range 8) (fun n s => hwQueue n l .disable s) else hoopStopAll l s5
  xpStopAll l (feedStopAll l (scrClose l 3 s6))

/-- HISTc of every channel follows its configuration (R129). -/
def histShow (s : State) : State := s.each (List.range 4) (fun c s => s.set (Fd.ASY_HIST c) (histTicks c s))

/-! ### The landing (R40) -/

/-- The numbers of the instances whose action landed: register offset of instance 0, distance, count, bit. -/
def landedActs (landed : List PendEntry) (base stride n lo : Nat) : List Nat :=
  (List.range n).filter (fun i => landed.any (fun e => e.kind == .action && e.off == base + stride * i && e.lo == lo))

/-- The traces whose CLEAR landed. -/
def landedClears (landed : List PendEntry) : List (Nat × Nat) :=
  (List.range 4).flatMap (fun c => (List.range 4).filterMap (fun t =>
    if landed.any (fun e => e.kind == .action && e.off == trAt c t 0 && e.lo == 16) then some (c, t) else none))

/-- Every unit takes its configuration at L, in the order of R156, R176 and R274, sources before units and units before
the consumers of triggers. -/
def unitsLand (old : State) (l : Tick) (changes : List PendEntry) (s : State) : State :=
  let landed := changes.map (fun e => (e.off, e.lo))
  let s1 := spxLand old l landed (landedClears changes) (ddcLand l landed s)
  let s2 := tuLand old l landed (srcLand old l (denLand old l (landedActs changes 0x90000 0x100 4 1) s1))
  let s3 := wvrLand old (hoopLand old l (landedActs changes (hwAt 0 0) 0x100 8 9) s2)
  xpLand old l (feedLand old l landed (tlyLand old s3))

/-- Assayer and the health unit at L (R127, R130, R585): `diff` is a difference that a compare has found. -/
def frontEndsLand (l : Tick) (diff : Option (Nat × Tick)) (s : State) : State :=
  let s1 := histShow s
  let s2 := s1.withSome diff (fun d s => compareFault d.1 d.2 s)
  let hist (s : State) : Nat := (s.asy.run.map (fun r => histTicks r.ch s)).getD 0
  takeoversLand l (diff.map Prod.fst) (asyRunLand l (hist s2) (asyQueue true (asyTempRule s2)))

/-- The perturbation targets are seeded again when one of their fields lands (R589). -/
def ptbLand (changes : List PendEntry) (l : Tick) (s : State) : State :=
  if changes.any (fun e => decide (0x138000 ≤ e.off) && decide (e.off < 0x140000)) then ptbReseed l s else s

/-- Why a playback is to end at L, if it is (R327): PB or EN was written 0, L is at or after PB_STOP, which is compared as a
plain number, or stream time stops. -/
def playbackEndsAt (l : Tick) (s : State) : Option Nat :=
  match s.scr.pb with
  | none => none
  | some p =>
    if !p.running then none
    else match p.stopReq with
      | some c => some c
      | none => if s.rd64 0xB0040 ≤ l.toNat then some 1 else if s.sys.stopTaken then some 2 else none

/-- The playback in progress ends with a cause. -/
def playbackEnds (cause : Option Nat) (s : State) : State :=
  match cause with
  | none => s
  | some c => { s with scr := { s.scr with pb := s.scr.pb.map (fun p => { p with ended := some c }) } }

/-- The landing that its decision point has prepared is performed. -/
def landing (diff : Option (Nat × Tick)) (s : State) : State :=
  match s.sys.decided with
  | none => s
  | some l =>
    let ends := playbackEndsAt l s
    let stop := s.sys.stopTaken || ends.isSome
    let r := landChanges l s
    let s1 := notePast s l (internalSteps s l r.2)
    let k := s1.get Fd.SYS_LANDING_CFG_K
    let s2 := s1.raiseIf (k != s.get Fd.SYS_LANDING_CFG_K) 0x0017 [.w4 k, .t l]
    let s3 :=
      if stop then stopAt false l (playbackEnds ends (ptbLand r.1 l s2))
      else
        let u := ptbLand r.1 l (frontEndsLand l diff (unitsLand s l r.1 s2))
        { scrLand s l r.1 u with ing := { u.ing with freshEn := false } }
    refreshLand { s3 with sys := { s3.sys with fresh := s3.sys.fresh && stop } }

/-- LANDING (R40): the landing is due once every sample before it has been released. `diff` is the first difference that a
compare of the landing interval found, with its channel (R132, R586). -/
def execLanding (diff : Option (Fin 4 × Tick)) (s : State) : Out :=
  if s.sys.counting && s.sys.decided == some s.sys.next then
    .next (landing (diff.map (fun d => (d.1.val, d.2))) s)
  else .next s

/-- The decision point of the next landing (R39): what is pending is taken, and what runs or re-plans becomes due. -/
def decide' (s : State) : State := tlyDecide (asyDecide (ageDecide (takePending (nextLanding s) s)))

/-- DECISION_POINT (R39): the decision point is reached once every sample before it has been released. -/
def execDecisionPoint (s : State) : Out :=
  if s.sys.counting && s.sys.decided.isNone && nextDecision s == s.sys.next then .next (decide' s) else .next s

end Sys2Proof.Machine
end

