-- ==== Sys2Proof/Machine/Phase.lean ====
section
/-! DEFINITION. PHASE and standby (R557, R569, R570). -/

namespace Sys2Proof.Machine

/-- PHASE takes a value and event 0x1307 is raised (R557). -/
def toPhase (p : Nat) (s : State) : State :=
  { s with cfg := { s.cfg with stage := p } }.set Fd.CFG_STATUS_PHASE p |>.raise 0x1307 [.w4 p]

/-- The domains that standby gates: every gateable one whose unit is idle (R569). -/
def standbyDomains (s : State) : List Nat :=
  (List.range 104).filter (fun d => gateKind d != 0 && unitIdle s (domainUnit d))

/-- A write of CTRL.STANDBY = 1 (R569, R570). -/
def standbyEnter (s : State) : State :=
  let p := s.get Fd.CFG_STATUS_PHASE
  if s.run || !(p = 5 || p = 7) then (s.set Fd.CFG_CTRL_STANDBY 0).raise 0x1309 [.w4 2]
  else
    let s1 := { (s.set Fd.CFG_CTRL_STANDBY 1).set Fd.CFG_STATUS_STANDBY_ACT 1 with
      cfg := { s.cfg with standbyPrev := p } }
    let doms := standbyDomains s1
    let s2 := s1.each doms (fun d s => gateRequest d s)
    let s3 := { s2 with cfg := { s2.cfg with standbyGated := doms } }
    (toPhase 9 (srReq s3)).raise 0x1309 [.w4 0]

/-- Standby ends: SR.REQ clears, the domains it gated are ungated in the reverse order, PHASE returns (R569). -/
def standbyLeave (s : State) : State :=
  if !s.on Fd.CFG_STATUS_STANDBY_ACT then s.set Fd.CFG_CTRL_STANDBY 0
  else
    let s1 := ((s.set Fd.CFG_CTRL_STANDBY 0).set Fd.CFG_STATUS_STANDBY_ACT 0).set Fd.HBM_SR_REQ 0
    let s2 := s1.each s.cfg.standbyGated.reverse (fun d s => ungate d s)
    (toPhase s.cfg.standbyPrev { s2 with cfg := { s2.cfg with standbyGated := [] } }).raise 0x1309 [.w4 1]

/-- STANDBY_ENTER (R569): CFG.CTRL.STANDBY is written 1. -/
def execStandbyEnter (s : State) : Out := .next (standbyEnter s)

/-- STANDBY_LEAVE (R569): STANDBY is written 0, or an epoch is applied. -/
def execStandbyLeave (s : State) : Out := .next (standbyLeave s)

end Sys2Proof.Machine
end

