-- ==== Sys2Proof/Machine/Beat.lean ====
section
/-! DEFINITION. The ingest point (R24 to R31, R88, R100 to R110): the epoch is applied, beats are released with the
landings that fall due, stream time stops; and the frames of the spectral engine. -/

namespace Sys2Proof.Machine

/-! ### The epoch (R29, R560, R615) -/

/-- Flagged spans at a new epoch: those that R37 flags end, a condition that lasts goes on from E, and what ended at or
before E is forgotten. -/
def spansFrom (e : Tick) (l : List FlagSpan) : List FlagSpan :=
  (l.filter (fun f => !(f.chans == allChans && f.bits == Df.ing && f.hi.isNone) && f.hi.all (fun h => tlt e h))).map
    (fun f => if f.hi.isNone then { f with lo := e } else f)

/-- Work that waits over the stop goes on from the new epoch: a run of Assayer, gradual applications not yet begun,
takeovers, and overlays at the first landing (R32). -/
def carryOver (e : Tick) (s : State) : State :=
  let asy := { s.asy with
    run := s.asy.run.map (fun r => { r with since := e, win := e })
    applying := s.asy.applying.map (fun a => if a.step = 0 then { a with first := e } else a) }
  let phase (p : TakePhase) : TakePhase := match p with
    | .covered => .covered
    | .retest => .retest
    | .reload => .reload
    | .live _ => .live e
    | .compare _ => .compare e
    | .staged _ => .staged e
  let first := nextLanding s
  { s with
    asy := asy
    age := { s.age with takeovers := s.age.takeovers.map (fun t => { t with phase := phase t.phase }) }
    cfg := { s.cfg with applies := s.cfg.applies.map (fun a => { a with landing := first }) } }

/-- Stream time starts: E is the stream time of the next sample. Every unit begins without history. -/
def epochStart (e : Tick) (src : Nat) (s : State) : State :=
  let sys := { s.sys with
    next := e
    counting := true
    base := e
    committed := none
    decided := none
    stopReq := false
    stopTaken := false
    draining := false
    fresh := true
    spans := spansFrom e s.sys.spans }
  let s1 := { s with
    sys := sys
    past := []
    dsp := DspSt.init
    spx := { s.spx with segs := [], frames := [], recs := [] } }
  let s2 := (s1.set Fd.SYS_ST_STATUS_RUN 1).set Fd.SYS_ST_STATUS_EPOCH_SRC src
  let s3 := hoopEpoch e (denEpoch e (asyEpoch e (trgEpoch e (s2.raise 0x0010 [.t e]))))
  let s4 := carryOver e (xpEpoch (feedEpoch s3))
  refreshLand (if s4.on Fd.CFG_STATUS_STANDBY_ACT then standbyLeave s4 else s4)

/-- EPOCH_APPLIED (R29): the first sample of the marked EMB leaves the elastic buffer. -/
def execEpochApplied (s : State) : Out :=
  match s.sys.committed with
  | some e => if s.run then .next s else .next (epochStart e s.sys.commitSrc s)
  | none => .next s

/-! ### The released sample (R88, R101 to R104, R323) -/

/-- A converter word placed as R7 lays down: the N bits of ING.MODE.NRES, control and tail bits replaced by zeros. -/
def placed (s : State) (x : Code16) : Int :=
  let low := 2 ^ (4 - 2 * s.get Fd.ING_MODE_NRES)
  sext 16 (x.toNat / low * low)

/-- What channel c releases at stream time t, from the container words of that tick: both components and flags; none for
a channel that is OFF. -/
def releasedSample (s : State) (c : Nat) (t : Tick) (raw : Code16 × Code16) : Option Samp :=
  let fl := spanFlags s (2 ^ c) t t
  match s.scr.pb with
  | some p =>
    if s.chan c = 0 then none
    else match (pbStreamOf p c).bind (fun sid => pbSample (look [] p.ahead sid) t) with
      | some x => some ⟨t, x.1, x.2.1, Nat.lor fl x.2.2, 0⟩
      | none => some ⟨t, 0, 0, Nat.lor fl Df.gap, 0⟩
  | none =>
    let data : Samp := ⟨t, placed s raw.1, if s.isComplex then placed s raw.2 else 0, fl, 0⟩
    let zero : Samp := ⟨t, 0, 0, Nat.lor fl Df.ing, 0⟩
    match s.chan c with
    | 0 => none
    | 2 => some data
    | 3 => some (match s.ing.zeroFrom.find? (fun z => z.1 == c) with
      | some z => if tlt t z.2 then data else zero
      | none => zero)
    | _ => some zero

/-- Where the sample of stream time t lies in channel c's replay ring, and its bytes (R108). -/
def replaySlot (s : State) (c : Nat) (x : Samp) : Nat × List Byte :=
  let ring := 0x17FE000000 + c * 0x400000
  if s.isComplex then (ring + x.t.toNat % 2 ^ 20 * 4, le 2 (encI 16 x.i) ++ le 2 (encI 16 x.q))
  else (ring + x.t.toNat % 2 ^ 21 * 2, le 2 (encI 16 x.i))

/-- The flag byte of the 256 ticks around stream time t (R108). -/
def flagSlot (s : State) (c : Nat) (t : Tick) : Nat :=
  0x17FF000000 + c * 0x2000 + t.toNat / 256 % (if s.isComplex then 4096 else 8192)

/-- A released sample enters its stream and the replay ring (R108). -/
def releaseTo (c : Nat) (x : Samp) (s : State) : State :=
  let slot := replaySlot s c x
  let s1 := (pushSamp c x s).store slot.1 slot.2
  let at' := flagSlot s c x.t
  let old := if x.t.toNat % 256 = 0 ∨ x.t = s.sys.base then 0 else s.loadN at' 1
  s1.store at' (le 1 (Nat.lor old x.fl))

/-- The sample of one tick leaves every channel's elastic buffer, and Weaver follows it. -/
def releaseTick (raw : Nat → Code16 × Code16) (s : State) : State :=
  let t := s.sys.next
  let s1 := s.each (List.range 4) (fun c s => s.withSome (releasedSample s c t (raw c)) (releaseTo c))
  wvrAt t { s1 with sys := { s1.sys with next := t + 1 } }

/-! ### Beats (R28, R39, R100) -/

/-- A decision point or a landing that the next sample reaches is performed before it. -/
def dueNow (s : State) : State :=
  let s1 := if s.sys.decided.isNone && nextDecision s == s.sys.next then decide' s else s
  if s1.sys.decided == some s1.sys.next then landing none s1 else s1

/-- Channels whose lanes are all aligned become UP at the start of an EMB (R104). -/
def upNow (s : State) : State :=
  if s.ing.upDue = 0 || embPos s != 0 then s
  else
    let s1 := s.each ((List.range 4).filter (fun c => bit s.ing.upDue c)) (fun c s =>
      ({ s.set (chanFld c) 2 with ing := { s.ing with zeroFrom := drop s.ing.zeroFrom c } }).raise 0x0203
        [.w4 c, .t (timeNow s)])
    { s1 with ing := { s1.ing with upDue := 0 } }

/-- The ticks of a beat from the k-th on, while stream time runs. -/
def releaseTicks (beat : Nat → Nat → Code16 × Code16) (k : Nat) : Nat → State → State
  | 0, s => s
  | n + 1, s =>
    let s1 := dueNow s
    if s1.sys.counting then releaseTicks beat (k + 1) n (releaseTick (fun c => beat c k) s1) else s1

/-- What a released beat lets the streams after the ingest point deliver (R107, R115, R144, R202). -/
def downstream (s : State) : State :=
  let upto := tsub s.sys.next 79
  let s1 := s.each ((List.range 4).filter (fun c => s.chan c != 0)) (fun c s => deliverCorrected c upto 4096 s)
  let s2 := s1.each (List.range 4) (fun c s => stepDdc c (look s.sys.base s.dsp.corNext c) 4096 s)
  let s3 := s2.each (List.range 64) (fun z s => stepZc z 4096 s)
  let s4 := cmpRunAll 4096 (s3.each (List.range 8) cdAnchor)
  wvrOut s4.tRel (scrPull (s4.each (List.range 8) (hwSettle · 64)))

/-- The oldest stream time that the replay rings still hold (R109). -/
def oldest (s : State) : Tick :=
  let span := s.get Fd.ING_RW_SPAN
  if (s.sys.next - s.sys.base).toNat ≤ span then s.sys.base else tsub s.sys.next span

/-- A beat whose samples are `beat` leaves the elastic buffers: the landings on its way are performed, ST_NOW and
RW_OLDEST follow (R28, R109). A stop ends it at its landing (R31). -/
def releaseBeat (beat : Nat → Nat → Code16 × Code16) (s : State) : State :=
  let first := s.sys.next
  let s1 := upNow { s with ing := { s.ing with iclk := s.ing.iclk + 1 } }
  let s2 := releaseTicks beat 0 16 s1
  let moved := s2.sys.next != first
  let s3 := if moved then s2.wr64 0x100 (floorTo 16 first.toNat) else s2
  if s3.sys.counting then refreshLand (downstream (s3.wrT 0x30080 (oldest s3))) else s3

/-- BEAT_RELEASE (R100, R105, R323, R325): one ICLK period passes. `beat` lists, per channel, the container words of the
converters for its 16 ticks as the lanes deliver them. In a playback the recorded samples are released instead, and a beat
that the read-ahead does not hold is withheld. While stream time does not run only the clock moves on. -/
def execBeatRelease (beat : List (List (Code16 × Code16))) (s : State) : Out :=
  if !s.sys.counting then .next { upNow s with ing := { (upNow s).ing with iclk := s.ing.iclk + 1 } }
  else match s.scr.pb with
    | none => .next (releaseBeat (fun c k => (beat.getD c []).getD k (0, 0)) s)
    | some p =>
      if pbReady p s.sys.next then
        let s1 := releaseBeat (fun _ _ => (0, 0)) s
        .next { s1 with scr := { s1.scr with pb := s1.scr.pb.map (pbTrim s1.sys.next) } }
      else .next (if p.done then s else s.bump Fd.SCR_PB_STALLS)

/-! ### The end of stream time (R31) -/

/-- Whether every unit has finished the work it accepted before the stop (R21, R615). -/
def drained (s : State) : Bool :=
  (List.range 4).all (fun c => (look [] s.dsp.ddc c).isEmpty && !(s.spxSegs c).any segPending) &&
  (List.range 64).all (fun z => (look [] s.dsp.zc z).isEmpty) &&
  (List.range 8).all (fun n => (s.tu n).idle && (s.hw n).acts.isEmpty && (s.hw n).headers.isEmpty) &&
  (List.range 16).all (fun f => (feedTrim s (look [] s.cyk.feeds f)).isEmpty) &&
  (List.range 8).all (fun x => (xpTrim s (look [] s.byo.xp x)).isEmpty) &&
  !(s.get Fd.SCR_STATUS_STATE == 1 || s.get Fd.SCR_STATUS_STATE == 2)

/-- RUN clears (R31): what ended is forgotten, channels of a disabled ingest are OFF (R101), and an ARM written with the
STOP acts. -/
def timeStopped (s : State) : State :=
  let sys := { s.sys with
    draining := false
    spans := s.sys.spans.filter (fun f => f.hi.isNone)
    armAfterStop := false }
  let s1 := { s with sys := sys }.set Fd.SYS_ST_STATUS_RUN 0
  let s2 := if s1.ingEn then s1 else s1.each (List.range 4) (fun c s => s.set (chanFld c) 0)
  if s.sys.armAfterStop then epochArm 1 s2 else s2

/-- STREAM_TIME_STOPPED (R31): the last unit has become quiescent after a stop. The end of a playback is PLAYBACK_END. -/
def execStreamTimeStopped (s : State) : Out :=
  if s.sys.draining && s.scr.pb.isNone && drained s then .next (timeStopped s) else .next s

/-! ### Frames (R171, R182) -/

/-- SPX_FRAME (R184, R263, R207): the next frame of a channel whose samples have all been delivered is computed and taken by
its traces, the density engine and the frame sources. -/
def execSpxFrame (ch : Fin 4) (s : State) : Out :=
  let c := ch.val
  match readyFrame s c with
  | none => .next s
  | some (g, t) =>
    let r := computeFrame s c g t
    let s1 := stick r.1.fl r.1.t (deliverFrame c g r.1 r.2 (sgSettle c 64 s))
    let s2 := spxSettle c (trgFrame c r.1 (denTake c r.1 s1))
    .next (s2.each (List.range 8) (hwSettle · 64))

end Sys2Proof.Machine
end

