-- ==== Sys2Proof/Machine/Porter.lean ====
section
/-! DEFINITION. Porter's transfers and fences (R466 to R475): what a descriptor reads and writes, how it completes, is
aborted or is cut short. The order of beats among channels, PRIO and SHARE decide only when beats are written. -/

namespace Sys2Proof.Machine

/-- The 64-byte write beats of a transfer. -/
def PtrItem.beats (x : PtrItem) : Nat := (x.count + 63) / 64

/-- The bytes of beat k. -/
def PtrItem.beatLen (x : PtrItem) (k : Nat) : Nat := min 64 (x.count - 64 * k)

/-- The source address of beat k; a fixed source is read again for every FW bytes (R466). -/
def PtrItem.srcAt (x : PtrItem) (k : Nat) : Nat := if x.sfix then x.src else (x.src + 64 * k) % 2 ^ 48

/-- The bytes that a side of a transfer spans. -/
def PtrItem.span (x : PtrItem) (fixed : Bool) : Nat := if fixed then x.fw else x.count

/-- Whether the two sides of a transfer touch, so that it matters how far the channel reads ahead. -/
def PtrItem.overlaps (x : PtrItem) : Bool :=
  decide (x.src < x.dst + x.span x.dfix) && decide (x.dst < x.src + x.span x.sfix)

/-- Beat k is read: its bytes, whether they are poisoned, and the state. `failed` lists the beats whose read of host memory
fails, with true where poisoned data came (R471). -/
def porterFetch (ch : Nat) (x : PtrItem) (failed : List (Nat × Bool)) (k : Nat) (s : State) : List Byte × Bool × State :=
  let n := x.beatLen k
  let a := x.srcAt k
  let once := targetRead 4 a (if x.sfix then x.fw else n) s
  let data := if x.sfix then (List.replicate (n / x.fw) once.1).flatten else once.1
  match if regionOf a == .host then failed.find? (fun f => f.1 == k) else none with
  | some f =>
    let s1 := (s.bump (Fd.HIF_PTR_HOSTERR ch)).raise 0x0E08 [.w4 ch, .w4 x.cid, .w8 (a % 2 ^ 47)]
    if f.2 then (data, true, s1) else (zeros n, false, s1)
  | none => (data, once.2.1, once.2.2)

/-- Beat k is written: a fixed destination takes it FW bytes at a time (R466). A beat is an opportunity of R589. -/
def porterPut (x : PtrItem) (k : Nat) (data : List Byte) (poison : Bool) (s : State) : State :=
  let s1 := ptbOpportunity 0 s
  if x.dfix then
    s1.each (List.range (data.length / x.fw)) (fun j s =>
      targetWrite 4 none x.dst ((data.drop (x.fw * j)).take x.fw) poison s)
  else targetWrite 4 none ((x.dst + 64 * k) % 2 ^ 48) data poison s1

/-- Beats read into staging, oldest first, until `want` are staged. -/
def porterFill (ch : Nat) (x : PtrItem) (failed : List (Nat × Bool)) :
    Nat → Nat → List (List Byte × Bool) → State → List (List Byte × Bool) × State
  | 0, _, staged, s => (staged, s)
  | want + 1, k, staged, s =>
    let r := porterFetch ch x failed k s
    porterFill ch x failed want (k + 1) (staged ++ [(r.1, r.2.1)]) r.2.2

/-- `left` beats from beat k on are written, with what is staged already. How far the channel has read ahead is a free value
where its two sides overlap; elsewhere it changes nothing. -/
def porterBeats (ch : Nat) (x : PtrItem) (failed : List (Nat × Bool)) :
    Nat → Nat → List (List Byte × Bool) → State → State
  | 0, _, _, s => s
  | left + 1, k, staged, s =>
    let ahead := if x.overlaps then 1 + Config.readAhead s.free % 64 else 1
    let r := porterFill ch x failed (min ahead (left + 1) - staged.length) (k + staged.length) staged
      (s.when x.overlaps State.fresh)
    match r.1 with
    | [] => r.2
    | b :: more => porterBeats ch x failed left (k + 1) more (porterPut x k b.1 b.2 r.2)

/-- The bytes of the first n beats. -/
def PtrItem.bytes (x : PtrItem) (n : Nat) : Nat := min x.count (64 * n)

/-- DONE counts the bytes a channel has written. -/
def porterDone (ch n : Nat) (s : State) : State :=
  s.wr64 (0xF0108 + 0x20 * ch) ((s.rd64 (0xF0108 + 0x20 * ch) + n) % 2 ^ 64)

/-- The first n beats of a transfer are written and counted. -/
def porterWrite (ch : Nat) (x : PtrItem) (failed : List (Nat × Bool)) (n : Nat) (s : State) : State :=
  porterDone ch (x.bytes n) (porterBeats ch x failed n 0 [] s)

/-- The descriptor that a channel runs: the first of its queue, unless it is a fence or the channel holds. -/
def porterRunning (s : State) (ch : Nat) : Option PtrItem :=
  if ptrHeld s ch then none
  else match s.ptrQ ch with
    | x :: _ => if x.fence then none else some x
    | [] => none

/-- The first item of a channel has ended. -/
def porterNext (ch : Nat) (s : State) : State := setPtrQ ch ((s.ptrQ ch).drop 1) s

/-- A descriptor runs to its end of count (R469, R471). -/
def porterEnd (ch : Nat) (x : PtrItem) (failed : List (Nat × Bool)) (s : State) : State :=
  let bad := (List.range x.beats).any (fun k => regionOf (x.srcAt k) == .host && failed.any (fun f => f.1 == k))
  let s1 := porterNext ch (porterWrite ch x failed x.beats s)
  ptrComplete ch x (if bad then 5 else 0) x.count x.irq s1

/-- DESCRIPTOR_COMPLETE (R467, R469, R471): the running descriptor of a channel has written its last beat. `failed` lists
the beats whose read of host memory failed. -/
def execDescriptorComplete (ch : Fin 32) (failed : List (Nat × Bool)) (s : State) : Out :=
  match porterRunning s ch.val with
  | some x => .next (porterEnd ch.val x failed s)
  | none => .next s

/-- Whether every descriptor accepted before a fence over all channels has completed (R470). -/
def fenceReady (s : State) (f : PtrItem) : Bool :=
  s.ptr.queues.all (fun q => q.2.all (fun x => x.fence || decide (f.seq < x.seq)))

/-- FENCE_COMPLETE (R470): every earlier write of the fence at the head of a channel, or of the oldest fence over all
channels (32), has arrived. -/
def execFenceComplete (ch : Fin 33) (s : State) : Out :=
  if ch.val < 32 then
    match s.ptrQ ch.val with
    | x :: _ =>
      .next (if x.fence && !ptrHeld s ch.val then ptrComplete ch.val x 0 0 x.irq (porterNext ch.val s) else s)
    | [] => .next s
  else
    match s.ptr.fences with
    | [] => .next s
    | f :: rest =>
      .next (if fenceReady s f then ptrComplete 0xFFFF f 0 0 false (ptrShow 0 (setPtr { s.ptr with fences := rest } s)) else s)

/-- CTRL.ABORT (R473): the running descriptor stops after `beats` beats, or completes if that is all of them; then the
queue is cancelled. -/
def porterAbort (ch beats : Nat) (s : State) : State :=
  match porterRunning s ch with
  | none => ptrCancelQueue ch s
  | some x =>
    let rest := (s.ptrQ ch).drop 1
    let s1 := setPtrQ ch (rest.filter (fun y => y.fence)) s
    let s2 :=
      if x.beats ≤ beats then
        ptrComplete ch x 0 x.count x.irq (porterWrite ch x [] x.beats s1)
      else ptrComplete ch x 4 (x.bytes beats) false (porterWrite ch x [] beats s1)
    s2.each (rest.filter (fun y => !y.fence)) (fun y s => ptrComplete ch y 4 0 false s)

/-- PORTER_ABORT (R473). -/
def execPorterAbort (ch : Fin 32) (beats : Nat) (s : State) : Out := .next (porterAbort ch.val beats s)

/-- ABORT by a register write: how many beats had been written is a free value. -/
def porterAbortNow (ch : Nat) (s : State) : State := porterAbort ch (Config.beatsDone s.free) s.fresh

/-- Whether a descriptor has a host source or destination (R475). -/
def PtrItem.usesHost (x : PtrItem) : Bool := !x.fence && (regionOf x.src == .host || regionOf x.dst == .host)

/-- The host link is lost (R475): a running descriptor that uses the host stops after a free number of beats, and every
descriptor that uses the host ends with its completion discarded. -/
def porterLinkDown (s : State) : State :=
  s.each (List.range 32) (fun ch s =>
    let s1 := match porterRunning s ch with
      | some x =>
        if x.usesHost then porterWrite ch x [] (Config.beatsDone s.free % (x.beats + 1)) s.fresh else s
      | none => s
    setPtrQ ch ((s1.ptrQ ch).filter (fun x => !x.usesHost)) s1)

end Sys2Proof.Machine
end

