-- ==== Sys2Proof/Machine/Replay.lean ====
section
/-! DEFINITION. The epoch and the end of a playback (R322 to R327). -/

namespace Sys2Proof.Machine

/-- The recorded external events of a source enter it with their stamps (R214). -/
def replayEvents (l : List (Nat × Tick × Nat × Bool)) (s : State) : State :=
  s.each l (fun e s => pushEv e.1 ⟨e.2.1, e.2.2.1, e.2.2.2, false, 0⟩ s)

/-- PLAYBACK_EPOCH (R323, R324): the read-ahead holds the first beat of every sample stream. The epoch T_REC is applied
without a capture, the channels recorded are UP and the others OFF, and the landing T_REC itself starts the units. -/
def execPlaybackEpoch (s : State) : Out :=
  match s.scr.pb with
  | none => .next s
  | some p =>
    if p.running || p.stopReq.isSome || !pbReady p p.tRec then .next s
    else
      let s1 := s.each (List.range 4) (fun c s => s.set (chanFld c) (if (pbStreamOf p c).isSome then 2 else 0))
      let s2 := (s1.set Fd.SYS_ST_STATUS_SYSREF_OK 0).set Fd.ING_SR_STATUS_LEMC_SET 1
      let s3 := (epochStart p.tRec 1 s2).raise 0x0A0A [.w8 p.rid, .t p.tRec]
      let s4 := { replayEvents p.xlog s3 with scr := { s3.scr with pb := some { p with running := true } } }
      .next (landing none { s4 with sys := { s4.sys with decided := some p.tRec } })

/-- The playback is over (R327): stream time has stopped, every unit has drained. -/
def playbackOver (cause : Nat) (s : State) : State :=
  let last := if s.run then s.tRel else 0
  let s1 := timeStopped { s with scr := { s.scr with pb := none } }
  let s2 := (((s1.set Fd.TRG_XLOG_STATUS_PLAYBACK 0).set Fd.SCR_STATUS_STATE 0).set Fd.SCR_STATUS_QUIESCENT 1).set
    Fd.SCR_CTRL_PB 0
  s2.raise 0x0A0C [.w4 cause, .t last]

/-- PLAYBACK_END (R327): at the end of the log stream time stops where the read-ahead ends; a playback that has stopped and
drained is over. -/
def execPlaybackEnd (s : State) : Out :=
  match s.scr.pb with
  | none => .next s
  | some p =>
    let s1 :=
      if p.running && s.sys.counting && p.done && (p.streams.isEmpty || !pbReady p s.sys.next) then
        stopAt false s.sys.next (playbackEnds (some 0) s)
      else if p.running then s else playbackEnds p.stopReq s
    match s1.scr.pb.bind PbSt.ended with
    | none => .next s1
    | some cause => .next (if s1.sys.counting || !drained s1 then s1 else playbackOver cause s1)

end Sys2Proof.Machine
end

