-- ==== Sys2Proof/Machine/Shutdown.lean ====
section
/-! DEFINITION. What the resets, the ordered shutdown and the thermal response share: which units are quiescent,
EN = 0 written to every unit, the module with its power off, and the throttle level in effect (R69, R567, R578, R579). -/

namespace Sys2Proof.Machine

/-- The QUIESCENT bits of the units, by the high byte of the unit's events (R22). -/
def unitQuiescent : List (Nat × Fld) :=
  [(3, Fd.ASY_STATUS_QUIESCENT), (4, Fd.ZB_STATUS_QUIESCENT), (5, Fd.SPXG_STATUS_QUIESCENT),
   (6, Fd.TRG_STATUS_QUIESCENT), (7, Fd.HOOP_STATUS_QUIESCENT), (8, Fd.DENG_STATUS_QUIESCENT),
   (9, Fd.GAL_STATUS_QUIESCENT), (10, Fd.SCR_STATUS_QUIESCENT), (11, Fd.WVR_STATUS_QUIESCENT),
   (12, Fd.TLY_STATUS_QUIESCENT), (13, Fd.CYK_STATUS_QUIESCENT), (14, Fd.HIF_STATUS_QUIESCENT),
   (15, Fd.HBM_STATUS_QUIESCENT), (16, Fd.BYO_STATUS_QUIESCENT), (17, Fd.AGE_STATUS_QUIESCENT),
   (19, Fd.CFG_STATUS_QUIESCENT)]

/-- The units not quiescent, as a mask with one bit per event high byte; `host` says whether the host interface counts. -/
def notQuiescent (host : Bool) (s : State) : Nat :=
  sumL (unitQuiescent.map (fun u => if s.on u.2 || (!host && u.1 == 14) then 0 else 2 ^ u.1))

/-- The registers that hold a unit's EN in bit 0 and take a write at once, host interface excepted. -/
def enableRegs : List Nat :=
  [0xA0000, 0xB0000, 0xC0000, 0x40000, 0x11002C, 0x110000, 0x30000] ++ (List.range 128).map (fun c => 0x1800000 + 0x100 * c)

/-- The EN and RUN fields that land. -/
def enableFields : List Fld :=
  Fd.TRG_CTRL_EN :: ((List.range 4).flatMap (fun c => [Fd.DDC_CTRL_RUN c, Fd.SPX_CTRL_RUN c, Fd.DEN_CTRL_EN c, Fd.SG_CTRL_EN c])
    ++ (List.range 8).flatMap (fun n => [Fd.TU_CTRL_EN n, Fd.HW_CTRL_EN n, Fd.XP_CTRL_EN n])
    ++ (List.range 9).map Fd.EV_CFG_EN ++ (List.range 16).map Fd.FD_CTRL_EN ++ (List.range 64).map Fd.ZC_CTRL_RUN)

/-- A bit of a register is written as 0. -/
def writeOff (off : Nat) (s : State) : State := (busWriteMasked .host off 1 0 s).1

/-- EN = 0 is written to every unit (R568, R579): what lands is pending while stream time runs and takes effect at once
otherwise; `host` says whether the rings and Porter are among the units. -/
def disableUnits (host : Bool) (s : State) : State :=
  let s1 := s.each enableRegs writeOff
  let s2 := s1.each (enableFields.filter (fun f => s1.on f)) (fun f s =>
    if s.sys.counting then pendChange .field f.off f.lo f.width 0 s else s.set f 0)
  let s3 := denQuiet (trgQuiet (tlyQuiet (cykQuiet s2)))
  if host then s3.each ((List.range 32).map (fun p => 0xF0100 + 0x20 * p) ++ [0xE0000]) writeOff else s3

/-- The module with its rails off: everything but flash, the drives, host memory, the waiting commands and the oscillator's
warmth is lost (R67, R567). -/
def offState (s : State) : State :=
  let s1 : State := { State.reset with
    pending := s.pending
    flash := s.flash
    scr := { ScrSt.init with drives := s.scr.drives }
    free := s.free
    mem := s.mem.filter (fun c => decide (2 ^ 47 ≤ c.1)) }
  s1.set Fd.CLK_STATUS_OCXO_RDY (s.get Fd.CLK_STATUS_OCXO_RDY)

/-- The throttle level in effect becomes the higher of the thermal level and the level R69 needs (R578). -/
def throttleTo (s : State) : State :=
  let old := s.get Fd.AGE_STATUS_THROTTLE
  let new := max s.age.level s.pwr.coreLevel
  if old = new then s
  else cykThrottle old new ((s.set Fd.AGE_STATUS_THROTTLE new).raise 0x1101 [.w4 new, .w4 (s.get Fd.AGE_TDIE)])

/-- An ordered shutdown begins (R579): the event with its cause, stream time stopped at the next beat, EN = 0 written to
every unit. A second cause changes nothing (R580). A takeover in progress ends with it (R588). -/
def beginShutdown (cause : Nat) (s : State) : State :=
  if s.pwr.shut.isSome then s
  else
    let s1 := s.raise 0x1110 [.w4 cause]
    let s2 := if s1.sys.counting then stopAt true s1.sys.next (playbackEnds (s1.scr.pb.map (fun _ => 2)) s1) else s1
    let s3 := disableUnits true s2
    { s3 with pwr := { s3.pwr with shut := some cause, shutTimedOut := false }, age := { s3.age with takeovers := [] } }

end Sys2Proof.Machine
end

