-- ==== Sys2Proof/Machine/Health.lean ====
section
/-! DEFINITION. Monitors, the margin re-plan, the thermal response, ordered shutdown and replay takeover (R572 to R593).
What the analogue world answers (monitor readings, eyes, trained margins, self-tests) comes with the commands. -/

namespace Sys2Proof.Machine

/-- MONITOR_SAMPLE (R572, R573, R613): once per second the monitors are read; a second of the microsecond counter and of
power-on time passes. -/
def execMonitorSample (values : List Word) (s : State) : Out :=
  let s1 := s.each (List.range 64) (fun m s => s.set (Fd.AGE_MON m) ((values.getD m 0).toNat))
  let hot := decide (950 ≤ s.getI Fd.AGE_TDIE)
  let a := s1.age
  let pm := (a.powerSec + 1) / 60
  let hm := (a.hotSec + b2n hot) / 60
  let age := { a with powerSec := (a.powerSec + 1) % 60, hotSec := (a.hotSec + b2n hot) % 60, hotMin := a.hotMin + hm }
  .next ({ s1 with age := age, sys := { s1.sys with seconds := s1.sys.seconds + 1 } }.count Fd.AGE_POM pm)

/-- LEDGER_PERIODIC (R573): every LEDGER_MIN minutes of power-on time a KIND 0 entry is written. -/
def execLedgerPeriodic (s : State) : Out := .next (ledgerWrite 0 s)

/-! ### Re-plan (R574 to R577) -/

/-- The ledger's points of a class: (POM, NOW) of every valid entry with POM of at least 960 (R577). -/
def ledgerPoints (s : State) (k : Nat) : List (Nat × Int) :=
  (List.range 65536).filterMap (fun i =>
    let b0 := s.flashLoad (0x02000000 + i * 128) 128
    let b1 := s.flashLoad (0x02800000 + i * 128) 128
    let b := if ledgerValid b0 then b0 else b1
    if ledgerValid b && decide (960 ≤ fieldAt b 0x0C 4) then
      some (fieldAt b 0x0C 4, sext 16 (fieldAt b (0x18 + 4 * k) 2)) else none)

/-- PROJ of a class (R577): 0x8000 with fewer than 8 points. -/
def projection (s : State) (k : Nat) : Nat :=
  let pts := ledgerPoints s k
  if pts.length < 8 then 0x8000 else encI 16 (satI 16 (Config.ledgerFit pts (s.get Fd.AGE_LIFE_H)))

/-- MARGINk takes NOW and its projection; each is reported when it first turns negative (R577). -/
def setMargin (k : Nat) (now : Int) (s : State) : State :=
  let s1 := (s.set (Fd.AGE_MARGIN_NOW k) (encI 16 (satI 16 now))).set (Fd.AGE_MARGIN_PROJ k) (projection s k)
  let proj := s1.get (Fd.AGE_MARGIN_PROJ k)
  let projI := sext 16 proj
  let negP := proj != 0x8000 && decide (projI < 0)
  let s2 := s1.raiseIf (decide (now < 0) && !s1.age.nowNeg.contains k) 0x1104 [.w4 k, .w4 (encI 32 now)]
  let s3 := s2.raiseIf (negP && !s2.age.projNeg.contains k) 0x1105 [.w4 k, .w4 (encI 32 projI)]
  let upd (l : List Nat) (b : Bool) := if b then (if l.contains k then l else k :: l) else l.filter (· != k)
  { s3 with age := { s3.age with nowNeg := upd s3.age.nowNeg (decide (now < 0)), projNeg := upd s3.age.projNeg negP } }

/-- The set point that class 0 needs (R575). -/
def vcoreNeed (s : State) : Int :=
  (s.get Fd.AGE_VCORE_SET : Int) - (cprMin s - (s.get Fd.AGE_GUARD : Int)) * 16 / ((s.get Fd.AGE_SPMV : Nat) : Int)

/-- Covered channels that a re-plan retests (R585, R586). -/
def startRetests (s : State) : State :=
  let t := s.age.takeovers.map (fun t =>
    if t.phase = .covered && !s.onBit Fd.AGE_STATUS_FAILED t.ch then { t with phase := .retest } else t)
  { s with age := { s.age with takeovers := t } }

/-- CHS and the compression engines are tested again at each re-plan (R587). -/
def selfTests (p : PlanIn) (s : State) : State :=
  let free := s.age.takeovers.isEmpty && s.asy.run.isNone
  let s1 :=
    if !free then s
    else if p.chsOk then
      if s.on Fd.AGE_STATUS_CHS_FAIL then (s.set Fd.AGE_STATUS_CHS_FAIL 0).set Fd.ASY_STATUS_CHS_OWNER 0 else s
    else if s.on Fd.AGE_STATUS_CHS_FAIL then s
    else ageFault 0x1126 s.tRel.toNat
      (((s.set Fd.AGE_STATUS_CHS_FAIL 1).set Fd.ASY_STATUS_CHS_OWNER 2).raise 0x1126 [.t s.tRel])
  { s1 with age := { s1.age with engOut := s1.age.engOut.filter (fun e => !p.enginesOk.contains e) } }

/-- Whether a lane key names a lane in use: a used ingest lane, or a lane of a port that is UP (R575). -/
def laneKeyUsed (s : State) (k : Nat) : Bool :=
  if k < 64 then laneUsed s k else decide (k < 96) && portState s ((k - 64) / 4) == 3

/-- A re-plan starts (R574, R575): the four classes are computed in order and their steps posted. A request while a
re-plan runs is merged with it. -/
def replanStart (p : PlanIn) (s : State) : State :=
  let s := startRetests (selfTests p s)
  if s.age.replan.isSome then s
  else
    let set := (s.get Fd.AGE_VCORE_SET : Int)
    let need := vcoreNeed s
    let target := clampI 680 860 (clampI (set - 10) (set + 10) need)
    let s1 := (setMargin 0 (860 - need) s).set Fd.AGE_VCORE_TARGET target.toNat
    let lanes := p.lanes.filter (fun l => laneKeyUsed s l.lane)
    let s2 := match minI? (lanes.map (fun l => (l.eye : Int))) with
      | none => s1
      | some m => setMargin 1 (m - 16) s1
    let eq := (lanes.filter (fun l => decide (16 ≤ l.eye))).filterMap (fun l =>
      let now := look 0 s.age.eqCode l.lane
      if now = l.setting then none else some ⟨l.lane, now, l.setting, now, false⟩)
    let s3 := setMargin 2 p.hbmMargin s2
    let t := tlyReplan s3
    let s4 := match t.2.1 with
      | none => t.1
      | some now3 => setMargin 3 now3 t.1
    let changed := b2n (target != set) + b2n (!eq.isEmpty) * 2 + b2n p.trims * 4 + b2n t.2.2 * 8
    { s4 with age := { s4.age with replan := some ⟨false, eq, p.trims, changed⟩ } }.set Fd.AGE_STATUS_QUIESCENT 0

/-- What the bits of AGE.CTRL that ask for something do (R574, R579); the measurements of a re-plan so asked for are free
values. -/
def ageCtrlWrite (w : Nat) (s : State) : State :=
  let s1 := if bit w 2 then replanStart (Config.planIn s.free) s.fresh else s
  if bit w 3 then beginShutdown 4 s1 else s1

/-- REPLAN (R574, R592): a write of 1 to CTRL.REPLAN. -/
def execReplan (plan : PlanIn) (s : State) : Out := .next (replanStart plan s)

/-- REPLAN_PERIOD (R574): PERIOD seconds have passed with CTRL.AUTO 1. -/
def execReplanPeriod (plan : PlanIn) (s : State) : Out :=
  if s.on Fd.AGE_CTRL_AUTO then .next (replanStart plan s) else .next s

/-- RETEST (R574, R585): RETEST seconds after a takeover began, a re-plan retests the channel. -/
def execRetest (plan : PlanIn) (s : State) : Out :=
  if s.age.takeovers.isEmpty then .next s else .next (replanStart plan s)

/-! ### Thermal response and shutdown (R578 to R580) -/

/-- THERMAL_CHECK (R578): the die temperature against its thresholds. -/
def execThermalCheck (tdie : BitVec 16) (s : State) : Out :=
  let t := tdie.toInt
  let s1 := s.set Fd.AGE_TDIE tdie.toNat
  let lvl := if 1050 ≤ t then min (s1.age.level + 1) 7 else if t < 1000 then s1.age.level - 1 else s1.age.level
  let s2 := throttleTo { s1 with age := { s1.age with level := lvl, tmax := max s1.age.tmax t } }
  let s3 :=
    if 1100 ≤ t then
      if s2.on Fd.AGE_STATUS_HOT then s2 else (s2.set Fd.AGE_STATUS_HOT 1).raise 0x1102 [.w4 (encI 32 t)]
    else if t < 1050 then s2.set Fd.AGE_STATUS_HOT 0 else s2
  .next (if 1150 ≤ t then beginShutdown 2 s3 else s3)

/-- SHUTDOWN (R579): a write of 1 to AGE.CTRL.SHUTDOWN, cause 4. -/
def execShutdown (s : State) : Out := .next (beginShutdown 4 s)

/-- SHDN_TIMEOUT (R579): SHDN_TMO has passed; the units not yet quiescent are listed and the shutdown proceeds. -/
def execShdnTimeout (s : State) : Out :=
  if s.pwr.shut.isNone || s.pwr.shutTimedOut then .next s
  else
    let mask := notQuiescent true s
    .next ({ s with pwr := { s.pwr with shutTimedOut := true } }.raiseIf (mask != 0) 0x1111 [.w4 mask])

/-- ORDERED_SHUTDOWN (R579, R580): once every unit is quiescent or SHDN_TMO has passed, the KIND 1 ledger entry is
written, PGOOD is pulled low and the rails turn off. AUX_3V3 stays on. After causes 1 to 4 the module stays off. -/
def execOrderedShutdown (s : State) : Out :=
  match s.pwr.shut with
  | none => .next s
  | some cause =>
    if s.pwr.shutTimedOut || notQuiescent true s == 0 then
      let s1 := ledgerWrite 1 s
      let o := (offState s1).set Fd.PWR_STATUS_MOD_EN (s.get Fd.PWR_STATUS_MOD_EN) |>.set Fd.PWR_STATUS_AUX_ON 1
      .next { o.set Fd.PWR_OV_ACCUM s.pwr.accum with
        pwr := { PwrSt.init with accepted := true, latched := cause != 0, accum := s.pwr.accum } }
    else .next s

/-! ### Faults and the end of a return (R581, R585) -/

/-- FRONT_END_FAULT (R581). -/
def execFrontEndFault (pipe : Fin 5) (need : Tick) (s : State) : Out :=
  .next (frontEndFault pipe.val s.tRel need s)

/-- CATCH_UP_END (R585): the staged outputs are drained; OFFSET returns to 0, COVERED clears, CHS is freed. -/
def execCatchUpEnd (ch : Fin 4) (s : State) : Out :=
  match s.age.takeovers.find? (fun t => t.ch == ch.val) with
  | none => .next s
  | some t =>
    match t.phase with
    | .staged lb =>
      let s1 := ((s.set (Fd.AGE_OFFSET ch.val) 0).clrB Fd.AGE_STATUS_COVERED ch.val).set Fd.ASY_STATUS_CHS_OWNER 0
      .next ({ s1 with age := { s1.age with takeovers := s1.age.takeovers.filter (fun t => t.ch != ch.val) } }.raise
        0x1122 [.w4 ch.val, .t lb])
    | _ => .next s

end Sys2Proof.Machine
end

