-- ==== Sys2Proof/Machine/StartUp.lean ====
section
/-! DEFINITION. Start-up, configuration images, resets and standby (R554 to R571). -/

namespace Sys2Proof.Machine

/-! ### Images (R559 to R565) -/

/-- A flash copy rewritten from the other one (R559). -/
def copyFlash (src dst n : Nat) (s : State) : State := s.flashStore dst (s.flashLoad src n)

/-- The base image is chosen and applied (R559, R560); each discarded entry is counted in BASE_DISC. -/
def applyBase (s : State) : State :=
  let c0 := flashImage s none (baseCopyAt 0)
  let c1 := flashImage s none (baseCopyAt 1)
  match chooseCopy Image.gen c0 c1 with
  | none =>
    let s1 := (s.set Fd.CFG_STATUS_BASE_COPY 3).raise 0x1302 [.w4 0, .w4 2]
    { s1 with cfg := { s1.cfg with epochAuto := false } }
  | some (k, img) =>
    let len := 36 + 12 * img.entries.length
    let bad := 1 - k
    let single := c0.isNone || c1.isNone
    let s1 := (s.set Fd.CFG_STATUS_BASE_COPY k).set Fd.CFG_BASE_GEN img.gen
    let s2 := if single then (copyFlash (baseCopyAt k) (baseCopyAt bad) len s1).raise 0x1302 [.w4 bad, .w4 1] else s1
    let s3 := s2.each img.entries (fun e s =>
      let r := busWriteMasked .image e.addr e.mask e.value s
      let s1 := if r.2 then r.1.bump Fd.CFG_BASE_DISC else r.1
      if e.addr = 0x130000 then ageCtrlWrite (Nat.land e.mask e.value) s1 else s1)
    let auto := bit img.flags 0
    let s4 := if auto then s3.wr64 0x108 (if bit img.flags 1 then img.epoch else 0) else s3
    { s4 with cfg := { s4.cfg with epochAuto := auto } }

/-- Overlay i of the store takes the bytes of a valid image (R563, R564). -/
def loadOverlay (i k : Nat) (img : Image) (bytes : List Byte) (s : State) : State :=
  (((s.store (overlayStoreAt i) bytes).set (Fd.CFG_OV_VALID i) 1).set (Fd.CFG_OV_COPY i) k).set (Fd.CFG_OV_NENT i)
    img.entries.length

/-- The overlay store is loaded with the chosen copy of each overlay (R559, R564). -/
def loadOverlays (s : State) : State :=
  s.each (List.range 64) (fun i s =>
    let c0 := flashImage s (some i) (overlayCopyAt i 0)
    let c1 := flashImage s (some i) (overlayCopyAt i 1)
    match chooseCopy Image.gen c0 c1 with
    | none => (s.set (Fd.CFG_OV_VALID i) 0).raise 0x1303 [.w4 i, .w4 0, .w4 2]
    | some (k, img) =>
      let len := 36 + 12 * img.entries.length
      let s1 := if c0.isNone || c1.isNone then
          (copyFlash (overlayCopyAt i k) (overlayCopyAt i (1 - k)) len s).raise 0x1303 [.w4 i, .w4 (1 - k), .w4 1]
        else s
      loadOverlay i k img (s1.flashLoad (overlayCopyAt i k) len) s1)

/-! ### Phases (R557 to R560) -/

/-- PHASE 1 BOOT: PGOOD is released and the core PLL locks on the TRO. -/
def enterBoot (s : State) : State :=
  let s1 := ((s.set Fd.PWR_STATUS_PGOOD 1).set (Fd.PLL_STATUS_LOCK 0) 1).set (Fd.PLL_STATUS_REF_PRESENT 0) 1
  toPhase 1 (pllSet 0 s1)

/-- PHASE 2 MEMORY: SEED is drawn, HBM and on-die SRAM are written with zero, the ledger is read (R480, R557, R573). -/
def enterMemory (s : State) : State :=
  let s1 := toPhase 2 s
  let s2 := { s1 with mem := s1.mem.filter (fun c => decide (2 ^ 47 ≤ c.1)) }
  ledgerRead ((s2.set Fd.HBM_SEED (Config.drawnSeed s2.free)).fresh)

/-- PHASE 3 IMAGE: base image, overlay store, Assayer records (R557). -/
def enterImage (s : State) : State := asyLoadRecords (loadOverlays (applyBase (toPhase 3 s)))

/-- START_UP_PHASE (R557 to R560): a stage ends and PHASE advances. `railsOk` is the rail check at 12 ms; fw0 and fw1 are
the generations of the firmware copies whose own check passes. -/
def execStartUpPhase (railsOk : Bool) (fw0 fw1 : Option Nat) (s : State) : Out :=
  if !s.pwr.rails then .next s
  else match s.cfg.stage with
  | 0 =>
    if railsOk then .next (enterBoot s)
    else
      let o := offState s
      let o1 := (o.set Fd.PWR_STATUS_AUX_ON 1).set Fd.PWR_STATUS_MOD_EN (s.get Fd.PWR_STATUS_MOD_EN)
      .next { o1 with pwr := { PwrSt.init with accepted := true, latched := true, startFail := true, accum := s.pwr.accum } }
  | 1 =>
    match chooseCopy id fw0 fw1 with
    | none =>
      .next (toPhase 8 (((s.set Fd.CFG_STATUS_FW_COPY 3).set Fd.CFG_STATUS_RECOVERY 1).raise 0x1301 [.w4 0, .w4 2]))
    | some (k, _) =>
      let s1 := s.set Fd.CFG_STATUS_FW_COPY k
      .next (enterMemory (s1.raiseIf (fw0.isNone || fw1.isNone) 0x1301 [.w4 (1 - k), .w4 1]))
  | 2 => .next (enterImage s)
  | 3 => .next (toPhase 4 s)
  | 4 =>
    if s.get Fd.CLK_SRC_ACT = 0 then .next s
    else
      let s1 := toPhase 5 s
      .next (if s.cfg.epochAuto then epochArm 3 s1 else s1)
  | 5 => if s.run then .next (asyStartUpRuns (toPhase 6 s)) else .next s
  | 6 => if asyStartUpDone s then .next (toPhase 7 s) else .next s
  | _ => .next s

/-! ### Programming (R563) -/

/-- START of programming (R563): the staged image is captured and checked, and programming runs; a START while BUSY is
discarded, and in recovery only firmware programming is accepted (R559). -/
def progStart (s : State) : State :=
  let target := s.get Fd.CFG_PROG_TARGET
  if s.on Fd.CFG_PROG_BUSY || (s.get Fd.CFG_STATUS_PHASE = 8 && target != 65) then s.raise 0x130B [.w4 0x140020]
  else
    let bytes := s.load 0x010008000000 (s.get Fd.CFG_PROG_LEN)
    let good := if target = 65 then true
      else if target = 0 then (readImage none bytes).isSome
      else (readImage (some (target - 1)) bytes).isSome
    let s1 := (s.set Fd.CFG_PROG_BUSY 1).set Fd.CFG_STATUS_QUIESCENT 0
    { s1 with cfg := { s1.cfg with prog := some (target, bytes, good) } }

/-- PROG_START (R563): CFG.PROG.START is written 1. -/
def execProgStart (s : State) : Out := .next (progStart s)

/-- Image bytes with a new GEN and CHECK (R563). -/
def withGen (gen : Nat) (bytes : List Byte) : List Byte :=
  let len := 36 + 12 * fieldAt bytes 0x0C 4
  withCrc ((putAt (bytes.take len) 8 (le 4 gen)).take (len - 4))

/-- The copy that programming writes: the invalid one, or else the one with the lower GEN (R563). -/
def copyToWrite (c0 c1 : Option Image) : Nat :=
  match chooseCopy Image.gen c0 c1 with
  | none => 0
  | some (k, _) => 1 - k

/-- The drain of a reset begins once programming has ended: pending applies are discarded and EN = 0 is written to every
unit (R566, R568). -/
def resetDrain (kind : Nat) (s : State) : State :=
  let s1 := s.each s.cfg.applies (fun a s => (s.set (Fd.CFG_OV_PENDING a.index) 0).raise 0x1305 [.w4 a.index, .w4 3])
  let s2 := { s1 with cfg := { s1.cfg with applies := [], rst := some kind, rstDrain := true } }
  disableUnits (kind == 2) (s2.set Fd.CFG_PEND 0)

/-- PROGRAMMING_COMPLETE (R563): the write and read-back end. `flashOk` is the flash's outcome, `fwValid` the outcome of
the firmware's own check. -/
def execProgrammingComplete (flashOk fwValid : Bool) (s : State) : Out :=
  match s.cfg.prog with
  | none => .next s
  | some (target, bytes, good) =>
    let s0 := ({ s with cfg := { s.cfg with prog := none } }.set Fd.CFG_PROG_BUSY 0).set Fd.CFG_STATUS_QUIESCENT
      (b2n s.cfg.applies.isEmpty)
    let done (result copy : Nat) (s : State) : State :=
      let s1 := (s.set Fd.CFG_PROG_RESULT result).raise 0x1308 [.w4 target, .w4 result, .w4 copy]
      match s1.cfg.rst with
      | some k => if s1.cfg.rstDrain then s1 else resetDrain k s1
      | none => s1
    if target = 65 then
      if !fwValid then .next (done 1 3 s0)
      else
        let copy := if s.get Fd.CFG_STATUS_FW_COPY = 0 then 1 else 0
        let s1 := s0.flashStore (0x00400000 + copy * 0x00400000) bytes
        .next (done (if flashOk then 0 else 2) copy s1)
    else if !good then .next (done 1 3 s0)
    else
      let ov := if target = 0 then none else some (target - 1)
      let at' (k : Nat) : Nat := if target = 0 then baseCopyAt k else overlayCopyAt (target - 1) k
      let c0 := flashImage s ov (at' 0)
      let c1 := flashImage s ov (at' 1)
      let gen := max ((c0.map Image.gen).getD 0) ((c1.map Image.gen).getD 0) + 1
      let copy := copyToWrite c0 c1
      let new := withGen gen bytes
      let s1 := s0.flashStore (at' copy) new
      if !flashOk then .next (done 2 copy s1)
      else match ov, readImage ov new with
        | some i, some img => .next (done 0 copy (loadOverlay i copy img new s1))
        | _, _ => .next (done 0 copy s1)

/-! ### Resets (R567, R568) -/

/-- Whether a register keeps its word through an engine reset: CLK, PLL, PWR, HK, HIF and PTR, the hash mask of R480, the
node ID and routes of Byora (R567), and the counts that go on from the ledger (R573), which only PHASE 2 reads. -/
def keptByEngineReset (off : Nat) : Bool :=
  [1, 2, 14, 15, 18].contains (off / 0x10000) || off = Fd.HBM_SEED.off || off = Fd.AGE_POM.off ||
    off = Fd.AGE_LSEQ.off || byoKept off

/-- Whether a register keeps its word through a module reset: the PWR fault and pin bits, the failed phases, and the
register that holds OCXO_RDY (R567). -/
def keptByModuleReset (off : Nat) : Bool := decide (0x120000 ≤ off) && decide (off ≤ 0x120014)

/-- An engine reset takes effect (R567, R568) and start-up resumes at PHASE 3. -/
def engineResetNow (s : State) : State :=
  let s1 : State := { State.reset with
    pending := s.pending, flash := s.flash, free := s.free, evq := s.evq, eseq := s.eseq
    regs := s.regs.filter (fun r => keptByEngineReset r.1)
    rsh := s.rsh.filter (fun r => keptByEngineReset r.1)
    wsh := s.wsh.filter (fun r => keptByEngineReset r.1)
    mem := s.mem.filter (fun c => regionOf c.1 != .sram)
    pwr := s.pwr, hk := s.hk, clk := s.clk, hif := s.hif, ptr := s.ptr
    hbm := { s.hbm with pending := [] }
    scr := { ScrSt.init with drives := s.scr.drives }
    age := { AgeSt.init with
      hotMin := s.age.hotMin, tmax := s.age.tmax, faultsCum := s.age.faultsCum, lastT := s.age.lastT
      lastCode := s.age.lastCode, powerSec := s.age.powerSec, hotSec := s.age.hotSec }
    byo := byoThroughReset s.byo }
  enterImage (((s1.set Fd.CFG_LAST_RESET_CAUSE 5).set Fd.CFG_STATUS_FW_COPY (s.get Fd.CFG_STATUS_FW_COPY)))

/-- A module reset takes effect with its cause (R567) and start-up resumes at PHASE 1. The oscillator keeps its warmth. -/
def moduleResetNow (cause : Nat) (s : State) : State :=
  let s1 : State := { State.reset with
    pending := s.pending, flash := s.flash, free := s.free
    regs := s.regs.filter (fun r => keptByModuleReset r.1)
    mem := s.mem.filter (fun c => decide (2 ^ 47 ≤ c.1))
    scr := { ScrSt.init with drives := s.scr.drives }
    pwr := { s.pwr with shut := none } }
  let s2 := (s1.set Fd.CLK_STATUS_OCXO_RDY (s.get Fd.CLK_STATUS_OCXO_RDY)).set Fd.CFG_LAST_RESET_CAUSE cause
  enterBoot s2

/-- A write of RESET.KIND 1 or 2 (R568): it waits for programming to end, then the units drain. -/
def resetRequest (kind : Nat) (s : State) : State :=
  if s.cfg.rst.isSome then s
  else if s.cfg.prog.isSome then { s with cfg := { s.cfg with rst := some kind, rstDrain := false } }
  else resetDrain kind s

/-- ENGINE_RESET (R568): RESET.KIND = 1. -/
def execEngineReset (s : State) : Out := .next (resetRequest 1 s)

/-- MODULE_RESET (R568): RESET.KIND = 2. -/
def execModuleReset (s : State) : Out := .next (resetRequest 2 s)

/-- RESET_COMPLETE (R568): every unit is quiescent, or RESET_TMO has passed (`timeout`); the reset takes effect and its
event lists the units that were not quiescent. -/
def execResetComplete (timeout : Bool) (s : State) : Out :=
  match s.cfg.rst with
  | none => .next s
  | some kind =>
    let mask := notQuiescent (kind == 2) s
    if s.cfg.rstDrain && (timeout || mask == 0) then
      let s1 := if kind = 1 then engineResetNow s else moduleResetNow 4 s
      .next (s1.raise 0x1306 [.w4 kind, .w4 mask])
    else .next s

/-- MRESET (R567): MRESET_N was held low for `ns` nanoseconds: below 90 ignored, from 100 a module reset at its release,
between them either. -/
def execMreset (ns : Nat) (s : State) : Out :=
  let resets := if ns < 90 then false else if 100 ≤ ns then true else Config.shortReset s.free
  let s1 := if 90 ≤ ns ∧ ns < 100 then s.fresh else s
  if resets then .next (moduleResetNow 3 s1) else .next s1

end Sys2Proof.Machine
end

