-- ==== Sys2Proof/Machine/Top.lean ====
section
/-! DEFINITION. Register writes as a requester makes them, whole module included (R6, R16, R20, R21, R449, R450): what a
write does beyond its unit, accesses of any width, the commands that clear counters, QUIESCENT, and BAR2. -/

namespace Sys2Proof.Machine

/-- What an accepted write does to the module as a whole: re-plan and shutdown (R574, R579), standby (R569), resets (R568),
programming (R563), an abort of Porter (R473). `old` is the state before it. -/
def topWrite (off value : Nat) (old s : State) : State :=
  if off = 0x130000 then ageCtrlWrite value s
  else if off = 0x140000 then
    if s.on Fd.CFG_CTRL_STANDBY && !old.on Fd.CFG_CTRL_STANDBY then standbyEnter s
    else if !s.on Fd.CFG_CTRL_STANDBY && old.on Fd.CFG_CTRL_STANDBY then standbyLeave s
    else s
  else if off = 0x140008 then
    match value % 4 with
    | 0 => s
    | 3 => s.clamped
    | kind => resetRequest kind s
  else if off = 0x140020 then (if bit value 0 then progStart s else s)
  else if 0xF0100 ≤ off ∧ off < 0xF0500 ∧ off % 0x20 = 0 then
    (if bit value 1 then porterAbortNow ((off - 0xF0100) / 0x20) s else s)
  else s

/-- A 32-bit write by host software, a command or a core at a BAR0 offset. -/
def regWrite (off value : Nat) (s : State) : State :=
  let r := busWriteMasked .host off (2 ^ 32 - 1) (value % 2 ^ 32) s
  if r.2 then r.1 else topWrite off value s r.1

/-- The aligned words that n bytes from an offset touch (R6). -/
def wordsOf (off n : Nat) : List Nat := (List.range ((off % 4 + n + 3) / 4)).map (fun k => floorTo 4 off + 4 * k)

/-- The word that an access writes at an aligned offset: bytes not addressed are written as zero (R6). -/
def wordOfAccess (off : Nat) (data : List Byte) (w : Nat) : Nat :=
  ofLe ((List.range 4).map (fun b => if off ≤ w + b ∧ w + b < off + data.length then data.getD (w + b - off) 0#8 else 0#8))

/-- REGISTER_WRITE (R6, R12, R451): a BAR0 write of any width and alignment, as one 32-bit write to each word it touches. -/
def execRegisterWrite (off : BitVec 26) (data : List Byte) (s : State) : Out :=
  .next (s.each (wordsOf off.toNat data.length) (fun w s =>
    regWrite (w % 2 ^ 26) (wordOfAccess off.toNat data w) s))

/-- What a read returned to the host. -/
def returned (bs : List Byte) (poison : Bool) (s : State) : State := setHif { s.hif with readData := bs, readPoison := poison } s

/-- LOW_WORD_READ (R14, R15): a BAR0 read of the low word of a pair returns it and latches the high word. -/
def execLowWordRead (off : BitVec 26) (s : State) : Out :=
  let r := busRead (floorTo 4 off.toNat) s
  .next (returned (le 4 r.1) false r.2)

/-- LOW_WORD_WRITE (R16): the low word of a writable pair goes to its write shadow. -/
def execLowWordWrite (off : BitVec 26) (value : Word) (s : State) : Out := .next (regWrite (floorTo 4 off.toNat) value.toNat s)

/-- HIGH_WORD_WRITE (R16): the high word commits the pair. -/
def execHighWordWrite (off : BitVec 26) (value : Word) (s : State) : Out := .next (regWrite (floorTo 4 off.toNat) value.toNat s)

/-- CLAMP_CLEAR (R20). -/
def execClampClear (s : State) : Out := .next (regWrite 0x14 1 s)

/-- The CNT_CLEAR register of a unit. -/
def cntClearAt : CountUnit → Nat
  | .clk => 0x10034
  | .trg => 0x70048
  | .hoop => 0x80008
  | .gal => 0xA0058
  | .scr => 0xB0038
  | .wvr => 0xC0028
  | .tly => 0xD0004
  | .cyk => 0x1000004
  | .hif => 0xE0070
  | .ptr => 0xF0004
  | .hbm => 0x10005C
  | .byo => 0x11006C
  | .cfg => 0x140030
  | .age => 0x130060

/-- CNT_CLEAR (R232): any write to it clears the unit's counters. -/
def execCntClear (unit : CountUnit) (s : State) : Out := .next (regWrite (cntClearAt unit) 1 s)

/-- The SAT_CLEAR register of a unit. -/
def satClearAt : SatUnit → Nat
  | .asy => 0x400C0
  | .zb => 0x50800
  | .spx => 0x6100C
  | .den => 0x90F04

/-- SAT_CLEAR (R141): any write to it clears the unit's saturation counters. -/
def execSatClear (unit : SatUnit) (s : State) : Out := .next (regWrite (satClearAt unit) 1 s)

/-- A unit sets QUIESCENT once it is disabled and its accepted work has drained (R21). -/
def unitQuiet : UnitId → State → State
  | .asy, s => refreshAsy s
  | .zb, s =>
    let s1 := s.each (List.range 4) (fun c s => stepDdc c (ddcNext s c) 0 s)
    s1.each (List.range 64) (fun z s => stepZc z 0 s)
  | .spx, s => s.each (List.range 4) (fun c s => spxSettle c s)
  | .trg, s => trgQuiet s
  | .hoop, s => s.each (List.range 8) (fun n s => hwStatus n s)
  | .den, s => denQuiet s
  | .gal, s => if !s.on Fd.GAL_CTRL_EN && s.gal.begun && s.gal.retired then s.set Fd.GAL_STATUS_QUIESCENT 1 else s
  | .scr, s => if s.get Fd.SCR_STATUS_STATE = 0 ∧ s.scr.folios = [] then s.set Fd.SCR_STATUS_QUIESCENT 1 else s
  | .wvr, s =>
    if !s.on Fd.WVR_CTRL_EN && !s.on Fd.WVR_STATUS_LINK_UP && engState s 0 == 0 && engState s 1 == 0 then
      s.set Fd.WVR_STATUS_QUIESCENT 1
    else s
  | .tly, s => tlyQuiet s
  | .cyk, s => cykQuiet s
  | .hif, s => hifQuiet s
  | .ptr, s => ptrShow 0 s
  | .hbm, s => s.set Fd.HBM_STATUS_QUIESCENT (b2n s.hbm.waiting.isEmpty)
  | .byo, s => if s.on Fd.BYO_CTRL_EN then s else s.set Fd.BYO_STATUS_QUIESCENT 1
  | .age, s => s.set Fd.AGE_STATUS_QUIESCENT (b2n s.age.replan.isNone)
  | .cfg, s => s.set Fd.CFG_STATUS_QUIESCENT (b2n (s.cfg.applies.isEmpty && !s.on Fd.CFG_PROG_BUSY))

/-- UNIT_QUIESCENT (R21). -/
def execUnitQuiescent (unit : UnitId) (s : State) : Out := .next (unitQuiet unit s)

/-- The device address of a BAR2 offset (R449). -/
def bar2At (off : Nat) (s : State) : Nat := (s.rd64 0xE0050 + off) % 2 ^ 48

/-- BAR2_ACCESS (R449, R501): host software writes bytes of device memory, or reads n bytes of it. -/
def execBar2Access (off : BitVec 28) (write : Option (List Byte)) (n : BitVec 12) (s : State) : Out :=
  let a := bar2At off.toNat s
  match write with
  | some bs => .next (targetWrite 9 none a (bs.take (2 ^ 28 - off.toNat)) false s)
  | none =>
    let r := targetRead 9 a (min n.toNat (2 ^ 28 - off.toNat)) s
    .next (returned r.1 r.2.1 r.2.2)

end Sys2Proof.Machine
end

