-- ==== Sys2Proof/Machine/HostRings.lean ====
section
/-! DEFINITION. The rings at work (R451 to R475, R520 to R522, R565, R566): the doorbell poll, the commands of the local ring
and of remote modules, and the host link. What host software stores in its memory comes with the polls. -/

namespace Sys2Proof.Machine

/-! ### Polls (R452, R453, R455) -/

/-- What host software has stored in its memory since the last poll: host addresses and bytes. -/
def hostStores (l : List (Nat × List Byte)) (s : State) : State := s.each l (fun x s => s.store (hostAddr x.1) x.2)

/-- A read of a poll or of command entries has failed (R453). -/
def fetchFailed (addr : Nat) (s : State) : State := (s.bump Fd.HIF_FETCH_ERR).raisePerSecond 0 0x0E01 [.w8 addr]

/-- A doorbell word: modulo the ring's size, and reported, where it is not less than it (R453). -/
def doorbellWord (base off size subject : Nat) (s : State) : Nat × State :=
  let v := s.loadN (hostAddr (base + off)) 4
  if v < size then (v, s) else (v % max 1 size, s.raisePerSecond subject 0x0E05 [.w4 off, .w4 v])

/-- The n entries of a ring in host memory from an index on. -/
def ringEntries (s : State) (base size width first n : Nat) : List (List Byte) :=
  (List.range n).map (fun k => s.load (hostAddr (base + width * ((first + k) % max 1 size))) width)

/-- Up to 64 entries are fetched in ring order once those fetched before are decoded (R455). -/
def fetchCommands (s : State) : State :=
  let size := s.get Fd.HIF_CMD_SIZE
  let head := s.get Fd.HIF_CMD_HEAD
  if !s.hif.fetched.isEmpty || !s.on Fd.HIF_CTRL_EN then s
  else
    let n := min 64 ((s.hif.tail + size - head) % max 1 size)
    setHif { s.hif with fetched := ringEntries s (s.rd64 0xE0010) size 64 head n } s

/-- What a poll that succeeds does: the heads and the tail, the marker of lost events, completions that wait, the fetch. -/
def pollTaken (s : State) : State :=
  let base := s.rd64 0xE0040
  let t := doorbellWord base 0 (s.get Fd.HIF_CMD_SIZE) 1 s
  let c := doorbellWord base 4 (s.get Fd.HIF_CPL_SIZE) 2 t.2
  let e := doorbellWord base 8 (s.get Fd.HIF_EVT_SIZE) 3 c.2
  let s1 := setHif { e.2.hif with tail := t.1, cplHead := c.1, evtHead := e.1 } e.2
  let s2 := evtMarker s1
  cplFlush (if cplRoom s2 then s2.set Fd.HIF_STATUS_CPL_FULL 0 else s2)

/-- DOORBELL_POLL (R453 to R457, R463): the poll interval has passed. `stores` is what host software has written meanwhile;
`failed` is 1 where the read of the doorbell block fails and 2 where the fetch of entries does. -/
def execDoorbellPoll (stores : List (Nat × List Byte)) (failed : Fin 3) (s : State) : Out :=
  let s0 := hostStores stores s
  if !s0.on Fd.HIF_CTRL_EN then .next s0
  else
    let s1 := evtFlush s0
    if failed = 1 then .next (ringMessages (fetchFailed (s1.rd64 0xE0040) s1))
    else
      let s2 := pollTaken s1
      let due := s2.hif.fetched.isEmpty && s2.hif.tail != s2.get Fd.HIF_CMD_HEAD
      let s3 := if failed = 2 && due then
          fetchFailed (s2.rd64 0xE0010 + 64 * s2.get Fd.HIF_CMD_HEAD) s2
        else fetchCommands s2
      .next (ringMessages (evtFlush s3))

/-! ### Decoding (R459, R460, R462) -/

/-- What a decoded command completes with. -/
structure Answer where
  status : Nat
  result : Nat
  clamped : Bool

/-- The command that the decoder takes next: the local ring and the remote queue take turns (R462). -/
def nextCommand (s : State) : Option (CmdFrom × List Byte) :=
  match s.hif.fetched, s.hif.remote with
  | [], [] => none
  | c :: _, [] => some (.ring, c)
  | [], r :: _ => some r
  | c :: _, r :: _ => if s.hif.lastLocal then some r else some (.ring, c)

/-- The command taken leaves its queue; the command head moves on with a local one (R455, R456). -/
def popCommand (f : CmdFrom) (s : State) : State :=
  match f with
  | .ring =>
    (setHif { s.hif with fetched := s.hif.fetched.drop 1, lastLocal := true } s).set Fd.HIF_CMD_HEAD
      ((s.get Fd.HIF_CMD_HEAD + 1) % max 1 (s.get Fd.HIF_CMD_SIZE))
  | .remote _ _ _ => setHif { s.hif with remote := s.hif.remote.drop 1, lastLocal := false } s

/-- A decoder command's completion goes to its ring, or back to its originator (R460, R464). -/
def postAnswer (f : CmdFrom) (cid : Nat) (a : Answer) (t : Tick) (s : State) : State :=
  match f with
  | .ring => postCpl ⟨a.result, cid, a.status, a.clamped, 0xFFFF, false⟩ s
  | .remote _ node rseq => sendCell (.completion node rseq 0 a.result cid a.status a.clamped t) s

/-- Once what was fetched is decoded, the engine writes its command head to the doorbell block and fetches more (R455). -/
def afterDecode (f : CmdFrom) (s : State) : State :=
  if f = .ring ∧ s.hif.fetched = [] then
    hifQuiet (fetchCommands (s.store (hostAddr (s.rd64 0xE0040 + 16)) (le 4 (s.get Fd.HIF_CMD_HEAD))))
  else s

/-- Whether the decoder may decode: the completion ring is not full (R456). -/
def decoderOpen (s : State) : Bool := !ringsOpen s || (s.hif.due.isEmpty && cplRoom s)

/-- The decoder decodes its next command if `is` knows its OPC: `act` takes where it came from, its bytes and its arrival
stream time (R462), and answers the completion, if one is written now. A command that finds the completion ring full
waits. -/
def decodeNext (is : Nat → Bool) (act : CmdFrom → List Byte → Tick → State → Option Answer × State) (s : State) : State :=
  match nextCommand s with
  | none => s
  | some (f, cmd) =>
    if !is (fieldAt cmd 0 2) then s
    else if !decoderOpen s then cplStall s
    else
      let t := s.rdT 0x100
      let r := act f cmd t (popCommand f s)
      let s1 := match r.1 with
        | some a => postAnswer f (fieldAt cmd 2 2) a t r.2
        | none => r.2
      afterDecode f s1

/-- CMD_NOP (R461). -/
def execCmdNop (s : State) : Out := .next (decodeNext (· == 0) (fun _ _ _ s => (some ⟨0, 0, false⟩, s)) s)

/-- BAD_OPCODE (R460): an unassigned OPC. -/
def execBadOpcode (s : State) : Out :=
  .next (decodeNext (fun o => !(([0, 1, 2, 3, 4, 0x10, 0x11] : List Nat).contains o)) (fun _ _ _ s => (some ⟨1, 0, false⟩, s)) s)

/-- TIME (R461): the command's arrival stream time. -/
def execTime (s : State) : Out := .next (decodeNext (· == 4) (fun _ _ t s => (some ⟨0, t.toNat, false⟩, s)) s)

/-- A numeric operand held to its range, each clamp counted (R465): the value, whether it was clamped, the state. -/
def operand (v lo hi : Nat) (s : State) : Nat × Bool × State :=
  let x := max lo (min hi v)
  (x, x != v, s.clamped (b2n (x != v)))

/-- The BAR0 offset of an ADDR: bits [1:0] and [31:26] are ignored (R461). -/
def cmdAddr (v : Nat) : Nat := floorTo 4 (v % 2 ^ 26)

/-- A register write that tells whether a field was clamped. -/
def regWriteTold (off value : Nat) (s : State) : Bool × State :=
  let s1 := regWrite off value (s.set Fd.SYS_CLAMP_COUNT 0)
  let n := s1.get Fd.SYS_CLAMP_COUNT
  (n != 0, if off = 0x14 then s1 else (s1.set Fd.SYS_CLAMP_COUNT (s.get Fd.SYS_CLAMP_COUNT)).clamped n)

/-- The N writes of REG_WRITE, in order. -/
def cmdWrites (cmd : List Byte) : List Nat → State → Bool × State
  | [], s => (false, s)
  | i :: is, s =>
    let r := regWriteTold (cmdAddr (fieldAt cmd (0x10 + 8 * i) 4)) (fieldAt cmd (0x14 + 8 * i) 4) s
    let q := cmdWrites cmd is r.2
    (r.1 || q.1, q.2)

/-- REG_WRITE (R461): N register writes, each as a BAR0 write. -/
def execRegWrite (s : State) : Out :=
  .next (decodeNext (· == 1) (fun _ cmd _ s =>
    let n := operand (fieldAt cmd 8 1) 1 6 s
    let r := cmdWrites cmd (List.range n.1) n.2.2
    (some ⟨0, n.1, n.2.1 || r.1⟩, r.2)) s)

/-- REG_READ (R461): one register, or a pair with nothing between its words. -/
def execRegRead (s : State) : Out :=
  .next (decodeNext (· == 2) (fun _ cmd _ s =>
    let a := cmdAddr (fieldAt cmd 8 4)
    let w := operand (fieldAt cmd 0x0C 1) 0 1 s
    let lo := busRead a w.2.2
    if w.1 = 0 then (some ⟨0, lo.1, w.2.1⟩, lo.2)
    else
      let hi := busRead (cmdAddr (a + 4)) lo.2
      (some ⟨0, lo.1 + 2 ^ 32 * hi.1, w.2.1⟩, hi.2)) s)

/-! ### OVERLAY_APPLY (R45, R565, R566) -/

/-- A refused apply: RESULT all ones, and event 0x1305 with the reason. -/
def applyRefused (index reason : Nat) (clamped : Bool) (s : State) : Option Answer × State :=
  (some ⟨0, 2 ^ 64 - 1, clamped⟩, s.raise 0x1305 [.w4 index, .w4 reason])

/-- The landing that an apply uses: the nearest one whose decision point lies after its arrival (R45). -/
def applyLanding (s : State) (v : Nat) : Nat :=
  nearMult s.interval (nextLanding s).toNat (2 ^ 64 - s.interval) v

/-- The entries of an overlay as the store holds them now. -/
def storedOverlay (s : State) (i : Nat) : List ImgEntry :=
  ((readImage (some i) (s.load (overlayStoreAt i) 4096)).map Image.entries).getD []

/-- OVERLAY_APPLY (R565, R566): captures an overlay and schedules it at a landing, or applies it at once while stream time
does not run. -/
def execOverlayApply (s : State) : Out :=
  .next (decodeNext (· == 3) (fun _ cmd _ s =>
    let i := operand (fieldAt cmd 8 1) 0 63 s
    let s0 := i.2.2
    let p := s0.get Fd.CFG_STATUS_PHASE
    if p < 4 ∨ p = 8 ∨ s0.cfg.rst.isSome then applyRefused i.1 3 i.2.1 s0
    else if !s0.on (Fd.CFG_OV_VALID i.1) then applyRefused i.1 1 i.2.1 s0
    else
      let entries := storedOverlay s0 i.1
      if !s0.run then (some ⟨0, 0, i.2.1⟩, (overlayAct i.1 0 entries s0).2)
      else if 64 ≤ s0.cfg.applies.length then applyRefused i.1 2 i.2.1 s0
      else
        let want := fieldAt cmd 0x10 8
        let l := applyLanding s0 want
        let a : Apply := ⟨i.1, BitVec.ofNat 64 l, s0.sys.arrivals, entries⟩
        let s1 := { s0.clamped (b2n (l != want)) with
          cfg := { s0.cfg with applies := s0.cfg.applies ++ [a] }
          sys := { s0.sys with arrivals := s0.sys.arrivals + 1 } }
        (some ⟨0, l, i.2.1 || l != want⟩, overlayShow i.1 s1)) s)

/-! ### Porter commands (R466, R470, R472) -/

/-- A device address operand held to multiples of m (R465, R466). -/
def addrOperand (v m : Nat) (s : State) : Nat × Bool × State :=
  let x := nearMult m 0 (2 ^ 48 - m) v
  (x, x != v, s.clamped (b2n (x != v)))

/-- A descriptor is queued on a channel. -/
def ptrPush (ch : Nat) (x : PtrItem) (s : State) : State :=
  setPtrQ ch (s.ptrQ ch ++ [x]) (setPtr { s.ptr with seq := s.ptr.seq + 1 } s)

/-- PTR_XFER (R466, R467, R472): a transfer is queued on a channel. -/
def execPtrXfer (s : State) : Out :=
  .next (decodeNext (· == 0x10) (fun f cmd t s =>
    let mode := fieldAt cmd 9 1
    let ch := operand (fieldAt cmd 8 1) 0 31 s
    let sfix := bit mode 0
    let dfix := bit mode 1
    let fw := [4, 8, 32, 64].getD (bits mode 2 2) 4
    let count := fieldAt cmd 0x0C 4
    let n := nearMult (if sfix || dfix then fw else 4) 4 0xFFFFFFFC count
    let src := addrOperand (fieldAt cmd 0x10 8) (if sfix then fw else 4) (ch.2.2.clamped (b2n (n != count)))
    let dst := addrOperand (fieldAt cmd 0x18 8) (if dfix then fw else 4) src.2.2
    let held := ch.2.1 || n != count || src.2.1 || dst.2.1
    let s1 := dst.2.2
    if !s1.on (Fd.CH_CTRL_EN ch.1) then (some ⟨3, 0, held⟩, s1)
    else if 16 ≤ (s1.ptrQ ch.1).length then (some ⟨2, 0, held⟩, s1)
    else
      (none, ptrPush ch.1 ⟨s1.ptr.seq, fieldAt cmd 2 2, f, false, bit mode 4, sfix, dfix, fw, n, src.1, dst.1, held, t⟩ s1)) s)

/-- PTR_FENCE (R470): a fence is queued on a channel, or stands over every channel. -/
def execPtrFence (s : State) : Out :=
  .next (decodeNext (· == 0x11) (fun f cmd t s =>
    let ch := operand (fieldAt cmd 8 1) 0 32 s
    let s1 := ch.2.2
    let x : PtrItem := ⟨s1.ptr.seq, fieldAt cmd 2 2, f, true, bit (fieldAt cmd 9 1) 4, false, false, 4, 0, 0, 0, ch.2.1, t⟩
    if ch.1 = 32 then
      (none, ptrShow 0 (setPtr { s1.ptr with fences := s1.ptr.fences ++ [x], seq := s1.ptr.seq + 1 } s1))
    else if 16 ≤ (s1.ptrQ ch.1).length then (some ⟨2, 0, ch.2.1⟩, s1)
    else (none, ptrPush ch.1 x s1)) s)

/-! ### Remote commands at their target (R464, R521) -/

/-- REMOTE_COMMAND (R464, R521): a command arrives over a port; FWD_EN lets it wait for the decoder, or it is refused. A
target that holds 256 withholds credit, so no further one arrives. -/
def execRemoteCommand (port : Fin 8) (node : Fin 4096) (rseq : Word) (cmd : List Byte) (s : State) : Out :=
  if (ownId s).isNone ∨ 256 ≤ s.hif.remote.length then .next s
  else if s.onBit Fd.HIF_FWD_EN port.val then
    .next (setHif { s.hif with
      remote := s.hif.remote ++ [(.remote port.val node.val rseq.toNat, (cmd ++ zeros 64).take 64)] } s)
  else
    let s1 := (s.bump Fd.HIF_FWD_REFUSED).raisePerSecond port.val 0x0E03 [.w4 port.val, .w4 node.val]
    .next (sendCell (.completion node.val rseq.toNat 1 0 (fieldAt cmd 2 2) 0 false 0) s1)

/-! ### Remote commands at their originator (R520 to R522) -/

/-- Whether the remote completion ring has room. -/
def rcRoom (s : State) : Bool :=
  s.on Fd.BYO_RCTRL_EN && (s.byo.rcTail + 1) % max 1 (s.get Fd.BYO_RC_SIZE) != s.byo.rcHead

/-- An entry, whose PHASE bit is set here, goes to the remote completion ring. -/
def rcWrite (bytes : List Byte) (s : State) : State :=
  let n := (s.byo.rcTail + 1) % max 1 (s.get Fd.BYO_RC_SIZE)
  let flags := fieldAt bytes 0x0B 1 + b2n s.byo.rcPhase
  let s1 := s.store (hostAddr (s.rd64 0x110040 + 32 * s.byo.rcTail)) (putAt bytes 0x0B (le 1 flags))
  setByo { s1.byo with rcTail := n, rcPhase := s1.byo.rcPhase != (n == 0) } s1

/-- An entry is due: written, or kept until the ring has room. -/
def rcPost (bytes : List Byte) (s : State) : State :=
  if s.byo.rcDue.isEmpty && rcRoom s then rcWrite bytes s else setByo { s.byo with rcDue := s.byo.rcDue ++ [bytes] } s

/-- Entries kept are written while there is room. -/
def rcFlush (s : State) : State := s.byo.rcDue.foldl (fun s b => rcPost b s) (setByo { s.byo with rcDue := [] } s)

/-- The completion entry of a remote command (R522), with its event if it asked for one. -/
def rcEntry (o : RemoteOut) (rstat result cid status : Nat) (clamped late : Bool) (tdec : Tick) (s : State) : State :=
  let bytes := le 8 result ++ le 2 cid ++ le 1 status ++ le 1 (2 * b2n clamped + 4 * b2n late) ++ le 2 o.dest ++ le 2 o.tag ++
    le 1 rstat ++ zeros 3 ++ le 4 o.rseq ++ le 8 tdec.toNat
  (rcPost bytes s).raiseIf o.evt 0x100B [.w4 o.dest, .w4 o.tag]

/-- One entry of the send ring (R520 to R522): it takes the next RSEQ and is sent, or is unreachable. -/
def remoteSend (e : List Byte) (s : State) : State :=
  let dest := fieldAt e 0 2
  let cmd := (e.drop 0x40).take 64
  let o : RemoteOut := ⟨s.byo.rseq, dest, fieldAt e 2 2, fieldAt cmd 2 2, bit (fieldAt e 4 1) 0, false⟩
  let s1 := setByo { s.byo with
    rseq := (s.byo.rseq + 1) % 2 ^ 32
    rsHead := (s.byo.rsHead + 1) % max 1 (s.get Fd.BYO_RS_SIZE) } s
  if (ownId s1).isNone || ownId s1 == some dest || (s1.byo.routes.find? (fun r => r.1 == dest)).isNone then
    rcEntry o 2 0 o.cid 0 false false 0 s1
  else sendCell (.command dest o.rseq cmd) (setByo { s1.byo with out := s1.byo.out ++ [o] } s1)

/-- REMOTE_DOORBELL_POLL (R453, R520): the remote doorbell block is read and the send ring's entries are sent; a full
remote completion ring holds them back. `failed` as for DOORBELL_POLL. -/
def execRemoteDoorbellPoll (stores : List (Nat × List Byte)) (failed : Fin 3) (s : State) : Out :=
  let s0 := hostStores stores s
  if !s0.on Fd.BYO_RCTRL_EN then .next s0
  else
    let base := s0.rd64 0x110050
    if failed = 1 then .next (fetchFailed base s0)
    else
      let size := s0.get Fd.BYO_RS_SIZE
      let t := doorbellWord base 0 size 0x101 s0
      let c := doorbellWord base 4 (s0.get Fd.BYO_RC_SIZE) 0x102 t.2
      let s1 := rcFlush (setByo { c.2.byo with rsTail := t.1, rcHead := c.1 } c.2)
      let n := min 32 ((t.1 + size - s1.byo.rsHead) % max 1 size)
      if failed = 2 ∧ n ≠ 0 then .next (fetchFailed (s1.rd64 0x110030 + 128 * s1.byo.rsHead) s1)
      else
        let s2 := s1.each (ringEntries s1 (s1.rd64 0x110030) size 128 s1.byo.rsHead n) (fun e s =>
          if s.byo.rcDue.isEmpty && rcRoom s then remoteSend e s else s)
        .next (if n = 0 then s2 else s2.store (hostAddr (base + 8)) (le 4 s2.byo.rsHead))

/-- REMOTE_COMPLETION (R522): a completion or a refusal returns; one that comes after the timeout makes a second entry with
LATE set. -/
def execRemoteCompletion (rseq : Word) (rstat : Fin 4) (result : BitVec 64) (cid : BitVec 16) (status : BitVec 8)
    (clamped : Bool) (tdec : Tick) (s : State) : Out :=
  match s.byo.out.find? (fun o => o.rseq == rseq.toNat) with
  | none => .next s
  | some o =>
    let s1 := setByo { s.byo with out := s.byo.out.filter (fun x => x.rseq != o.rseq) } s
    if rstat = 0 then .next (rcEntry o 0 result.toNat cid.toNat status.toNat clamped o.timedOut tdec s1)
    else if rstat = 1 ∧ !o.timedOut then .next (rcEntry o 1 0 o.cid 0 false false 0 s1)
    else .next s

/-- REMOTE_TIMEOUT (R522): no completion has returned within RTMO. -/
def execRemoteTimeout (rseq : Word) (s : State) : Out :=
  match s.byo.out.find? (fun o => o.rseq == rseq.toNat && !o.timedOut) with
  | none => .next s
  | some o =>
    let out := s.byo.out.map (fun x => if x.rseq = o.rseq then { x with timedOut := true } else x)
    let s1 := ((setByo { s.byo with out := out } s).bump Fd.BYO_RTIMEOUTS).raise 0x100A [.w4 o.dest, .w4 o.rseq]
    .next (rcEntry o 3 0 o.cid 0 false false 0 s1)

/-! ### The host link (R448, R475, R558) -/

/-- Whether a register of the HIF unit keeps its word when the host link is lost: FWD_EN and the counters (R475). -/
def keptByLinkLoss (off : Nat) : Bool :=
  off / 0x10000 != 0xE || off == 0xE0048 || (decide (0xE0060 ≤ off) && decide (off ≤ 0xE006C)) ||
    (decide (0xE0100 ≤ off) && decide (off < 0xE0180))

/-- The host link is lost (R475). `perst` says that HIF_PERST_N is asserted. -/
def hostLinkLost (perst : Bool) (s : State) : State :=
  let hif := { HifSt.init with
    remote := s.hif.remote
    lost := s.hif.lost
    readData := s.hif.readData
    readPoison := s.hif.readPoison
    perst := perst }
  let s1 := { porterLinkDown s with evq := [] }
  let s2 := setHif hif { s1 with
    regs := s1.regs.filter (fun r => keptByLinkLoss r.1)
    rsh := s1.rsh.filter (fun r => keptByLinkLoss r.1)
    wsh := s1.wsh.filter (fun r => keptByLinkLoss r.1) }
  s2.raise 0x0E06

/-- HOST_LINK_LOST (R475): 0 PERST, 1 hot reset, 2 link-down, 3 Function Level Reset. -/
def execHostLinkLost (cause : Fin 4) (s : State) : Out := .next (hostLinkLost (cause == 0 || s.hif.perst) s)

/-- HOST_LINK_UP (R448, R475): the link has trained to a width (0 x1 to 4 x16) and a speed (1 to 5). -/
def execHostLinkUp (width : Fin 5) (speed : Fin 6) (s : State) : Out :=
  if s.hif.perst || !s.pwr.rails || speed == 0 then .next s
  else
    let s1 := ((s.set Fd.HIF_LINK_WIDTH width.val).set Fd.HIF_LINK_SPEED speed.val).set Fd.HIF_STATUS_LINK_UP 1
    .next (s1.raise 0x0E07 [.w4 width.val, .w4 speed.val])

/-- PERST_DEASSERT (R558): HIF_PERST_N is deasserted, and the endpoint may train. -/
def execPerstDeassert (s : State) : Out := .next (setHif { s.hif with perst := false } s)

end Sys2Proof.Machine
end

