-- ==== Sys2Proof/Machine/CykIsa.lean ====
section
/-! DEFINITION. The Cykin instructions (R432 to R447): what each does at its issue. A delay counts issue cycles from the
issue to the cycle at whose end a result is written (R407, R408): 0 for class D, 2 for loads and moves from data, 3 for
ALU results and accumulators, 4 for moves to special registers. -/

namespace Sys2Proof.Machine

/-! ### Vectors and accumulators (R401, R402, R440 to R442) -/

/-- A value wrapped to w bits. -/
def wrapI (w : Nat) (x : Int) : Int := sext w (encI w x)

/-- A part of a vector. -/
def partOf (v : List Int) (k : Nat) : Int := v.getD k 0

/-- A vector whose I and Q parts come from the lanes of two vectors. -/
def lanesOf (f : Int → Int → Int → Int → Int × Int) (a b : List Int) : List Int :=
  (List.range 8).flatMap (fun l =>
    let r := f (partOf a (2 * l)) (partOf a (2 * l + 1)) (partOf b (2 * l)) (partOf b (2 * l + 1))
    [r.1, r.2])

/-- The result of a VOP function on vectors a and b, with SH (R440). -/
def vopVal (fn : VopFn) (sh : Nat) (a b : List Int) : List Int :=
  match fn with
  | .add => lanesOf (fun ai aq bi bq => (wrapI 16 (ai + bi), wrapI 16 (aq + bq))) a b
  | .sub => lanesOf (fun ai aq bi bq => (wrapI 16 (ai - bi), wrapI 16 (aq - bq))) a b
  | .adds => lanesOf (fun ai aq bi bq => (satI 16 (ai + bi), satI 16 (aq + bq))) a b
  | .subs => lanesOf (fun ai aq bi bq => (satI 16 (ai - bi), satI 16 (aq - bq))) a b
  | .sra => lanesOf (fun ai aq _ _ => (sar ai sh, sar aq sh)) a b
  | .conj => lanesOf (fun ai aq _ _ => (ai, wrapI 16 (-aq))) a b
  | .cmuls => lanesOf (fun ai aq bi bq =>
      (satI 16 (sar (ai * bi - aq * bq) 15), satI 16 (sar (ai * bq + aq * bi) 15))) a b
  | .mov => a
  | .swap => lanesOf (fun ai aq _ _ => (aq, ai)) a b

/-- A complex product of vectors, exact (R401): `cj` conjugates the second, `neg` negates the product. -/
def macProd (cj neg : Bool) (a b : List Int) : List Int :=
  lanesOf (fun ai aq bi bq0 =>
    let bq := if cj then -bq0 else bq0
    let pi' := ai * bi - aq * bq
    let pq := ai * bq + aq * bi
    if neg then (-pi', -pq) else (pi', pq)) a b

/-- An accumulator with a product added, and whether a part wrapped (R401). -/
def accAdd (acc p : List Int) : List Int × Bool :=
  let sums := (List.range 16).map (fun k => partOf acc k + partOf p k)
  (sums.map (wrapI 40), sums.any (fun x => wrapI 40 x != x))

/-- The writes of an accumulation into ACn (R441): the accumulator, and OVn where a part wrapped, both at the end of X2. -/
def macWrites (n : Nat) (c : CoreSt) (p : List Int) : List (Nat × CoreWrite) :=
  let r := accAdd (c.atX2.acv n) p
  (3, .ac n r.1) :: if r.2 then [(3, .ov n)] else []

/-- The accumulator that LDAC leaves (R442). -/
def ldacVal (add u : Bool) (s : Nat) (acc v : List Int) : List Int :=
  (List.range 16).map (fun k =>
    let x := partOf v k
    let y : Int := if u then (encI 16 x : Int) else x
    wrapI 40 ((if add then partOf acc k else 0) + y * ((2 ^ s : Nat) : Int)))

/-- A lane as a 32-bit word: Q in [31:16], I in [15:0] (R438). -/
def laneWord (v : List Int) (l : Nat) : Nat := encI 16 (partOf v (2 * l)) + 65536 * encI 16 (partOf v (2 * l + 1))

/-- Every lane of a vector holds a word (R438, R439). -/
def spread (w : Nat) : List Int := (List.replicate 8 [sext 16 w, sext 16 (w / 65536)]).flatten

/-- The result of an address ALU function, modulo 2^32 (R438). -/
def aluVal (fn : AluFn) (a b : Nat) : Nat :=
  match fn with
  | .add => (a + b) % 2 ^ 32
  | .sub => (a + 2 ^ 32 - b % 2 ^ 32) % 2 ^ 32
  | .and => Nat.land a b
  | .or => Nat.lor a b
  | .xor => Nat.xor a b
  | .sll => a * 2 ^ (b % 32) % 2 ^ 32
  | .srl => a / 2 ^ (b % 32)
  | .sra => encI 32 (sar (sext 32 a) (b % 32))

/-! ### Memory operands (R403 to R406) -/

/-- The address of a memory operand, read in D. -/
def memAddr (c : CoreSt) (m : CykMem) : Nat := c.atD.reg m.an.val

/-- The post-modification of a memory operand (R406). -/
def memPost (c : CoreSt) (m : CykMem) : List (Nat × CoreWrite) :=
  match m.mm with
  | none => []
  | some k => [(0, .reg m.an.val ((c.atD.reg m.an.val + c.atD.reg (8 + k.val)) % 2 ^ 32))]

/-- Whether an address is a far one (R403). -/
def isFar (a : Nat) : Bool := decide (2 ^ 31 ≤ a)

/-- The device address of a far address, aligned down to the access's size (R403). -/
def farAt (s : State) (n a size : Nat) : Nat := floorTo size ((s.rd64 (corAt n 0x10) + (a - 2 ^ 31)) % 2 ^ 48)

/-- Bytes written in data memory, modulo 2^18. -/
def dmWrite (n a : Nat) (bs : List Byte) (s : State) : State := s.store (dmAt n a (max 1 bs.length)) bs

/-- A far access outside the map of R23 (R405). -/
def farError (n a : Nat) (s : State) : State := (irqCause n 5 s).raise 0x0D02 [.w4 n, .w8 a]

/-- A far store (R404, R405): a register takes 32-bit writes, memory bytes; the core may write its own memory. -/
def farStore (n a : Nat) (bs : List Byte) (s : State) : State :=
  match regionOf a with
  | .undecoded => farError n a (addrErr 6 a s)
  | .regs =>
    s.each (List.range (bs.length / 4)) (fun k s => regWrite ((a + 4 * k) % 2 ^ 26) (fieldAt bs (4 * k) 4) s)
  | _ => targetWrite 6 (some n) a bs false s

/-- A far load (R405, R499): the bytes, whether they are poisoned, and the state. -/
def farRead (n a k : Nat) (s : State) : List Byte × Bool × State :=
  match regionOf a with
  | .undecoded => (zeros k, false, farError n a (addrErr 6 a s))
  | .regs =>
    (List.range (k / 4)).foldl (fun (r : List Byte × Bool × State) j =>
      let q := busRead ((a + 4 * j) % 2 ^ 26) r.2.2
      (r.1 ++ le 4 q.1, false, q.2)) ([], false, s)
  | _ => targetRead 6 a k s

/-- A store of a core at an address: in its own memory, or far. -/
def coreStore (n a : Nat) (bs : List Byte) (s : State) : State :=
  if isFar a then farStore n (farAt s n a bs.length) bs s else dmWrite n a bs s

/-- The write of a load's result (R439): LD a vector, LDR every lane, LDA a scalar register. -/
def loadWrite (form reg : Nat) (bs : List Byte) : CoreWrite :=
  match form with
  | 0 => .d reg (vecOf bs)
  | 1 => .d reg (spread (ofLe bs))
  | _ => .reg reg (ofLe bs)

/-- A load: from data memory at once, or a far load that stalls the core (R405, R409). -/
def loadEff (n form reg : Nat) (c : CoreSt) (m : CykMem) (s : State) : CykEff :=
  let size := if form = 0 then 32 else 4
  let a := memAddr c m
  if isFar a then
    { ops := memPost c m, upd := fun c => { c with far := some ⟨farAt s n a size, form, reg⟩ } }
  else { ops := memPost c m ++ [(2, loadWrite form reg (s.load (dmAt n a size) size))] }

/-- FAR_LOAD_RETURN (R405, R409, R499): the data of a far load arrives and the core goes on. -/
def execFarLoadReturn (core : Fin 128) (s : State) : Out :=
  let n := core.val
  match (s.core n).far with
  | none => .next s
  | some f =>
    let r := farRead n f.addr (if f.form = 0 then 32 else 4) s
    let c := r.2.2.core n
    let issued := { c with cycle := c.cycle - 1, far := none }
    let c1 := issued.push 2 (loadWrite f.form f.reg r.1)
    let c2 := if r.2.1 then c1.push 2 (.faccOr 1) else c1
    .next (setCore n { c2 with cycle := c.cycle } r.2.2)

/-! ### Control and loops (R434 to R437) -/

/-- HALT (R424, R434). -/
def execHalt (core : Fin 128) (s : State) : Out :=
  .next (cykIssue core (fun i _ _ _ => match i with
    | .halt => some { ops := [], halt := true }
    | _ => none) s)

/-- NOP (R434). -/
def execNop (core : Fin 128) (s : State) : Out :=
  .next (cykIssue core (fun i _ _ _ => match i with
    | .nop => some { ops := [] }
    | _ => none) s)

/-- TRAP (R418, R434): its entry follows at the next boundary. -/
def execTrap (core : Fin 128) (s : State) : Out :=
  .next (cykIssue core (fun i _ _ _ => match i with
    | .trap => some { ops := [], upd := fun c => { c with icause := setBit c.icause 7, trap := true } }
    | _ => none) s)

/-- RETI (R422): every earlier write completes, SR is restored, and issue goes on at IPC. -/
def execReti (core : Fin 128) (s : State) : Out :=
  .next (cykIssue core (fun i c _ _ => match i with
    | .reti => some {
        ops := []
        upd := fun c => let d := c.drain; { d with sr := d.isr % 128 }
        goto := some c.drain.ipc }
    | _ => none) s)

/-- DI (R434): IE clears at the boundary after it. -/
def execDi (core : Fin 128) (s : State) : Out :=
  .next (cykIssue core (fun i _ _ _ => match i with
    | .di => some { ops := [(0, .ie false)] }
    | _ => none) s)

/-- EI (R434). -/
def execEi (core : Fin 128) (s : State) : Out :=
  .next (cykIssue core (fun i _ _ _ => match i with
    | .ei => some { ops := [(0, .ie true)] }
    | _ => none) s)

/-- BR (R434). -/
def execBr (core : Fin 128) (s : State) : Out :=
  .next (cykIssue core (fun i _ _ _ => match i with
    | .br t => some { ops := [], jump := some (some t.toNat) }
    | _ => none) s)

/-- CALL (R434): the register takes the address after the delay slot. -/
def execCall (core : Fin 128) (s : State) : Out :=
  .next (cykIssue core (fun i _ pc _ => match i with
    | .call r t => some { ops := [(0, .reg r.val ((pc + 2) % 16384))], jump := some (some t.toNat) }
    | _ => none) s)

/-- A conditional branch: taken or not, the next instruction stands in its delay slot. -/
def branchIf (taken : Bool) (t : BitVec 14) : CykEff := { ops := [], jump := some (if taken then some t.toNat else none) }

/-- BZ (R434). -/
def execBz (core : Fin 128) (s : State) : Out :=
  .next (cykIssue core (fun i c _ _ => match i with
    | .bz r t => some (branchIf (c.atD.reg r.val == 0) t)
    | _ => none) s)

/-- BNZ (R434). -/
def execBnz (core : Fin 128) (s : State) : Out :=
  .next (cykIssue core (fun i c _ _ => match i with
    | .bnz r t => some (branchIf (c.atD.reg r.val != 0) t)
    | _ => none) s)

/-- BLTZ (R434): signed. -/
def execBltz (core : Fin 128) (s : State) : Out :=
  .next (cykIssue core (fun i c _ _ => match i with
    | .bltz r t => some (branchIf (decide (sext 32 (c.atD.reg r.val) < 0)) t)
    | _ => none) s)

/-- The loop registers set at once (R434). -/
def loopSet (count pc le : Nat) : CykEff :=
  { ops := [], jump := some none, upd := fun c => { c with lc := count, lb := (pc + 2) % 16384, le := le } }

/-- LOOP (R410, R434). -/
def execLoop (core : Fin 128) (s : State) : Out :=
  .next (cykIssue core (fun i _ pc _ => match i with
    | .loop cnt le => some (loopSet (cnt.toNat + 1) pc le.toNat)
    | _ => none) s)

/-- LOOPR (R434). -/
def execLoopr (core : Fin 128) (s : State) : Out :=
  .next (cykIssue core (fun i c pc _ => match i with
    | .loopr an le => some (loopSet (c.atD.reg an.val % 2 ^ 17) pc le.toNat)
    | _ => none) s)

/-- JR (R434). -/
def execJr (core : Fin 128) (s : State) : Out :=
  .next (cykIssue core (fun i c _ _ => match i with
    | .jr r => some { ops := [], jump := some (some (c.atD.reg r.val % 16384)) }
    | _ => none) s)

/-! ### Address registers and scalar memory (R437, R438) -/

/-- MVI (R438). -/
def execMvi (core : Fin 128) (s : State) : Out :=
  .next (cykIssue core (fun i _ _ _ => match i with
    | .mvi r imm => some { ops := [(0, .reg r.val (encI 32 imm.toInt))] }
    | _ => none) s)

/-- MVIH (R438): bits [15:0] keep their value. -/
def execMvih (core : Fin 128) (s : State) : Out :=
  .next (cykIssue core (fun i c _ _ => match i with
    | .mvih r imm => some { ops := [(0, .reg r.val (imm.toNat * 65536 + c.atD.reg r.val % 65536))] }
    | _ => none) s)

/-- ADDI (R438). -/
def execAddi (core : Fin 128) (s : State) : Out :=
  .next (cykIssue core (fun i c _ _ => match i with
    | .addi r imm => some { ops := [(0, .reg r.val (aluVal .add (c.atD.reg r.val) (encI 32 imm.toInt)))] }
    | _ => none) s)

/-- An address ALU instruction of one function. -/
def aluEff (fn : AluFn) (i : CykInstr) (c : CoreSt) : Option CykEff :=
  match i with
  | .alua f rd ra rb =>
    if f = fn then some { ops := [(0, .reg rd.val (aluVal fn (c.atD.reg ra.val) (c.atD.reg rb.val)))] } else none
  | _ => none

/-- ALUA_ADD (R438). -/
def execAluaAdd (core : Fin 128) (s : State) : Out := .next (cykIssue core (fun i c _ _ => aluEff .add i c) s)

/-- ALUA_SUB (R438). -/
def execAluaSub (core : Fin 128) (s : State) : Out := .next (cykIssue core (fun i c _ _ => aluEff .sub i c) s)

/-- ALUA_AND (R438). -/
def execAluaAnd (core : Fin 128) (s : State) : Out := .next (cykIssue core (fun i c _ _ => aluEff .and i c) s)

/-- ALUA_OR (R438). -/
def execAluaOr (core : Fin 128) (s : State) : Out := .next (cykIssue core (fun i c _ _ => aluEff .or i c) s)

/-- ALUA_XOR (R438). -/
def execAluaXor (core : Fin 128) (s : State) : Out := .next (cykIssue core (fun i c _ _ => aluEff .xor i c) s)

/-- ALUA_SLL (R438). -/
def execAluaSll (core : Fin 128) (s : State) : Out := .next (cykIssue core (fun i c _ _ => aluEff .sll i c) s)

/-- ALUA_SRL (R438). -/
def execAluaSrl (core : Fin 128) (s : State) : Out := .next (cykIssue core (fun i c _ _ => aluEff .srl i c) s)

/-- ALUA_SRA (R438). -/
def execAluaSra (core : Fin 128) (s : State) : Out := .next (cykIssue core (fun i c _ _ => aluEff .sra i c) s)

/-- What MVTS writes (R437). -/
def specialSet (sreg v : Nat) : CoreWrite :=
  match sreg with
  | 0 => .lc v
  | 1 => .lb v
  | 2 => .le v
  | 3 => .sr v
  | 4 => .imask v
  | 5 => .causeClr (v % 256)
  | 6 => .ipc v
  | 7 => .isr v
  | _ => .facc v

/-- What MVFS reads (R437). -/
def specialGet (sreg : Nat) (c : CoreSt) : Nat :=
  match sreg with
  | 0 => c.lc
  | 1 => c.lb
  | 2 => c.le
  | 3 => c.sr
  | 4 => c.imask
  | 5 => c.icause
  | 6 => c.ipc
  | 7 => c.isr
  | _ => c.facc

/-- MVTS (R437): written at the end of W. -/
def execMvts (core : Fin 128) (s : State) : Out :=
  .next (cykIssue core (fun i c _ _ => match i with
    | .mvts r sreg => some { ops := [(4, specialSet sreg.val (c.atD.reg r.val))] }
    | _ => none) s)

/-- MVFS (R437): read in M. -/
def execMvfs (core : Fin 128) (s : State) : Out :=
  .next (cykIssue core (fun i c _ _ => match i with
    | .mvfs r sreg => some { ops := [(2, .reg r.val (specialGet sreg.val c.atM))] }
    | _ => none) s)

/-- MVDA (R438): lane 0. -/
def execMvda (core : Fin 128) (s : State) : Out :=
  .next (cykIssue core (fun i c _ _ => match i with
    | .mvda r d => some { ops := [(2, .reg r.val (laneWord (c.atM.dv d.val) 0))] }
    | _ => none) s)

/-- MVAD (R438): every lane. -/
def execMvad (core : Fin 128) (s : State) : Out :=
  .next (cykIssue core (fun i c _ _ => match i with
    | .mvad d r => some { ops := [(3, .d d.val (spread (c.atD.reg r.val)))] }
    | _ => none) s)

/-- LDA (R438). -/
def execLda (core : Fin 128) (s : State) : Out :=
  .next (cykIssue core (fun i c _ s => match i with
    | .lda r m => some (loadEff core.val 2 r.val c m s)
    | _ => none) s)

/-- STA (R438). -/
def execSta (core : Fin 128) (s : State) : Out :=
  .next (cykIssue core (fun i c _ _ => match i with
    | .sta r m => some { ops := memPost c m, post := coreStore core.val (memAddr c m) (le 4 (c.atD.reg r.val)) }
    | _ => none) s)

/-- CYC (R438): the issue cycles counted at its issue. -/
def execCyc (core : Fin 128) (s : State) : Out :=
  .next (cykIssue core (fun i c _ _ => match i with
    | .cyc r => some { ops := [(2, .reg r.val (c.cycle % 2 ^ 32))] }
    | _ => none) s)

/-! ### Vector memory and vector ALU (R439, R440) -/

/-- LD (R439). -/
def execLd (core : Fin 128) (s : State) : Out :=
  .next (cykIssue core (fun i c _ s => match i with
    | .ld d m => some (loadEff core.val 0 d.val c m s)
    | _ => none) s)

/-- LDR (R439): one word into every lane. -/
def execLdr (core : Fin 128) (s : State) : Out :=
  .next (cykIssue core (fun i c _ s => match i with
    | .ldr d m => some (loadEff core.val 1 d.val c m s)
    | _ => none) s)

/-- ST (R439). -/
def execSt (core : Fin 128) (s : State) : Out :=
  .next (cykIssue core (fun i c _ _ => match i with
    | .st d m => some { ops := memPost c m, post := coreStore core.val (memAddr c m) (vecBytes (c.atM.dv d.val)) }
    | _ => none) s)

/-- A vector ALU instruction of one function. -/
def vopEff (fn : VopFn) (i : CykInstr) (c : CoreSt) : Option CykEff :=
  match i with
  | .vop f dd da db sh =>
    if f = fn then some { ops := [(3, .d dd.val (vopVal fn sh.val (c.atM.dv da.val) (c.atM.dv db.val)))] } else none
  | _ => none

/-- VOP_ADD (R440). -/
def execVopAdd (core : Fin 128) (s : State) : Out := .next (cykIssue core (fun i c _ _ => vopEff .add i c) s)

/-- VOP_SUB (R440). -/
def execVopSub (core : Fin 128) (s : State) : Out := .next (cykIssue core (fun i c _ _ => vopEff .sub i c) s)

/-- VOP_ADDS (R440). -/
def execVopAdds (core : Fin 128) (s : State) : Out := .next (cykIssue core (fun i c _ _ => vopEff .adds i c) s)

/-- VOP_SUBS (R440). -/
def execVopSubs (core : Fin 128) (s : State) : Out := .next (cykIssue core (fun i c _ _ => vopEff .subs i c) s)

/-- VOP_SRA (R440). -/
def execVopSra (core : Fin 128) (s : State) : Out := .next (cykIssue core (fun i c _ _ => vopEff .sra i c) s)

/-- VOP_CONJ (R440). -/
def execVopConj (core : Fin 128) (s : State) : Out := .next (cykIssue core (fun i c _ _ => vopEff .conj i c) s)

/-- VOP_CMULS (R440). -/
def execVopCmuls (core : Fin 128) (s : State) : Out := .next (cykIssue core (fun i c _ _ => vopEff .cmuls i c) s)

/-- VOP_MOV (R440). -/
def execVopMov (core : Fin 128) (s : State) : Out := .next (cykIssue core (fun i c _ _ => vopEff .mov i c) s)

/-- VOP_SWAP (R440). -/
def execVopSwap (core : Fin 128) (s : State) : Out := .next (cykIssue core (fun i c _ _ => vopEff .swap i c) s)

/-! ### Accumulators (R441 to R443) -/

/-- LDAC (R442): it never changes OVn. -/
def execLdac (core : Fin 128) (s : State) : Out :=
  .next (cykIssue core (fun i c _ _ => match i with
    | .ldac ac da add u k =>
      some { ops := [(3, .ac ac.val (ldacVal add u k.val (c.atX2.acv ac.val) (c.atM.dv da.val)))] }
    | _ => none) s)

/-- MAC (R441). -/
def execMac (core : Fin 128) (s : State) : Out :=
  .next (cykIssue core (fun i c _ _ => match i with
    | .mac ac da db cj neg =>
      some { ops := macWrites ac.val c (macProd cj neg (c.atM.dv da.val) (c.atM.dv db.val)) }
    | _ => none) s)

/-- CLR (R441): OVn keeps its value. -/
def execClr (core : Fin 128) (s : State) : Out :=
  .next (cykIssue core (fun i _ _ _ => match i with
    | .clr ac => some { ops := [(3, .ac ac.val vecZero)] }
    | _ => none) s)

/-- What FTAP does (R443): in data memory only, both pointers post-modified one after the other. -/
def ftapEff (n : Nat) (ac aa ma ab mb : Nat) (cj : Bool) (c : CoreSt) (s : State) : CykEff :=
  let pa := c.atD.reg aa
  let pb := c.atD.reg ab
  let h := vecOf (s.load (dmAt n pa 32) 32)
  let xb := s.load (dmAt n pb 32) 32
  let a1 := (pa + c.atD.reg (8 + ma)) % 2 ^ 32
  let b1 := ((if ab = aa then a1 else pb) + c.atD.reg (8 + mb)) % 2 ^ 32
  { ops := macWrites ac c (macProd cj false (vecOf xb) h) ++ [(0, .reg aa a1), (0, .reg ab b1)]
    post := dmWrite n (floorTo 32 (pb % 2 ^ 18) + 32) xb }

/-- FTAP (R443). -/
def execFtap (core : Fin 128) (s : State) : Out :=
  .next (cykIssue core (fun i c _ s => match i with
    | .ftap ac aa ma ab mb cj => some (ftapEff core.val ac.val aa.val ma.val ab.val mb.val cj c s)
    | _ => none) s)

/-- MV (R402, R441): bits [s+15:s] of each part. -/
def execMv (core : Fin 128) (s : State) : Out :=
  .next (cykIssue core (fun i c _ _ => match i with
    | .mv d ac k => some { ops := [(3, .d d.val ((c.atX1.acv ac.val).map (fun x => wrapI 16 (sar x k.val))))] }
    | _ => none) s)

/-- SATMV (R402, R441). -/
def execSatmv (core : Fin 128) (s : State) : Out :=
  .next (cykIssue core (fun i c _ _ => match i with
    | .satmv d ac k => some { ops := [(3, .d d.val ((c.atX1.acv ac.val).map (fun x => satI 16 (sar x k.val))))] }
    | _ => none) s)

/-! ### Rings, outputs and trigger posts (R444 to R446) -/

/-- Whether a ring holds an item not yet popped. -/
def ringReady (s : State) (n r : Nat) : Bool :=
  s.get (Fd.COR_IQ_SLOTS_SLOTS n r) != 0 && decide (((s.core n).ring r).popped < ((s.core n).ring r).stored)

/-- What POP does once its ring has an item: the header's address and the item's DFLAGS, both at the end of X1. -/
def popEff (n an r : Nat) (s : State) : CykEff :=
  let q := (s.core n).ring r
  let a := slotAt s n r q.popped
  let fl := (Memory.byte s.mem (dmBase n + (a + 14) % 2 ^ 18)).toNat
  { ops := [(2, .reg an a), (2, .faccOr fl)]
    upd := fun c => c.setRing r { c.ring r with popped := (c.ring r).popped + 1 } }

/-- POP (R414, R419, R444): on an empty ring the core is WAITING, and does not issue. -/
def execPop (core : Fin 128) (s : State) : Out :=
  let n := core.val
  let s0 := cykBoundary n s
  match cykFetch n s0 with
  | some (.pop an r, c) =>
    .next (if ringReady s0 n r.val then cykRetire n c (popEff n an.val r.val s0) s0
      else s0.set (Fd.COR_STATUS_STATE n) 3)
  | _ => .next s0

/-- FREE (R414, R444). -/
def execFree (core : Fin 128) (s : State) : Out :=
  .next (cykIssue core (fun i _ _ _ => match i with
    | .free r => some {
        ops := []
        upd := fun c =>
          let q := c.ring r.val
          if q.freed < q.popped then c.setRing r.val { q with freed := q.freed + 1 } else c }
    | _ => none) s)

/-- What POST does (R416, R445): the item of the descriptor goes to the output ring, and FACC clears after its header is
built, unless PERSIST is 1. -/
def postEff (n : Nat) (an : Nat) (c : CoreSt) (s : State) : CykEff :=
  let m := c.atM
  let item := postItem s n (c.atD.reg an) m.facc m.persist
  let t := BitVec.ofNat 64 (ofLe (dmBytes s n (floorTo 32 (c.atD.reg an % 2 ^ 18)) 8))
  { ops := if m.persist then [] else [(1, .facc 0)]
    cycles := 1 + (16 + item.2.1 + 31) / 32
    post := fun s => stick (m.facc % 128) t (outRingWrite n item.1 (s.clamped (b2n item.2.2))) }

/-- POST (R445). -/
def execPost (core : Fin 128) (s : State) : Out :=
  .next (cykIssue core (fun i c _ s => match i with
    | .post an => some (postEff core.val an.val c s)
    | _ => none) s)

/-- A post on a trigger line, if the line is enabled and names this core (R417). -/
def linePost (n m : Nat) (t : Tick) (trigger : Bool) (fl : Nat) (s : State) : State :=
  if s.on (Fd.CYK_TLINE_EN m) && s.get (Fd.CYK_TLINE_CORE m) == n then cykPost m t trigger fl s
  else (s.bump Fd.CYK_TPDISC).raise 0x0D05 [.w4 n, .w4 m]

/-- TPOST (R213, R417, R444): the stream time stands in the 8 bytes at An, aligned down to 8. -/
def execTpost (core : Fin 128) (s : State) : Out :=
  .next (cykIssue core (fun i c _ s => match i with
    | .tpost m an p =>
      let t := BitVec.ofNat 64 (s.loadN (dmAt core.val (c.atD.reg an.val) 8) 8)
      some { ops := [], post := linePost core.val m.val t p (c.atM.facc % 128) }
    | _ => none) s)

end Sys2Proof.Machine
end

