-- ==== Sys2Proof/Machine/Power.lean ====
section
/-! DEFINITION. The input, the rails, the phases and the sense lines (R65 to R72, R85). What the module measures
(whether a sense contact is open, how long MOD_EN was low, the milliseconds spent above 62 V) comes with the command. -/

namespace Sys2Proof.Machine

/-- Whether ALERT_N is driven low (R65, R558). -/
def State.alertLow (s : State) : Bool :=
  s.rd 0x120004 != 0 || s.on Fd.PWR_SHORT || s.on Fd.PWR_PAT_SHORT || s.pwr.startFail

/-- The rails start: a full start-up begins with every register reset (R66, R557, R567). -/
def startRails (cause : Nat) (s : State) : State :=
  let s1 := offState s
  let s2 := (((s1.set Fd.PWR_STATUS_AUX_ON 1).set Fd.PWR_STATUS_MOD_EN 1).set Fd.CFG_LAST_RESET_CAUSE cause).set
    Fd.HK_CTRL_REF_EN 1
  let s3 := s2.set Fd.PWR_OV_ACCUM s.pwr.accum
  { s3 with
    pwr := { s3.pwr with accepted := true, rails := true, accum := s.pwr.accum }
    hk := { s3.hk with refCount := true } }

/-- VIN_ACCEPTED (R66, R67): the input is accepted and AUX_3V3 turns on; with MOD_EN high the rails start. -/
def execVinAccepted (s : State) : Out :=
  if s.pwr.accepted then .next s
  else
    let s1 := { s with pwr := { s.pwr with accepted := true, latched := false, disc := false } }.set Fd.PWR_STATUS_AUX_ON 1
    .next (if s.on Fd.PWR_STATUS_MOD_EN then startRails 0 s1 else s1)

/-- VIN_LOW (R67, R85): VIN falls through 9.0 V; operation continues. -/
def execVinLow (s : State) : Out := .next ((s.set Fd.PWR_FAULT_LOW_SEEN 1).raise 0x1204)

/-- VIN_POWER_LOSS (R67): PGOOD low, all rails and AUX_3V3 off, everything not in flash lost. -/
def execVinPowerLoss (s : State) : Out :=
  let modEn := s.get Fd.PWR_STATUS_MOD_EN
  let o := ((offState s).set Fd.CLK_STATUS_OCXO_RDY 0).set Fd.PWR_STATUS_MOD_EN modEn
  .next { o with pwr := { PwrSt.init with accum := s.pwr.accum } }

/-- VIN_OVERVOLTAGE (R71, R85): VIN rises above 62 V; the first time with the accumulator at zero is reported. -/
def execVinOvervoltage (s : State) : Out :=
  let s1 := s.set Fd.PWR_STATUS_OV_ACTIVE 1
  .next (if s.pwr.accum = 0 then (s1.set Fd.PWR_FAULT_OV_SEEN 1).raise 0x1201 else s1)

/-- The overvoltage accumulator given a count of milliseconds (R71). -/
def ovAccum (s : State) (ms : Nat) : State :=
  { s with pwr := { s.pwr with accum := ms } }.set Fd.PWR_OV_ACCUM ms

/-- VIN_BELOW_61V (R71): VIN falls below 61 V after `ms` more milliseconds above 62 V; the count is reported. -/
def execVinBelow61V (ms : Nat) (s : State) : Out :=
  let n := min (s.pwr.accum + ms) 100
  .next (((ovAccum s n).set Fd.PWR_STATUS_OV_ACTIVE 0).raise 0x1202 [.w4 n])

/-- OV_SHUTDOWN (R71): the accumulator reaches 80 ms and the ordered shutdown begins, cause 3. -/
def execOvShutdown (s : State) : Out :=
  if s.on Fd.PWR_STATUS_OV_ACTIVE && decide (s.pwr.accum < 80) then
    .next (beginShutdown 3 (((ovAccum s 80).set Fd.PWR_FAULT_OV_SEEN 1).raise 0x1203 [.w4 80]))
  else .next s

/-- OV_DISCONNECT (R71, R580): the accumulator reaches 100 ms and the surge stopper disconnects the input, whatever the
shutdown has reached; AUX_3V3 and PGOOD go off. -/
def execOvDisconnect (s : State) : Out :=
  if s.on Fd.PWR_STATUS_OV_ACTIVE then
    let modEn := s.get Fd.PWR_STATUS_MOD_EN
    let o := ((ovAccum (offState s) 100).set Fd.CLK_STATUS_OCXO_RDY 0).set Fd.PWR_STATUS_MOD_EN modEn
    .next { o with
      pwr := { PwrSt.init with accepted := true, latched := true, disc := true, accum := 100 } }
  else .next s

/-- OV_ACCUM_CLEAR (R71): after 10 s without a break below 61 V the accumulator is cleared. -/
def execOvAccumClear (s : State) : Out :=
  if s.on Fd.PWR_STATUS_OV_ACTIVE then .next s else .next (ovAccum s 0)

/-- MOD_EN_RISE (R66, R71, R579): MOD_EN goes high after `lowMs` ms low; the rails start if VIN lies inside the window
and the module is not held off, or has seen MOD_EN low for 10 ms. -/
def execModEnRise (lowMs : Nat) (s : State) : Out :=
  let s1 := s.set Fd.PWR_STATUS_MOD_EN 1
  if s.pwr.rails || !s.pwr.accepted || (s.pwr.latched && decide (lowMs < 10)) then .next s1
  else .next (startRails (if s.pwr.disc then 2 else 1) s1)

/-- MOD_EN_FALL (R66, R579): MOD_EN goes low; a running module begins the ordered shutdown, cause 0. -/
def execModEnFall (s : State) : Out :=
  let s1 := s.set Fd.PWR_STATUS_MOD_EN 0
  .next (if s.pwr.rails then beginShutdown 0 s1 else s1)

/-- First phase ID, phase count and needed phases of each rail, in rail order (R68). -/
def railPhases (r : Nat) : Nat × Nat × Nat :=
  [(0, 5, 4), (5, 13, 12), (18, 4, 3), (22, 4, 3), (26, 3, 2), (29, 2, 1), (31, 3, 2), (34, 2, 1), (36, 2, 1),
    (38, 2, 1)].getD r (0, 0, 0)

/-- The rail of a phase ID (R68). -/
def railOf (id : Nat) : Nat := ((List.range 10).find? (fun r => id < (railPhases r).1 + (railPhases r).2.1)).getD 9

/-- Whether a phase is out of service. -/
def phaseFailed (s : State) (id : Nat) : Bool :=
  if id < 32 then s.onBit Fd.PWR_PHASE_FAIL_LO id else s.onBit Fd.PWR_PHASE_FAIL_HI (id - 32)

/-- Phases of a rail still in service. -/
def phasesLeft (s : State) (r : Nat) : Nat :=
  ((List.range (railPhases r).2.1).filter (fun i => !phaseFailed s ((railPhases r).1 + i))).length

/-- PHASE_FAIL (R69, R587): a phase is taken out of service; a rail left with fewer phases than it needs throttles the
Cykin clusters (VCORE on 11, to the level `level` that holds ICORE) or begins the ordered shutdown, cause 1. -/
def execPhaseFail (id : Fin 40) (level : Fin 8) (s : State) : Out :=
  if phaseFailed s id.val then .next s
  else
    let s1 := if id.val < 32 then s.setB Fd.PWR_PHASE_FAIL_LO id.val else s.setB Fd.PWR_PHASE_FAIL_HI (id.val - 32)
    let s2 := ageFault 0x1220 s.tRel.toNat ((s1.set Fd.PWR_FAULT_PHASE_FAIL 1).raise 0x1220 [.w4 id.val])
    let r := railOf id.val
    let left := phasesLeft s2 r
    if (railPhases r).2.2 ≤ left then .next s2
    else
      let s3 := (s2.set Fd.PWR_FAULT_RAIL_SHORTFALL 1).raise 0x1221 [.w4 r, .w4 left]
      if r = 1 ∧ left = 11 then
        let s4 := s3.set Fd.PWR_STATUS_CAP_REDUCED 1
        .next (throttleTo { s4 with pwr := { s4.pwr with coreLevel := level.val } })
      else .next (beginShutdown 1 s3)

/-- SENSE_CHECK (R72): the continuity check finds a sense contact open, or both continuous again. -/
def execSenseCheck (vinOpen rtnOpen : Bool) (s : State) : Out :=
  if vinOpen || rtnOpen then
    .next ((((s.set Fd.PWR_FAULT_SNS_OPEN 1).set Fd.PWR_STATUS_SNS_LOCAL 1).raiseIf vinOpen 0x1230 [.w4 0]).raiseIf
      rtnOpen 0x1230 [.w4 1])
  else if s.on Fd.PWR_STATUS_SNS_LOCAL then .next ((s.set Fd.PWR_STATUS_SNS_LOCAL 0).raise 0x1231)
  else .next s

/-- RAIL_LEAVES_REGULATION (R66): PGOOD is pulled low. -/
def execRailLeavesRegulation (_rail : Fin 10) (s : State) : Out := .next (s.set Fd.PWR_STATUS_PGOOD 0)

end Sys2Proof.Machine
end

