-- ==== Sys2Proof/Machine/Dispatch.lean ====
section
/-! DEFINITION. The dispatch: one arm for each command, each one direct call of its meaning. -/

namespace Sys2Proof.Machine

/-- What a command does to everything but the queue. -/
def exec (i : Instr) (s : State) : Host.Outcome State Fault Refusal :=
  match i with
  | .registerWrite off data => Sys2Proof.Machine.execRegisterWrite off data s
  | .lowWordRead off => Sys2Proof.Machine.execLowWordRead off s
  | .lowWordWrite off value => Sys2Proof.Machine.execLowWordWrite off value s
  | .highWordWrite off value => Sys2Proof.Machine.execHighWordWrite off value s
  | .clampClear => Sys2Proof.Machine.execClampClear s
  | .cntClear unit => Sys2Proof.Machine.execCntClear unit s
  | .satClear unit => Sys2Proof.Machine.execSatClear unit s
  | .unitQuiescent unit => Sys2Proof.Machine.execUnitQuiescent unit s
  | .epochArm => Sys2Proof.Machine.execEpochArm s
  | .epochStop => Sys2Proof.Machine.execEpochStop s
  | .epochBroadcast => Sys2Proof.Machine.execEpochBroadcast s
  | .sysrefCapture => Sys2Proof.Machine.execSysrefCapture s
  | .epochApplied => Sys2Proof.Machine.execEpochApplied s
  | .fabricEpochMessage epoch hops elapsed => Sys2Proof.Machine.execFabricEpochMessage epoch hops elapsed s
  | .periodicSysrefLost => Sys2Proof.Machine.execPeriodicSysrefLost s
  | .decisionPoint => Sys2Proof.Machine.execDecisionPoint s
  | .landing diff => Sys2Proof.Machine.execLanding diff s
  | .holdWrite hold => Sys2Proof.Machine.execHoldWrite hold s
  | .streamTimeStopped => Sys2Proof.Machine.execStreamTimeStopped s
  | .vinAccepted => Sys2Proof.Machine.execVinAccepted s
  | .vinLow => Sys2Proof.Machine.execVinLow s
  | .vinPowerLoss => Sys2Proof.Machine.execVinPowerLoss s
  | .vinOvervoltage => Sys2Proof.Machine.execVinOvervoltage s
  | .vinBelow61V ms => Sys2Proof.Machine.execVinBelow61V ms s
  | .ovShutdown => Sys2Proof.Machine.execOvShutdown s
  | .ovDisconnect => Sys2Proof.Machine.execOvDisconnect s
  | .ovAccumClear => Sys2Proof.Machine.execOvAccumClear s
  | .modEnRise lowMs => Sys2Proof.Machine.execModEnRise lowMs s
  | .modEnFall => Sys2Proof.Machine.execModEnFall s
  | .phaseFail id level => Sys2Proof.Machine.execPhaseFail id level s
  | .senseCheck vinOpen rtnOpen => Sys2Proof.Machine.execSenseCheck vinOpen rtnOpen s
  | .pinTrip pin => Sys2Proof.Machine.execPinTrip pin s
  | .pinRetry pin => Sys2Proof.Machine.execPinRetry pin s
  | .pinHeld pin => Sys2Proof.Machine.execPinHeld pin s
  | .pinShortClear pat data => Sys2Proof.Machine.execPinShortClear pat data s
  | .hkTimerScan hold => Sys2Proof.Machine.execHkTimerScan hold s
  | .hkPwmConversion slot => Sys2Proof.Machine.execHkPwmConversion slot s
  | .hkConversionEnd code hold => Sys2Proof.Machine.execHkConversionEnd code hold s
  | .hkRefReady => Sys2Proof.Machine.execHkRefReady s
  | .countClear => Sys2Proof.Machine.execCountClear s
  | .ingEnable => Sys2Proof.Machine.execIngEnable s
  | .sysrefPolarityDecision high => Sys2Proof.Machine.execSysrefPolarityDecision high s
  | .ingDisable => Sys2Proof.Machine.execIngDisable s
  | .srScan => Sys2Proof.Machine.execSrScan s
  | .srScanEnd change => Sys2Proof.Machine.execSrScanEnd change s
  | .srPhaseStep => Sys2Proof.Machine.execSrPhaseStep s
  | .laneSyncHeaderLock lane => Sys2Proof.Machine.execLaneSyncHeaderLock lane s
  | .lanePilotFound lane inverted arrival => Sys2Proof.Machine.execLanePilotFound lane inverted arrival s
  | .laneJoin lane arrival => Sys2Proof.Machine.execLaneJoin lane arrival s
  | .laneFault lanes => Sys2Proof.Machine.execLaneFault lanes s
  | .laneFaultRecovery lane => Sys2Proof.Machine.execLaneFaultRecovery lane s
  | .autoRbd => Sys2Proof.Machine.execAutoRbd s
  | .autoRbdTimeout => Sys2Proof.Machine.execAutoRbdTimeout s
  | .multiblock lane index flagged => Sys2Proof.Machine.execMultiblock lane index flagged s
  | .channelAlignFail ch => Sys2Proof.Machine.execChannelAlignFail ch s
  | .errClear => Sys2Proof.Machine.execErrClear s
  | .bar2Access off write n => Sys2Proof.Machine.execBar2Access off write n s
  | .asyReq chans => Sys2Proof.Machine.execAsyReq chans s
  | .asyAbort => Sys2Proof.Machine.execAsyAbort s
  | .estimationIteration eyes => Sys2Proof.Machine.execEstimationIteration eyes s
  | .asyFlashRecordWrite => Sys2Proof.Machine.execAsyFlashRecordWrite s
  | .spxFrame ch => Sys2Proof.Machine.execSpxFrame ch s
  | .tctrlClear ch tr => Sys2Proof.Machine.execTctrlClear ch tr s
  | .uwinData data => Sys2Proof.Machine.execUwinData data s
  | .triggerUnitStep tu t => Sys2Proof.Machine.execTriggerUnitStep tu t s
  | .trigInEdge pin level ph => Sys2Proof.Machine.execTrigInEdge pin level ph s
  | .fabricTriggerMessage line t flags => Sys2Proof.Machine.execFabricTriggerMessage line t flags s
  | .cykTimeout tu => Sys2Proof.Machine.execCykTimeout tu s
  | .force tu => Sys2Proof.Machine.execForce tu s
  | .arm tu => Sys2Proof.Machine.execArm tu s
  | .trigOutEdge pin => Sys2Proof.Machine.execTrigOutEdge pin s
  | .maskData data => Sys2Proof.Machine.execMaskData data s
  | .hoopArm writer => Sys2Proof.Machine.execHoopArm writer s
  | .elementCommit writer => Sys2Proof.Machine.execElementCommit writer s
  | .recordHeaderWrite writer => Sys2Proof.Machine.execRecordHeaderWrite writer s
  | .hoopGeometryWrite writer field value => Sys2Proof.Machine.execHoopGeometryWrite writer field value s
  | .densityPass ch => Sys2Proof.Machine.execDensityPass ch s
  | .snapshotCopyEnd ch => Sys2Proof.Machine.execSnapshotCopyEnd ch s
  | .denClear ch => Sys2Proof.Machine.execDenClear ch s
  | .galEnable => Sys2Proof.Machine.execGalEnable s
  | .galDisable => Sys2Proof.Machine.execGalDisable s
  | .latch => Sys2Proof.Machine.execLatch s
  | .frameRetire => Sys2Proof.Machine.execFrameRetire s
  | .lineStart line ready => Sys2Proof.Machine.execLineStart line ready s
  | .commit mask => Sys2Proof.Machine.execCommit mask s
  | .palData data => Sys2Proof.Machine.execPalData data s
  | .hpdConnect dpcd edid aux => Sys2Proof.Machine.execHpdConnect dpcd edid aux s
  | .hpdUnplug => Sys2Proof.Machine.execHpdUnplug s
  | .irqHpd lost => Sys2Proof.Machine.execIrqHpd lost s
  | .retrain => Sys2Proof.Machine.execRetrain s
  | .linkTrainingEnd sinkLanes sinkRate steps => Sys2Proof.Machine.execLinkTrainingEnd sinkLanes sinkRate steps s
  | .recordingClosed => Sys2Proof.Machine.execRecordingClosed s
  | .blockClose stream => Sys2Proof.Machine.execBlockClose stream s
  | .compressionEnd engine coded => Sys2Proof.Machine.execCompressionEnd engine coded s
  | .folioWriteEnd => Sys2Proof.Machine.execFolioWriteEnd s
  | .ckptFlush => Sys2Proof.Machine.execCkptFlush s
  | .playbackStart => Sys2Proof.Machine.execPlaybackStart s
  | .playbackEpoch => Sys2Proof.Machine.execPlaybackEpoch s
  | .playbackFolioRead ok => Sys2Proof.Machine.execPlaybackFolioRead ok s
  | .playbackEnd => Sys2Proof.Machine.execPlaybackEnd s
  | .playbackStopWrite => Sys2Proof.Machine.execPlaybackStopWrite s
  | .driveBringup port width speed nlba vwc reason => Sys2Proof.Machine.execDriveBringup port width speed nlba vwc reason s
  | .nvmeCompletion port opcode status => Sys2Proof.Machine.execNvmeCompletion port opcode status s
  | .nvmeTimeout port opcode => Sys2Proof.Machine.execNvmeTimeout port opcode s
  | .smartPoll port temp crit => Sys2Proof.Machine.execSmartPoll port temp crit s
  | .scrDisable => Sys2Proof.Machine.execScrDisable s
  | .start engine => Sys2Proof.Machine.execStart engine s
  | .armTrig engine => Sys2Proof.Machine.execArmTrig engine s
  | .stop engine => Sys2Proof.Machine.execStop engine s
  | .jump engine => Sys2Proof.Machine.execJump engine s
  | .passBoundary engine => Sys2Proof.Machine.execPassBoundary engine s
  | .weaverUnderrun engine => Sys2Proof.Machine.execWeaverUnderrun engine s
  | .underrunResync engine => Sys2Proof.Machine.execUnderrunResync engine s
  | .weaverEnable openLanes => Sys2Proof.Machine.execWeaverEnable openLanes s
  | .linkStart => Sys2Proof.Machine.execLinkStart s
  | .weaverDisable => Sys2Proof.Machine.execWeaverDisable s
  | .linkStop => Sys2Proof.Machine.execLinkStop s
  | .seqData data => Sys2Proof.Machine.execSeqData data s
  | .talliedEdge input rising code => Sys2Proof.Machine.execTalliedEdge input rising code s
  | .gateEdge input rising code => Sys2Proof.Machine.execGateEdge input rising code s
  | .fmArm unit => Sys2Proof.Machine.execFmArm unit s
  | .fmStop unit => Sys2Proof.Machine.execFmStop unit s
  | .tcalReq counts => Sys2Proof.Machine.execTcalReq counts s
  | .tcalPeriod counts => Sys2Proof.Machine.execTcalPeriod counts s
  | .halt core => Sys2Proof.Machine.execHalt core s
  | .nop core => Sys2Proof.Machine.execNop core s
  | .trap core => Sys2Proof.Machine.execTrap core s
  | .reti core => Sys2Proof.Machine.execReti core s
  | .di core => Sys2Proof.Machine.execDi core s
  | .ei core => Sys2Proof.Machine.execEi core s
  | .br core => Sys2Proof.Machine.execBr core s
  | .call core => Sys2Proof.Machine.execCall core s
  | .bz core => Sys2Proof.Machine.execBz core s
  | .bnz core => Sys2Proof.Machine.execBnz core s
  | .bltz core => Sys2Proof.Machine.execBltz core s
  | .loop core => Sys2Proof.Machine.execLoop core s
  | .loopr core => Sys2Proof.Machine.execLoopr core s
  | .jr core => Sys2Proof.Machine.execJr core s
  | .mvi core => Sys2Proof.Machine.execMvi core s
  | .mvih core => Sys2Proof.Machine.execMvih core s
  | .addi core => Sys2Proof.Machine.execAddi core s
  | .aluaAdd core => Sys2Proof.Machine.execAluaAdd core s
  | .aluaSub core => Sys2Proof.Machine.execAluaSub core s
  | .aluaAnd core => Sys2Proof.Machine.execAluaAnd core s
  | .aluaOr core => Sys2Proof.Machine.execAluaOr core s
  | .aluaXor core => Sys2Proof.Machine.execAluaXor core s
  | .aluaSll core => Sys2Proof.Machine.execAluaSll core s
  | .aluaSrl core => Sys2Proof.Machine.execAluaSrl core s
  | .aluaSra core => Sys2Proof.Machine.execAluaSra core s
  | .mvts core => Sys2Proof.Machine.execMvts core s
  | .mvfs core => Sys2Proof.Machine.execMvfs core s
  | .mvda core => Sys2Proof.Machine.execMvda core s
  | .mvad core => Sys2Proof.Machine.execMvad core s
  | .ld core => Sys2Proof.Machine.execLd core s
  | .ldr core => Sys2Proof.Machine.execLdr core s
  | .st core => Sys2Proof.Machine.execSt core s
  | .lda core => Sys2Proof.Machine.execLda core s
  | .sta core => Sys2Proof.Machine.execSta core s
  | .farLoadReturn core => Sys2Proof.Machine.execFarLoadReturn core s
  | .cyc core => Sys2Proof.Machine.execCyc core s
  | .vopAdd core => Sys2Proof.Machine.execVopAdd core s
  | .vopSub core => Sys2Proof.Machine.execVopSub core s
  | .vopAdds core => Sys2Proof.Machine.execVopAdds core s
  | .vopSubs core => Sys2Proof.Machine.execVopSubs core s
  | .vopSra core => Sys2Proof.Machine.execVopSra core s
  | .vopConj core => Sys2Proof.Machine.execVopConj core s
  | .vopCmuls core => Sys2Proof.Machine.execVopCmuls core s
  | .vopMov core => Sys2Proof.Machine.execVopMov core s
  | .vopSwap core => Sys2Proof.Machine.execVopSwap core s
  | .ldac core => Sys2Proof.Machine.execLdac core s
  | .mac core => Sys2Proof.Machine.execMac core s
  | .clr core => Sys2Proof.Machine.execClr core s
  | .ftap core => Sys2Proof.Machine.execFtap core s
  | .mv core => Sys2Proof.Machine.execMv core s
  | .satmv core => Sys2Proof.Machine.execSatmv core s
  | .pop core => Sys2Proof.Machine.execPop core s
  | .free core => Sys2Proof.Machine.execFree core s
  | .post core => Sys2Proof.Machine.execPost core s
  | .tpost core => Sys2Proof.Machine.execTpost core s
  | .unassignedEncoding core => Sys2Proof.Machine.execUnassignedEncoding core s
  | .interruptEntry core => Sys2Proof.Machine.execInterruptEntry core s
  | .itemDelivery feed => Sys2Proof.Machine.execItemDelivery feed s
  | .coreRun core run => Sys2Proof.Machine.execCoreRun core run s
  | .coreReset core => Sys2Proof.Machine.execCoreReset core s
  | .doorbell core => Sys2Proof.Machine.execDoorbell core s
  | .olossClr core => Sys2Proof.Machine.execOlossClr core s
  | .doorbellPoll stores failed => Sys2Proof.Machine.execDoorbellPoll stores failed s
  | .cmdNop => Sys2Proof.Machine.execCmdNop s
  | .regWrite => Sys2Proof.Machine.execRegWrite s
  | .regRead => Sys2Proof.Machine.execRegRead s
  | .overlayApply => Sys2Proof.Machine.execOverlayApply s
  | .time => Sys2Proof.Machine.execTime s
  | .ptrXfer => Sys2Proof.Machine.execPtrXfer s
  | .ptrFence => Sys2Proof.Machine.execPtrFence s
  | .badOpcode => Sys2Proof.Machine.execBadOpcode s
  | .remoteCommand port node rseq cmd => Sys2Proof.Machine.execRemoteCommand port node rseq cmd s
  | .hifEnable => Sys2Proof.Machine.execHifEnable s
  | .hifDisable => Sys2Proof.Machine.execHifDisable s
  | .descriptorComplete ch failed => Sys2Proof.Machine.execDescriptorComplete ch failed s
  | .fenceComplete ch => Sys2Proof.Machine.execFenceComplete ch s
  | .porterDisable ch => Sys2Proof.Machine.execPorterDisable ch s
  | .porterAbort ch beats => Sys2Proof.Machine.execPorterAbort ch beats s
  | .hostLinkLost cause => Sys2Proof.Machine.execHostLinkLost cause s
  | .hostLinkUp width speed => Sys2Proof.Machine.execHostLinkUp width speed s
  | .memoryRequest port addr write found => Sys2Proof.Machine.execMemoryRequest port addr write found s
  | .refresh j queued => Sys2Proof.Machine.execRefresh j queued s
  | .stackTempRead stack temp => Sys2Proof.Machine.execStackTempRead stack temp s
  | .retrainingPass below => Sys2Proof.Machine.execRetrainingPass below s
  | .hotWindow counts ports => Sys2Proof.Machine.execHotWindow counts ports s
  | .selfRefreshEntry => Sys2Proof.Machine.execSelfRefreshEntry s
  | .selfRefreshExit ns ms => Sys2Proof.Machine.execSelfRefreshExit ns ms s
  | .srReq req => Sys2Proof.Machine.execSrReq req s
  | .scrubPass => Sys2Proof.Machine.execScrubPass s
  | .portTrained port inverted => Sys2Proof.Machine.execPortTrained port inverted s
  | .laneLockTimeout port => Sys2Proof.Machine.execLaneLockTimeout port s
  | .portCalibrated port roundTrip => Sys2Proof.Machine.execPortCalibrated port roundTrip s
  | .portFailed port reason => Sys2Proof.Machine.execPortFailed port reason s
  | .portFailedRetry port => Sys2Proof.Machine.execPortFailedRetry port s
  | .portRetrain port => Sys2Proof.Machine.execPortRetrain port s
  | .helloSend port => Sys2Proof.Machine.execHelloSend port s
  | .helloReceive port serial id nbrPort low dist => Sys2Proof.Machine.execHelloReceive port serial id nbrPort low dist s
  | .linkStateRecord port serial id ver links => Sys2Proof.Machine.execLinkStateRecord port serial id ver links s
  | .idAssignment received reqs => Sys2Proof.Machine.execIdAssignment received reqs s
  | .idRelease id => Sys2Proof.Machine.execIdRelease id s
  | .routingInstall => Sys2Proof.Machine.execRoutingInstall s
  | .routeData => Sys2Proof.Machine.execRouteData s
  | .pMessage port good epoch hops origin line flags t lseq elapsed => Sys2Proof.Machine.execPMessage port good epoch hops origin line flags t lseq elapsed s
  | .cCopy port epoch origin line flags t lseq => Sys2Proof.Machine.execCCopy port epoch origin line flags t lseq s
  | .remoteDoorbellPoll stores failed => Sys2Proof.Machine.execRemoteDoorbellPoll stores failed s
  | .rctrlEnable => Sys2Proof.Machine.execRctrlEnable s
  | .remoteCompletion rseq rstat result cid status clamped tdec => Sys2Proof.Machine.execRemoteCompletion rseq rstat result cid status clamped tdec s
  | .remoteTimeout rseq => Sys2Proof.Machine.execRemoteTimeout rseq s
  | .exportElement xp room => Sys2Proof.Machine.execExportElement xp room s
  | .receiveElement ring xp kind flags loss short origin xseq tFirst tLast bhz payload => Sys2Proof.Machine.execReceiveElement ring xp kind flags loss short origin xseq tFirst tLast bhz payload s
  | .byoDisable => Sys2Proof.Machine.execByoDisable s
  | .ocxoReady => Sys2Proof.Machine.execOcxoReady s
  | .ocxoLost => Sys2Proof.Machine.execOcxoLost s
  | .refWindow amp hz => Sys2Proof.Machine.execRefWindow amp hz s
  | .sourceMove => Sys2Proof.Machine.execSourceMove s
  | .tread domain => Sys2Proof.Machine.execTread domain s
  | .pllRelock us => Sys2Proof.Machine.execPllRelock us s
  | .pllLoss pll present => Sys2Proof.Machine.execPllLoss pll present s
  | .pllLock pll us => Sys2Proof.Machine.execPllLock pll us s
  | .holdLimit pll => Sys2Proof.Machine.execHoldLimit pll s
  | .pllPhaseStep pll => Sys2Proof.Machine.execPllPhaseStep pll s
  | .gateRequest d => Sys2Proof.Machine.execGateRequest d s
  | .idleAck d => Sys2Proof.Machine.execIdleAck d s
  | .gateTimeout d => Sys2Proof.Machine.execGateTimeout d s
  | .ungate d => Sys2Proof.Machine.execUngate d s
  | .freqMeasure khz => Sys2Proof.Machine.execFreqMeasure khz s
  | .startUpPhase railsOk fw0 fw1 => Sys2Proof.Machine.execStartUpPhase railsOk fw0 fw1 s
  | .perstDeassert => Sys2Proof.Machine.execPerstDeassert s
  | .mreset ns => Sys2Proof.Machine.execMreset ns s
  | .engineReset => Sys2Proof.Machine.execEngineReset s
  | .moduleReset => Sys2Proof.Machine.execModuleReset s
  | .resetComplete timeout => Sys2Proof.Machine.execResetComplete timeout s
  | .progStart => Sys2Proof.Machine.execProgStart s
  | .programmingComplete flashOk fwValid => Sys2Proof.Machine.execProgrammingComplete flashOk fwValid s
  | .standbyEnter => Sys2Proof.Machine.execStandbyEnter s
  | .standbyLeave => Sys2Proof.Machine.execStandbyLeave s
  | .monitorSample values => Sys2Proof.Machine.execMonitorSample values s
  | .ledgerPeriodic => Sys2Proof.Machine.execLedgerPeriodic s
  | .replan plan => Sys2Proof.Machine.execReplan plan s
  | .replanPeriod plan => Sys2Proof.Machine.execReplanPeriod plan s
  | .retest plan => Sys2Proof.Machine.execRetest plan s
  | .thermalCheck tdie => Sys2Proof.Machine.execThermalCheck tdie s
  | .shutdown => Sys2Proof.Machine.execShutdown s
  | .orderedShutdown => Sys2Proof.Machine.execOrderedShutdown s
  | .shdnTimeout => Sys2Proof.Machine.execShdnTimeout s
  | .frontEndFault pipe need => Sys2Proof.Machine.execFrontEndFault pipe need s
  | .catchUpEnd ch => Sys2Proof.Machine.execCatchUpEnd ch s
  | .beatRelease beat => Sys2Proof.Machine.execBeatRelease beat s
  | .laneLockLost lane => Sys2Proof.Machine.execLaneLockLost lane s
  | .passWalkEnd ch => Sys2Proof.Machine.execPassWalkEnd ch s
  | .epochMessageSend => Sys2Proof.Machine.execEpochMessageSend s
  | .railLeavesRegulation rail => Sys2Proof.Machine.execRailLeavesRegulation rail s
  | .firstPassStart engine => Sys2Proof.Machine.execFirstPassStart engine s

end Sys2Proof.Machine
end

