-- ==== Sys2Proof/Safety.lean ====
section
/-! DEFINITION. What statements mean by a sound state, by a command that completes, and by what it leaves alone. -/

namespace Sys2Proof.Safety

open Sys2Proof.Machine

/-- Memory, flash and the register map are in canonical form: equal contents are equal data. -/
def Canonical (s : State) : Prop :=
  Memory.wf s.mem = true ∧ Memory.wf s.flash = true ∧ Assoc.wf RegMap.resetWord s.regs = true

/-- A command completes: `exec` answers a next state, and that state has a property. -/
def Does (c : Instr) (s : State) (p : State → Prop) : Prop := ∃ t, exec c s = .next t ∧ p t

/-- The parts of the state beside the register map and device memory. -/
inductive Part where
  | sys | ing | dsp | asy | spx | trg | pwr | hk | flash | cfg | age | hoop | den | gal | scr | wvr | tly | cyk | clk
  | hbm | hif | ptr | byo | shadows | past
deriving DecidableEq, Repr

/-- A part of the state is the same. -/
def SamePart (s t : State) : Part → Prop
  | .sys => t.sys = s.sys
  | .ing => t.ing = s.ing
  | .dsp => t.dsp = s.dsp
  | .asy => t.asy = s.asy
  | .spx => t.spx = s.spx
  | .trg => t.trg = s.trg
  | .pwr => t.pwr = s.pwr
  | .hk => t.hk = s.hk
  | .flash => t.flash = s.flash
  | .cfg => t.cfg = s.cfg
  | .age => t.age = s.age
  | .hoop => t.hoop = s.hoop
  | .den => t.den = s.den
  | .gal => t.gal = s.gal
  | .scr => t.scr = s.scr
  | .wvr => t.wvr = s.wvr
  | .tly => t.tly = s.tly
  | .cyk => t.cyk = s.cyk
  | .clk => t.clk = s.clk
  | .hbm => t.hbm = s.hbm
  | .hif => t.hif = s.hif
  | .ptr => t.ptr = s.ptr
  | .byo => t.byo = s.byo
  | .shadows => t.rsh = s.rsh ∧ t.wsh = s.wsh
  | .past => t.past = s.past

/-- Every register field that shares no bit with the listed ones reads as before. -/
def SameRegs (fs : List Fld) (s t : State) : Prop := ∀ g : Fld, (∀ f ∈ fs, f.apart g = true) → t.get g = s.get g

/-- Every byte of device memory reads as before. -/
def SameMem (s t : State) : Prop := ∀ a, Memory.byte t.mem a = Memory.byte s.mem a

/-- Every byte of device memory outside the n bytes from a reads as before. -/
def SameMemBut (a n : Nat) (s t : State) : Prop :=
  ∀ b, b < a ∨ a + n ≤ b → Memory.byte t.mem b = Memory.byte s.mem b

/-- The n bytes from a hold these bytes. -/
def Holds (t : State) (a : Nat) (bs : List Byte) : Prop := ∀ i : Fin bs.length, Memory.byte t.mem (a + i.val) = bs[i]

/-- Events with the sequence numbers from n on (R457). -/
def numbered : Nat → List (Nat × List EvItem) → List Event
  | _, [] => []
  | n, e :: es => ⟨e.1, n, e.2⟩ :: numbered (n + 1) es

/-- Exactly these events are raised, in this order: each takes the next ESEQ, and they join the events that wait for the
event ring if the host interface is enabled; else they are lost (R457; log 11). -/
def Raises (evs : List (Nat × List EvItem)) (s t : State) : Prop :=
  t.eseq = s.eseq + evs.length ∧ t.evq = s.evq ++ (if s.on Fd.HIF_CTRL_EN then numbered s.eseq evs else [])

/-- What a command leaves alone: every field apart from the listed ones (and HIF.EVT_LOST where it raises events), every
byte of memory, the commands that wait, and every part of the state but the listed ones; and it raises exactly these
events. -/
def Frame (fs : List Fld) (parts : List Part) (evs : List (Nat × List EvItem)) (s t : State) : Prop :=
  SameRegs (if evs.isEmpty then fs else Fd.HIF_EVT_LOST :: fs) s t ∧ SameMem s t ∧ t.pending = s.pending ∧
    (∀ u, u ∉ parts → (evs.isEmpty = false → u ≠ .hif) → SamePart s t u) ∧ Raises evs s t

/-- What a command that stores leaves alone: as `Frame`, but for the n bytes of memory from a. -/
def StoreFrame (a n : Nat) (fs : List Fld) (parts : List Part) (evs : List (Nat × List EvItem)) (s t : State) : Prop :=
  SameRegs (if evs.isEmpty then fs else Fd.HIF_EVT_LOST :: fs) s t ∧ SameMemBut a n s t ∧ t.pending = s.pending ∧
    (∀ u, u ∉ parts → (evs.isEmpty = false → u ≠ .hif) → SamePart s t u) ∧ Raises evs s t

/-- The register offset and bit of the action that a command asks for at the next landing, for the five commands that do
so and are not void (R41, R43): FORCE, ARM, HOOP_ARM, DEN_CLEAR and TCTRL_CLEAR. -/
def actionOf (s : State) : Instr → Option (Nat × Nat)
  | .tctrlClear ch tr => some (0x60100 + 0x400 * ch.val + 0x40 * tr.val, 16)
  | .force tu => some (0x71000 + 0x40 * tu.val, 9)
  | .arm tu => if s.on (Fd.TU_CTRL_ARMMODE tu.val) || (s.tu tu.val).st == .armed then none
      else some (0x71000 + 0x40 * tu.val, 8)
  | .hoopArm w => some (0x81000 + 0x100 * w.val, 9)
  | .denClear ch => some (0x90000 + 0x100 * ch.val, 1)
  | _ => none

/-- Core n is about to issue an instruction: it is RUNNING, no far load stalls it, nothing stops or interrupts it, the word
at PC decodes to the instruction, which stands in no delay slot and at no loop end; c is the core as it stands at that
issue (R407 to R410, R419). -/
def Issues (n : Nat) (i : CykInstr) (c : CoreSt) (s : State) : Prop :=
  coreState s n = 2 ∧ (s.core n).far = none ∧ (s.core n).stopping = false ∧ (s.core n).slot = false ∧
    irqDue (s.core n) = false ∧ decodeCyk (imWord s n (s.get (Fd.COR_PC n))) = some i ∧
    c = (if (s.core n).cycle ≤ 1 then s.core n else (s.core n).settle ((s.core n).cycle - 2)) ∧
    (c.atD.len && s.get (Fd.COR_PC n) == c.le) = false

/-- A core that no longer stands in a delay slot. -/
def noSlot (c : CoreSt) : CoreSt := { c with slot := false, target := none }

/-- A core in the delay slot of a transfer, taken or not. -/
def inSlot (c : CoreSt) (target : Option Nat) : CoreSt := { c with slot := true, target := target }

/-- The registers that an issue changes: PC, STATE and CYC. -/
def issueRegs (n : Nat) : List Fld := [Fd.COR_PC n, Fd.COR_STATUS_STATE n, Fd.COR_CYC_LO n, Fd.COR_CYC_HI n]

/-- What an issue leaves of core n: `base` with its writes in flight, each by the cycle at whose end it is made, k issue
cycles on, PC at an address, every other core as before. -/
def Retires (n : Nat) (base : CoreSt) (ops : List (Nat × CoreWrite)) (k pc : Nat) (s t : State) : Prop :=
  t.core n = { ops.foldl (fun c o => c.push o.1 o.2) base with cycle := base.cycle + k } ∧
    t.get (Fd.COR_PC n) = pc % 16384 ∧ coreState t n = 2 ∧ t.rd64 (0x1800060 + 0x100 * n) = (base.cycle + k) % 2 ^ 64 ∧
    (∀ m, m ≠ n → t.core m = s.core m)

/-- An instruction of core n issues in one cycle, changes nothing but its core, PC and the cycle count, and goes on at the
next address. -/
def IssuesTo (c : Instr) (n : Nat) (base : CoreSt) (ops : List (Nat × CoreWrite)) (s : State) : Prop :=
  Does c s (fun t => Retires n base ops 1 (s.get (Fd.COR_PC n) + 1) s t ∧ Frame (issueRegs n) [.cyk] [] s t)

/-- The host address of the next completion entry. -/
def cplAt (s : State) : Nat := hostAddr (s.rd64 0xE0020 + 16 * s.get Fd.HIF_CPL_TAIL)

/-- The tail of the completion ring after one more entry. -/
def cplNext (s : State) : Nat := (s.get Fd.HIF_CPL_TAIL + 1) % max 1 (s.get Fd.HIF_CPL_SIZE)

/-- The host interface runs, no completion waits, and the completion ring has room (R456). -/
def RingRoom (s : State) : Prop :=
  s.on Fd.HIF_CTRL_EN = true ∧ s.hif.due = [] ∧
    (s.get Fd.HIF_CPL_TAIL + 1) % s.get Fd.HIF_CPL_SIZE ≠ s.hif.cplHead

/-- A completion entry is written at the tail of the ring (R456): RESULT, CID, STATUS, the phase and flags, the command head,
and SRC (0xFFFF but for Porter). -/
def Completes (head result cid status src : Nat) (clamped : Bool) (s t : State) : Prop :=
  Holds t (cplAt s) (le 8 result ++ le 2 cid ++ le 1 status ++
    le 1 (b2n s.hif.cplPhase + 2 * b2n clamped + 4 * b2n (src != 0xFFFF)) ++ le 2 head ++ le 2 src) ∧
  t.get Fd.HIF_CPL_TAIL = cplNext s % 65536 ∧ t.hif.cplPhase = (s.hif.cplPhase != (cplNext s == 0))

/-- The command head after one more command. -/
def cmdNext (s : State) : Nat := (s.get Fd.HIF_CMD_HEAD + 1) % max 1 (s.get Fd.HIF_CMD_SIZE) % 65536

/-- The decoder is about to decode a command of the local ring, with others fetched behind it (R455, R462). -/
def Decodes (cmd : List Byte) (more : List (List Byte)) (s : State) : Prop :=
  RingRoom s ∧ s.hif.fetched = cmd :: more ∧ more ≠ [] ∧ s.hif.remote = []

/-- A command of the local ring has left its queue, and the command head has moved on. -/
def Decoded (more : List (List Byte)) (s t : State) : Prop :=
  t.hif.fetched = more ∧ t.hif.lastLocal = true ∧ t.get Fd.HIF_CMD_HEAD = cmdNext s

/-- The fields that show a channel's queue. -/
def chStatus (ch : Nat) : List Fld :=
  [Fd.CH_STATUS_STATE ch, Fd.CH_STATUS_QDEPTH ch, Fd.CH_STATUS_CID ch, Fd.CH_STATUS_QUIESCENT ch, Fd.PTR_STATUS_QUIESCENT]

/-- The counters that a unit's CNT_CLEAR register clears. -/
def countersOf : CountUnit → List Fld
  | .clk => Fd.CLK_GATED_ACC :: (List.range 4).map Fd.PLL_HOLDS
  | .trg => Fd.TRG_LOST :: ((List.range 8).flatMap (fun n => [Fd.TU_FIRES n, Fd.TU_IGNORED n, Fd.TU_FORCE_LOST n]) ++
      (List.range 4).flatMap (fun k => [Fd.TOUT_STATUS_JOINED k, Fd.TOUT_STATUS_LATE k]))
  | .hoop => (List.range 8).flatMap (fun n => [Fd.HW_RECORDS n, Fd.HW_IGNORED n, Fd.HW_LATE n])
  | .gal => [Fd.GAL_UNDERRUNS]
  | .scr => [Fd.SCR_GAPS, Fd.SCR_VFAIL, Fd.SCR_PB_MISSING, Fd.SCR_PB_STALLS] ++ (List.range 15).map Fd.SS_DROPPED
  | .wvr => (List.range 2).flatMap (fun e => [Fd.ENG_UNDERRUNS e, Fd.ENG_IGNORED e, Fd.ENG_LATE e])
  | .tly => (List.range 9).flatMap (fun k => [Fd.EV_LOST k, Fd.EV_OVERRUN k])
  | .cyk => Fd.CYK_TPDISC :: ((List.range 128).flatMap (fun n => [Fd.COR_ILOST n, Fd.COR_OLOST n]) ++
      (List.range 16).map Fd.FD_LOST)
  | .hif => [Fd.HIF_FETCH_ERR, Fd.HIF_EVT_LOST, Fd.HIF_FWD_REFUSED, Fd.HIF_CPL_STALLS]
  | .ptr => (List.range 32).flatMap (fun n => [⟨0xF0108 + 0x20 * n, 0, 32⟩, ⟨0xF010C + 0x20 * n, 0, 32⟩])
  | .hbm => Fd.HBM_ADDR_ERR :: ((List.range 4).flatMap (fun k => [Fd.HBM_CE_COUNT k, Fd.HBM_UE_COUNT k]) ++
      (List.range 10).map Fd.HBMP_BYTES)
  | .byo => [Fd.BYO_PLOST, Fd.BYO_LGAPS, Fd.BYO_RTIMEOUTS] ++ (List.range 8).flatMap (fun p =>
      [Fd.BPORT_FEC_CE p, Fd.BPORT_FEC_UE p, Fd.BPORT_RETRY p, Fd.XP_LOST p, Fd.RX_LOST p, Fd.RX_REJECTED p, Fd.RX_LATE p])
  | .cfg => [Fd.CFG_OV_DISC]
  | .age => Fd.AGE_FAULTS :: (List.range 5).map Fd.PTB_COUNT

/-- The saturation counters that a unit's SAT_CLEAR register clears. -/
def satCountersOf : SatUnit → List Fld
  | .asy => (List.range 4).map Fd.ASY_SAT
  | .zb => (List.range 4).map Fd.DDC_SAT ++ (List.range 64).map Fd.ZC_SAT
  | .spx => (List.range 4).map Fd.SPX_SAT
  | .den => (List.range 4).map Fd.DEN_SAT

end Sys2Proof.Safety
end

