-- ==== Sys2Proof/Certificates/Slice0/Obligations.lean ====
section
/-! DEFINITION. The statements for the provers, from the numbered rules of the manual: what each command does in the states
that hypotheses on state and operands alone describe, and what it leaves alone. -/

open Sys2Proof Sys2Proof.Machine Sys2Proof.Safety

/-- Step of a state whose queue has command c at its front is exec of c on the state with the queue's rest; with an
empty queue step answers the same state. The queue and the idle step are the model's own (log 2). -/
def Obligations.StepRunsTheFrontCommand : Prop :=
  (∀ (c : Instr) (rest : List Instr) (s : State), s.pending = c :: rest → step s = exec c { s with pending := rest }) ∧
  (∀ s : State, s.pending = [] → step s = .next s)

/-- After reset every register reads its reset word of chapter 23, among them SYS.LANDING_CFG.K = 16, SYS.STU_EXTEND = 65536,
COR.OSLOTS = 1024 and CLK.SRC = 0x11; stream time does not run; no command waits; memory, flash and the register map are in
canonical form. -/
def Obligations.ResetLeavesTheRegisterMapAtItsResetWords : Prop :=
  (∀ off : Nat, State.reset.rd off = (RegMap.resetWord off).toNat) ∧
  State.reset.get Fd.SYS_LANDING_CFG_K = 16 ∧ State.reset.get Fd.SYS_STU_EXTEND = 65536 ∧
  State.reset.get (Fd.COR_OSLOTS 127) = 1024 ∧ State.reset.rd 0x10000 = 0x11 ∧ State.reset.run = false ∧
  State.reset.pending = [] ∧ Canonical State.reset

/-- From PHASE 4 to 7: a one-byte write at byte k of SYS.STU_EXTEND writes the byte at its place and zeros beside it; the low
word of SYS.EPOCH goes to the pair's write shadow and changes no register; the high word commits the pair; a write of
SYS.CLAMP_CLEAR clears SYS.CLAMP_COUNT. Each changes nothing else and raises no event. -/
def Obligations.RegisterWordsTakeWhatIsWritten : Prop :=
  ∀ s : State, 4 ≤ s.get Fd.CFG_STATUS_PHASE → s.get Fd.CFG_STATUS_PHASE ≤ 7 →
  (∀ (k : Fin 4) (b : Byte), Does (.registerWrite (BitVec.ofNat 26 (0x128 + k.val)) [b]) s (fun t =>
    t.rd 0x128 = b.toNat * 256 ^ k.val ∧ Frame [Fd.SYS_STU_EXTEND] [] [] s t)) ∧
  (∀ v : Word, Does (.lowWordWrite 0x108#26 v) s (fun t =>
    writeShadow t 0x108 = v.toNat ∧ Frame [] [.shadows] [] s t)) ∧
  (∀ v : Word, Does (.highWordWrite 0x10C#26 v) s (fun t =>
    t.rd64 0x108 = writeShadow s 0x108 + 2 ^ 32 * v.toNat ∧ Frame [Fd.SYS_EPOCH_LO, Fd.SYS_EPOCH_HI] [] [] s t)) ∧
  Does .clampClear s (fun t => t.get Fd.SYS_CLAMP_COUNT = 0 ∧ Frame [Fd.SYS_CLAMP_COUNT] [] [] s t)

/-- For every 64-bit pair of the register map that is not gated: a read of the low word returns it and latches the high word
as it then stands into the pair's one shadow, changing nothing else but what the host holds as read; a read of the high word
returns that shadow and changes nothing. -/
def Obligations.PairReadsGoThroughOneShadow : Prop :=
  (∀ (s : State) (off : BitVec 26) (d : RegDesc) (i j : Nat) (l : Legal), off.toNat % 4 = 0 →
    RegMap.find off.toNat = some (d, i, j) → d.pair = .low l → regsGated s off.toNat = false →
    Does (.lowWordRead off) s (fun t => t.hif.readData = le 4 (s.rd off.toNat) ∧
      Assoc.get 0#32 t.rsh (off.toNat + 4) = BitVec.ofNat 32 (s.rd (off.toNat + 4)) ∧
      (∀ k, k ≠ off.toNat + 4 → Assoc.get 0#32 t.rsh k = Assoc.get 0#32 s.rsh k) ∧
      Frame [] [.hif, .shadows] [] s t)) ∧
  (∀ (s : State) (off : Nat) (d : RegDesc) (i j : Nat), RegMap.find off = some (d, i, j) → d.pair = .high →
    regsGated s off = false → busRead off s = ((Assoc.get 0#32 s.rsh off).toNat, s))

/-- A write to a unit's CNT_CLEAR zeroes every counter the unit's register table names for it, and a write to its SAT_CLEAR its
saturation counters, where the unit's registers are not gated and PHASE does not discard the write; memory is unchanged. -/
def Obligations.CounterClearsZeroTheirCounters : Prop :=
  (∀ (s : State) (u : CountUnit), regsGated s (cntClearAt u) = false → phaseBlocks s (cntClearAt u) = false →
    Does (.cntClear u) s (fun t => (∀ f ∈ countersOf u, t.get f = 0) ∧ SameMem s t)) ∧
  (∀ (s : State) (u : SatUnit), regsGated s (satClearAt u) = false → phaseBlocks s (satClearAt u) = false →
    Does (.satClear u) s (fun t => (∀ f ∈ satCountersOf u, t.get f = 0) ∧ SameMem s t))

/-- UNIT_QUIESCENT sets the unit's QUIESCENT bit when the unit is idle: for every unit, on a state where the unit is disabled
and holds no accepted work, the bit reads 1, and memory is unchanged. For the downconverters and the spectral engine the bits
are set when their last filter or channel ends; with none running the registers stay as they are. -/
def Obligations.QuiescentBitsFollowTheWork : Prop :=
  (∀ s : State, s.asy.run = none → s.asy.applying = [] →
    Does (.unitQuiescent .asy) s (fun t => t.on Fd.ASY_STATUS_QUIESCENT = true ∧ SameMem s t)) ∧
  (∀ s : State, s.dsp.ddc = [] → s.dsp.zc = [] →
    Does (.unitQuiescent .zb) s (fun t => SameRegs [] s t ∧ SameMem s t)) ∧
  (∀ s : State, s.spx.segs = [] → s.spx.traces = [] →
    Does (.unitQuiescent .spx) s (fun t => SameRegs [] s t ∧ SameMem s t)) ∧
  (∀ s : State, s.on Fd.TRG_CTRL_EN = false → s.trg.tus = [] →
    Does (.unitQuiescent .trg) s (fun t => t.on Fd.TRG_STATUS_QUIESCENT = true ∧ SameMem s t)) ∧
  (∀ s : State, s.hoop = [] →
    Does (.unitQuiescent .hoop) s (fun t => t.on Fd.HOOP_STATUS_QUIESCENT = true ∧ SameMem s t)) ∧
  (∀ s : State, (∀ c, c < 4 → s.on (Fd.DEN_STATUS_QUIESCENT c) = true) → s.den.sg = [] →
    Does (.unitQuiescent .den) s (fun t => t.on Fd.DENG_STATUS_QUIESCENT = true ∧ SameMem s t)) ∧
  (∀ s : State, s.on Fd.GAL_CTRL_EN = false → s.gal.begun = true → s.gal.retired = true →
    Does (.unitQuiescent .gal) s (fun t => t.on Fd.GAL_STATUS_QUIESCENT = true ∧ SameMem s t)) ∧
  (∀ s : State, s.get Fd.SCR_STATUS_STATE = 0 → s.scr.folios = [] →
    Does (.unitQuiescent .scr) s (fun t => t.on Fd.SCR_STATUS_QUIESCENT = true ∧ SameMem s t)) ∧
  (∀ s : State, s.on Fd.WVR_CTRL_EN = false → s.on Fd.WVR_STATUS_LINK_UP = false → engState s 0 = 0 → engState s 1 = 0 →
    Does (.unitQuiescent .wvr) s (fun t => t.on Fd.WVR_STATUS_QUIESCENT = true ∧ SameMem s t)) ∧
  (∀ s : State, (∀ k, k < 9 → s.on (Fd.EV_CFG_EN k) = false) →
    Does (.unitQuiescent .tly) s (fun t => t.on Fd.TLY_STATUS_QUIESCENT = true ∧ SameMem s t)) ∧
  (∀ s : State, (∀ n, n < 128 → coreLive s n = false) → (∀ f, f < 16 → s.on (Fd.FD_CTRL_EN f) = false) → s.cyk.feeds = [] →
    Does (.unitQuiescent .cyk) s (fun t => t.on Fd.CYK_STATUS_QUIESCENT = true ∧ SameMem s t)) ∧
  (∀ s : State, s.on Fd.HIF_CTRL_EN = false → s.hif.fetched = [] → s.hif.due = [] →
    Does (.unitQuiescent .hif) s (fun t => t.on Fd.HIF_STATUS_QUIESCENT = true ∧ SameMem s t)) ∧
  (∀ s : State, s.ptr.queues = [] → s.ptr.fences = [] →
    Does (.unitQuiescent .ptr) s (fun t => t.on Fd.PTR_STATUS_QUIESCENT = true ∧ SameMem s t)) ∧
  (∀ s : State, s.hbm.waiting = [] →
    Does (.unitQuiescent .hbm) s (fun t => t.on Fd.HBM_STATUS_QUIESCENT = true ∧ SameMem s t)) ∧
  (∀ s : State, s.on Fd.BYO_CTRL_EN = false →
    Does (.unitQuiescent .byo) s (fun t => t.on Fd.BYO_STATUS_QUIESCENT = true ∧ SameMem s t)) ∧
  (∀ s : State, s.age.replan = none →
    Does (.unitQuiescent .age) s (fun t => t.on Fd.AGE_STATUS_QUIESCENT = true ∧ SameMem s t)) ∧
  (∀ s : State, s.cfg.applies = [] → s.on Fd.CFG_PROG_BUSY = false →
    Does (.unitQuiescent .cfg) s (fun t => t.on Fd.CFG_STATUS_QUIESCENT = true ∧ SameMem s t))

/-- EPOCH_ARM while SYS.ST_STATUS.RUN is 1, or after an epoch has been committed and before RUN has set, leaves stream time and
the committed epoch unchanged and raises event 0x0011 alone; in any other state it arms the epoch for the next capture, from
SYS.EPOCH, and changes nothing else. -/
def Obligations.EpochArmIsRefusedOrTaken : Prop :=
  (∀ s : State, s.run = true ∨ s.sys.committed.isSome = true →
    Does .epochArm s (fun t => t.sys = s.sys ∧ Frame [] [] [(0x0011, [])] s t)) ∧
  (∀ s : State, s.run = false → s.sys.committed = none →
    Does .epochArm s (fun t => t.sys = { s.sys with armed := true, armSrc := 1, armWait := 0, armValue := none } ∧
      Frame [] [.sys] [] s t))

/-- EPOCH_STOP while stream time counts requests a stop; EPOCH_BROADCAST on the fabric root arms for the second capture and owes
the message; the first valid capture sets the LEMC phase, two ICLK periods later, counts, and commits an armed epoch that waits
for no further capture; a capture off the grid while stream time counts sets ALIGN_ERR and raises event 0x0015; a fabric epoch
is loaded while stream time does not run, confirmed with event 0x0012 or refused with EPOCH_MISMATCH and 0x0013 while it runs;
PERIODIC_SYSREF_LOST clears SYSREF_OK and raises event 0x0014. -/
def Obligations.EpochRequestsAndCapturesTakeEffect : Prop :=
  (∀ s : State, s.sys.counting = true →
    Does .epochStop s (fun t => t.sys = { s.sys with stopReq := true } ∧ Frame [] [.sys] [] s t)) ∧
  (∀ s : State, s.on Fd.BYO_STATUS_ROOT = true → s.run = false → s.sys.committed = none →
    Does .epochBroadcast s (fun t =>
      t.sys = { s.sys with armed := true, armSrc := 2, armWait := 1, armValue := none, msgDue := true } ∧
      Frame [] [.sys] [] s t)) ∧
  (∀ s : State, s.ingEn = true → s.ing.polDone = true → s.on (Fd.PLL_STATUS_LOCK 1) = true →
    s.on Fd.ING_SR_STATUS_LEMC_SET = false → s.sys.armed = true → s.run = false → s.sys.committed = none →
    s.get Fd.CLK_SRC_ACT ≠ 0 → s.sys.armWait = 0 →
    Does .sysrefCapture s (fun t => t.get Fd.ING_SR_STATUS_LEMC_SET = 1 ∧ t.ing.lemc = s.ing.iclk + 2 ∧
      t.get Fd.ING_SR_STATUS_COUNT = min (s.get Fd.ING_SR_STATUS_COUNT + 1) (2 ^ Fd.ING_SR_STATUS_COUNT.width - 1) ∧
      t.get Fd.SYS_ST_STATUS_SYSREF_OK = 1 ∧
      t.sys.committed = some (s.sys.armValue.getD (s.rdT 0x108)) ∧ t.sys.armed = false ∧
      Frame [Fd.ING_SR_STATUS_LEMC_SET, Fd.ING_SR_STATUS_COUNT, Fd.SYS_ST_STATUS_SYSREF_OK] [.sys, .ing] [] s t)) ∧
  (∀ s : State, s.ingEn = true → s.ing.polDone = true → s.on (Fd.PLL_STATUS_LOCK 1) = true →
    s.on Fd.ING_SR_STATUS_LEMC_SET = true → s.sys.counting = true →
    (s.ing.iclk + 2) % embClocks s ≠ s.ing.lemc % embClocks s →
    Does .sysrefCapture s (fun t => t.get Fd.SYS_ST_STATUS_ALIGN_ERR = 1 ∧ t.ing.lemc = s.ing.lemc ∧
      Frame [Fd.SYS_ST_STATUS_ALIGN_ERR, Fd.ING_SR_STATUS_COUNT] [.sys, .ing] [(0x0015, [.t (tadd s.sys.next (32 + s.tRelease))])] s t)) ∧
  (∀ (s : State) (e : Tick) (hops n : Nat), s.on Fd.SYS_ST_STATUS_SYSREF_OK = true → s.get Fd.CLK_SRC_ACT ≠ 0 →
    s.run = false → s.sys.committed = none →
    Does (.fabricEpochMessage e hops n) s (fun t => t.sys.armed = true ∧ t.sys.armSrc = 2 ∧ t.sys.armWait = 0 ∧
      t.sys.armValue = some (tadd e (n * sysrefTicks s)) ∧ Frame [] [.sys] [] s t)) ∧
  (∀ (s : State) (e : Tick) (hops n : Nat), s.on Fd.SYS_ST_STATUS_SYSREF_OK = true → s.get Fd.CLK_SRC_ACT ≠ 0 →
    s.run = true → tadd e (n * sysrefTicks s) = tadd s.ing.lastMark (sysrefTicks s) →
    Does (.fabricEpochMessage e hops n) s (fun t =>
      Frame [] [] [(0x0012, [.t (tadd e (n * sysrefTicks s))])] s t)) ∧
  (∀ (s : State) (e : Tick) (hops n : Nat), s.on Fd.SYS_ST_STATUS_SYSREF_OK = true → s.get Fd.CLK_SRC_ACT ≠ 0 →
    s.run = true → tadd e (n * sysrefTicks s) ≠ tadd s.ing.lastMark (sysrefTicks s) →
    Does (.fabricEpochMessage e hops n) s (fun t => t.get Fd.SYS_ST_STATUS_EPOCH_MISMATCH = 1 ∧
      Frame [Fd.SYS_ST_STATUS_EPOCH_MISMATCH] [] [(0x0013, [.t (tadd e (n * sysrefTicks s))])] s t)) ∧
  (∀ s : State, s.ingEn = true → s.on Fd.ING_SR_CFG_PERIODIC = true →
    Does .periodicSysrefLost s (fun t => t.get Fd.SYS_ST_STATUS_SYSREF_OK = 0 ∧
      Frame [Fd.SYS_ST_STATUS_SYSREF_OK] [] [(0x0014, [.t s.ing.lastCap])] s t))

/-- EPOCH_APPLIED with a committed epoch E while RUN is 0 gives the next sample stream time E, sets RUN and EPOCH_SRC, and
nothing is committed or stopping any more. STREAM_TIME_STOPPED once every unit has drained clears RUN, and an ARM written with
the STOP is then taken; memory is unchanged. -/
def Obligations.StreamTimeStartsAndStops : Prop :=
  (∀ (s : State) (e : Tick), s.sys.committed = some e → s.run = false → s.on Fd.CFG_STATUS_STANDBY_ACT = false →
    Does .epochApplied s (fun t => t.sys.next = e ∧ t.sys.base = e ∧ t.sys.counting = true ∧ t.sys.committed = none ∧
      t.sys.stopReq = false ∧ t.sys.draining = false ∧ t.run = true ∧ t.get Fd.SYS_ST_STATUS_EPOCH_SRC = s.sys.commitSrc % 4)) ∧
  (∀ s : State, s.sys.draining = true → s.scr.pb = none → drained s = true →
    Does .streamTimeStopped s (fun t => t.run = false ∧ t.sys.draining = false ∧
      (s.sys.armAfterStop = true → s.sys.committed = none → t.sys.armed = true) ∧ SameMem s t))

/-- HOLD_WRITE sets SYS.LAND_CTRL.HOLD and changes nothing else. A decision point prepares the next landing: with HOLD 1 no pending
change is taken, with HOLD 0 every change that may land there is taken; requested stops are taken; registers other than COUNT
and NEXT_LAND, and memory, are unchanged. A landing that is due is performed: COUNT then reads how many changes still wait, and
unless it stops stream time the epoch is no longer fresh. A taken single field lands with its value. -/
def Obligations.PendingChangesWaitForTheirLanding : Prop :=
  (∀ (s : State) (h : Bool), Does (.holdWrite h) s (fun t => t.get Fd.SYS_LAND_CTRL_HOLD = b2n h ∧
    Frame [Fd.SYS_LAND_CTRL_HOLD] [] [] s t)) ∧
  (∀ s : State, s.sys.counting = true → s.sys.decided = none → nextDecision s = s.sys.next →
    Does .decisionPoint s (fun t => t.sys.decided = some (nextLanding s) ∧ t.sys.stopTaken = s.sys.stopReq ∧
      t.sys.stopReq = false ∧
      (s.on Fd.SYS_LAND_CTRL_HOLD = true → t.sys.pend = s.sys.pend) ∧
      (s.on Fd.SYS_LAND_CTRL_HOLD = false →
        t.sys.pend = s.sys.pend.map (fun e => if e.takes s (nextLanding s) then { e with taken := true } else e)) ∧
      Frame [Fd.SYS_LAND_CTRL_COUNT, Fd.SYS_NEXT_LAND_LO, Fd.SYS_NEXT_LAND_HI] [.sys, .asy, .tly, .age] [] s t)) ∧
  (∀ (s : State) (diff : Option (Fin 4 × Tick)), s.sys.counting = true → s.sys.decided = some s.sys.next →
    Does (.landing diff) s (fun t => t.get Fd.SYS_LAND_CTRL_COUNT = t.sys.pend.length % 8192 ∧
      (s.sys.stopTaken = false → playbackEndsAt s.sys.next s = none → t.sys.fresh = false))) ∧
  (∀ (s : State) (e : PendEntry), e.kind = .field → e.lo + e.width ≤ 32 →
    (landEntry e s).get ⟨e.off, e.lo, e.width⟩ = e.value % 2 ^ e.width ∧ Frame [⟨e.off, e.lo, e.width⟩] [] [] s (landEntry e s))

/-- VIN_ACCEPTED with MOD_EN low turns AUX_3V3 on; VIN_LOW sets LOW_SEEN and raises 0x1204; VIN_OVERVOLTAGE sets OV_ACTIVE and, with
the accumulator at zero, OV_SEEN with event 0x1201; VIN_BELOW_61V adds its milliseconds to the accumulator, at most 100, clears
OV_ACTIVE and reports the count in event 0x1202; OV_ACCUM_CLEAR clears the accumulator while no overvoltage is active;
VIN_POWER_LOSS and OV_DISCONNECT leave rails, acceptance and PGOOD off, flash and the waiting commands as they were, and
OV_DISCONNECT latches. -/
def Obligations.PowerInputEventsAreSeenAndReported : Prop :=
  (∀ s : State, s.pwr.accepted = false → s.on Fd.PWR_STATUS_MOD_EN = false →
    Does .vinAccepted s (fun t => t.pwr.accepted = true ∧ t.get Fd.PWR_STATUS_AUX_ON = 1 ∧
      Frame [Fd.PWR_STATUS_AUX_ON] [.pwr] [] s t)) ∧
  (∀ s : State, Does .vinLow s (fun t => t.get Fd.PWR_FAULT_LOW_SEEN = 1 ∧ Frame [Fd.PWR_FAULT_LOW_SEEN] [] [(0x1204, [])] s t)) ∧
  (∀ s : State, s.pwr.accum = 0 →
    Does .vinOvervoltage s (fun t => t.get Fd.PWR_STATUS_OV_ACTIVE = 1 ∧ t.get Fd.PWR_FAULT_OV_SEEN = 1 ∧
      Frame [Fd.PWR_STATUS_OV_ACTIVE, Fd.PWR_FAULT_OV_SEEN] [] [(0x1201, [])] s t)) ∧
  (∀ s : State, s.pwr.accum ≠ 0 →
    Does .vinOvervoltage s (fun t => t.get Fd.PWR_STATUS_OV_ACTIVE = 1 ∧ Frame [Fd.PWR_STATUS_OV_ACTIVE] [] [] s t)) ∧
  (∀ (s : State) (ms : Nat), Does (.vinBelow61V ms) s (fun t =>
    t.pwr.accum = min (s.pwr.accum + ms) 100 ∧ t.get Fd.PWR_OV_ACCUM = min (s.pwr.accum + ms) 100 ∧
    t.get Fd.PWR_STATUS_OV_ACTIVE = 0 ∧
    Frame [Fd.PWR_OV_ACCUM, Fd.PWR_STATUS_OV_ACTIVE] [.pwr] [(0x1202, [.w4 (min (s.pwr.accum + ms) 100)])] s t)) ∧
  (∀ s : State, s.on Fd.PWR_STATUS_OV_ACTIVE = false →
    Does .ovAccumClear s (fun t => t.pwr.accum = 0 ∧ t.get Fd.PWR_OV_ACCUM = 0 ∧ Frame [Fd.PWR_OV_ACCUM] [.pwr] [] s t)) ∧
  (∀ s : State, Does .vinPowerLoss s (fun t => t.pwr.rails = false ∧ t.pwr.accepted = false ∧ t.on Fd.PWR_STATUS_PGOOD = false ∧
    t.on Fd.CLK_STATUS_OCXO_RDY = false ∧ t.flash = s.flash ∧ t.pending = s.pending ∧ t.run = false)) ∧
  (∀ s : State, s.on Fd.PWR_STATUS_OV_ACTIVE = true →
    Does .ovDisconnect s (fun t => t.pwr.rails = false ∧ t.pwr.latched = true ∧ t.pwr.disc = true ∧ t.pwr.accum = 100 ∧
      t.on Fd.PWR_STATUS_PGOOD = false ∧ t.flash = s.flash ∧ t.pending = s.pending ∧ t.run = false))

/-- MOD_EN_RISE on an accepted input with the rails off and no latch starts the rails with every register at reset but those of
power and cause 1, or 2 after a disconnect; MOD_EN_FALL, OV_SHUTDOWN, SHUTDOWN and a rail short of phases begin the ordered
shutdown with causes 0, 3, 4 and 1; a failed phase sets its bit and PHASE_FAIL; RAIL_LEAVES_REGULATION clears PGOOD. -/
def Obligations.RailsFollowModEnAndShutdowns : Prop :=
  (∀ (s : State) (ms : Nat), s.pwr.rails = false → s.pwr.accepted = true → s.pwr.latched = false →
    Does (.modEnRise ms) s (fun t => t.pwr.rails = true ∧ t.pwr.accum = s.pwr.accum ∧ t.get Fd.PWR_STATUS_MOD_EN = 1 ∧
      t.get Fd.PWR_STATUS_AUX_ON = 1 ∧ t.get Fd.CFG_LAST_RESET_CAUSE = (if s.pwr.disc then 2 else 1) ∧
      t.run = false ∧ t.flash = s.flash ∧ t.pending = s.pending)) ∧
  (∀ s : State, s.pwr.rails = true → s.pwr.shut = none →
    Does .modEnFall s (fun t => t.pwr.shut = some 0 ∧ t.pwr.shutTimedOut = false ∧ t.age.takeovers = [])) ∧
  (∀ s : State, s.on Fd.PWR_STATUS_OV_ACTIVE = true → s.pwr.accum < 80 → s.pwr.shut = none →
    Does .ovShutdown s (fun t => t.pwr.shut = some 3 ∧ t.pwr.shutTimedOut = false ∧ t.age.takeovers = [])) ∧
  (∀ s : State, s.pwr.shut = none →
    Does .shutdown s (fun t => t.pwr.shut = some 4 ∧ t.pwr.shutTimedOut = false ∧ t.age.takeovers = [])) ∧
  (∀ (s : State) (id : Fin 40) (lvl : Fin 8), phaseFailed s id.val = false →
    (railPhases (railOf id.val)).2.2 < phasesLeft s (railOf id.val) →
    Does (.phaseFail id lvl) s (fun t => phaseFailed t id.val = true ∧ t.get Fd.PWR_FAULT_PHASE_FAIL = 1 ∧
      t.eseq = s.eseq + 1 ∧ t.pwr = s.pwr ∧ SameMem s t)) ∧
  (∀ (s : State) (id : Fin 40) (lvl : Fin 8), phaseFailed s id.val = false → s.pwr.shut = none →
    phasesLeft s (railOf id.val) ≤ (railPhases (railOf id.val)).2.2 → railOf id.val ≠ 1 →
    Does (.phaseFail id lvl) s (fun t => t.pwr.shut = some 1)) ∧
  (∀ (s : State) (r : Fin 10), Does (.railLeavesRegulation r) s (fun t =>
    t.get Fd.PWR_STATUS_PGOOD = 0 ∧ Frame [Fd.PWR_STATUS_PGOOD] [] [] s t))

/-- PIN_TRIP places the pin in high impedance, sets its SHORT or PAT_SHORT bit, and raises event 0x1210 when the bit was 0;
PIN_RETRY with LATCH 0 enables a tripped pin again and watches it; PIN_HELD raises event 0x1211 for a watched pin;
PIN_SHORT_CLEAR clears the written bits; an open sense contact sets SNS_OPEN and SNS_LOCAL, and with both continuous again
SNS_LOCAL clears and event 0x1231 is raised. -/
def Obligations.PinsAndSenseContactsReportTheirTrips : Prop :=
  (∀ (s : State) (p : Fin 38), s.onBit (pinBit p.val).1 (pinBit p.val).2 = false →
    Does (.pinTrip p) s (fun t => t.onBit (pinBit p.val).1 (pinBit p.val).2 = true ∧ p.val ∈ t.pwr.hiz ∧
      Frame [Fd.PWR_PAT_SHORT, Fd.PWR_SHORT, Fd.PWR_STATUS_AUX_ON] [.pwr] [(0x1210, [.w4 p.val])] s t)) ∧
  (∀ (s : State) (p : Fin 38), s.on Fd.PWR_RETRY_CFG_LATCH = false → p.val ∈ s.pwr.hiz →
    Does (.pinRetry p) s (fun t => p.val ∉ t.pwr.hiz ∧ p.val ∈ t.pwr.watch ∧ Frame [Fd.PWR_STATUS_AUX_ON] [.pwr] [] s t)) ∧
  (∀ (s : State) (p : Fin 38), p.val ∈ s.pwr.watch →
    Does (.pinHeld p) s (fun t => p.val ∉ t.pwr.watch ∧ t.pwr.hiz = s.pwr.hiz ∧ Frame [] [.pwr] [(0x1211, [.w4 p.val])] s t)) ∧
  (∀ (s : State) (w : Word), Does (.pinShortClear true w) s (fun t =>
    t.get Fd.PWR_PAT_SHORT = Nat.land (s.get Fd.PWR_PAT_SHORT) (Nat.xor w.toNat (2 ^ 32 - 1)) ∧
    Frame [Fd.PWR_PAT_SHORT, Fd.PWR_STATUS_AUX_ON] [.pwr] [] s t)) ∧
  (∀ (s : State) (w : Word), Does (.pinShortClear false w) s (fun t =>
    t.get Fd.PWR_SHORT = Nat.land (s.get Fd.PWR_SHORT) (Nat.xor (w.toNat % 64) 63) ∧
    Frame [Fd.PWR_SHORT, Fd.PWR_STATUS_AUX_ON] [.pwr] [] s t)) ∧
  (∀ s : State, Does (.senseCheck true false) s (fun t => t.get Fd.PWR_FAULT_SNS_OPEN = 1 ∧ t.get Fd.PWR_STATUS_SNS_LOCAL = 1 ∧
    Frame [Fd.PWR_FAULT_SNS_OPEN, Fd.PWR_STATUS_SNS_LOCAL] [] [(0x1230, [.w4 0])] s t)) ∧
  (∀ s : State, Does (.senseCheck true true) s (fun t => t.get Fd.PWR_FAULT_SNS_OPEN = 1 ∧ t.get Fd.PWR_STATUS_SNS_LOCAL = 1 ∧
    Frame [Fd.PWR_FAULT_SNS_OPEN, Fd.PWR_STATUS_SNS_LOCAL] [] [(0x1230, [.w4 0]), (0x1230, [.w4 1])] s t)) ∧
  (∀ s : State, s.on Fd.PWR_STATUS_SNS_LOCAL = true → Does (.senseCheck false false) s (fun t =>
    t.get Fd.PWR_STATUS_SNS_LOCAL = 0 ∧ Frame [Fd.PWR_STATUS_SNS_LOCAL] [] [(0x1231, [])] s t))

/-- When the 500 µs count that a write changing REF_EN from 0 to 1 started has ended (HK_REF_READY), HK.CTRL.REF_RDY sets and the
count is over. A register write that leaves REF_EN at 1 changes neither; one that takes it from 0 to 1 starts the count; one of 0
clears REF_RDY and ends the count. All of it from PHASE 4 to 7. -/
def Obligations.ReferenceBufferBecomesReady : Prop :=
  (∀ s : State, s.hk.refCount = true → Does .hkRefReady s (fun t =>
    t.get Fd.HK_CTRL_REF_RDY = 1 ∧ t.hk.refCount = false ∧ Frame [Fd.HK_CTRL_REF_RDY] [.hk] [] s t)) ∧
  (∀ (s : State) (w : Word), 4 ≤ s.get Fd.CFG_STATUS_PHASE → s.get Fd.CFG_STATUS_PHASE ≤ 7 →
    (s.on Fd.HK_CTRL_REF_EN = true → Fd.HK_CTRL_REF_EN.get w.toNat = 1 →
      Does (.registerWrite 0x120100#26 (le 4 w.toNat)) s (fun t =>
        t.hk.refCount = s.hk.refCount ∧ t.get Fd.HK_CTRL_REF_RDY = s.get Fd.HK_CTRL_REF_RDY)) ∧
    (s.on Fd.HK_CTRL_REF_EN = false → Fd.HK_CTRL_REF_EN.get w.toNat = 1 →
      Does (.registerWrite 0x120100#26 (le 4 w.toNat)) s (fun t =>
        t.hk.refCount = true ∧ t.get Fd.HK_CTRL_REF_RDY = s.get Fd.HK_CTRL_REF_RDY)) ∧
    (s.on Fd.HK_CTRL_REF_EN = true → Fd.HK_CTRL_REF_EN.get w.toNat = 0 →
      Does (.registerWrite 0x120100#26 (le 4 w.toNat)) s (fun t =>
        t.hk.refCount = false ∧ t.get Fd.HK_CTRL_REF_RDY = 0)))

/-- A timer scan with the converter running and idle takes the enabled timer slots in ascending order and starts the first; one
that comes while a scan runs counts TSKIP; a PWM slot converts at once or counts PSKIP while the converter is busy; the last
conversion of a set of 2^K writes the slot's result word: SEQ one higher, WARM, SKIP, CH and the sum shifted right by K;
COUNT_CLEAR clears both counters. -/
def Obligations.HousekeepingSetsGiveResults : Prop :=
  (∀ (s : State) (hold : Bool), s.on Fd.HK_CTRL_RUN = true → s.hk.scan ≠ [] → Does (.hkTimerScan hold) s (fun t =>
    t.get Fd.HK_COUNTS_TSKIP = min (s.get Fd.HK_COUNTS_TSKIP + 1) (2 ^ Fd.HK_COUNTS_TSKIP.width - 1) ∧
    Frame [Fd.HK_COUNTS_TSKIP] [] [] s t)) ∧
  (∀ (s : State) (n : Nat) (rest : List Nat), s.on Fd.HK_CTRL_RUN = true → s.hk.scan = [] → s.hk.busy = none →
    (List.range 24).filter (fun n => s.on (Fd.HK_SLOT_EN n) && !s.on (Fd.HK_SLOT_TRIG n)) = n :: rest →
    Does (.hkTimerScan false) s (fun t => t.hk.busy = some n ∧ t.hk.scan = n :: rest ∧ Frame [] [.hk] [] s t)) ∧
  (∀ (s : State) (slot : Fin 24), s.on Fd.HK_CTRL_RUN = true → s.on (Fd.HK_SLOT_EN slot.val) = true →
    s.on (Fd.HK_SLOT_TRIG slot.val) = true → s.hk.sets = [] → s.hk.busy = none →
    Does (.hkPwmConversion slot) s (fun t => t.hk.busy = some slot.val ∧ Frame [] [.hk] [] s t)) ∧
  (∀ (s : State) (slot : Fin 24), s.on Fd.HK_CTRL_RUN = true → s.on (Fd.HK_SLOT_EN slot.val) = true →
    s.on (Fd.HK_SLOT_TRIG slot.val) = true → s.hk.sets = [] → s.hk.busy.isSome = true →
    Does (.hkPwmConversion slot) s (fun t => slot.val ∈ t.hk.skipped ∧
      t.get Fd.HK_COUNTS_PSKIP = min (s.get Fd.HK_COUNTS_PSKIP + 1) (2 ^ Fd.HK_COUNTS_PSKIP.width - 1) ∧
      Frame [Fd.HK_COUNTS_PSKIP] [.hk] [] s t)) ∧
  (∀ (s : State) (n : Nat) (st : HkSet) (code : BitVec 12) (hold : Bool), n < 24 → s.hk.busy = some n →
    s.hk.sets = [(n, st)] → 2 ^ bits st.cfg.toNat 14 4 ≤ st.done + 1 →
    Does (.hkConversionEnd code hold) s (fun t =>
      t.get (Fd.HK_RES_SEQ n) = (s.get (Fd.HK_RES_SEQ n) + 1) % 16 ∧
      t.get (Fd.HK_RES_VALUE n) = (st.sum + code.toNat) / 2 ^ bits st.cfg.toNat 14 4 % 4096 ∧
      t.get (Fd.HK_RES_CH n) = bits st.cfg.toNat 24 5 ∧ SameMem s t)) ∧
  (∀ s : State, Does .countClear s (fun t => t.get Fd.HK_COUNTS_TSKIP = 0 ∧ t.get Fd.HK_COUNTS_PSKIP = 0 ∧
    Frame [Fd.HK_COUNTS_TSKIP, Fd.HK_COUNTS_PSKIP] [] [] s t))

/-- ING_ENABLE puts every used lane in CDR and every other OFF, every enabled channel in ACQUIRE and every other OFF, and clears
the capture count and INVERTED; the polarity decision of 4,096 samples inverts SYSREF if more than half were high and reports it;
ING_DISABLE puts every lane OFF, clears SYSREF_OK, and leaves enabled channels in ACQUIRE only while stream time runs. -/
def Obligations.IngestEnableAndDisableSetLanesAndChannels : Prop :=
  (∀ s : State, s.ingEn = false → Does .ingEnable s (fun t => t.ingEn = true ∧
    (∀ l, l < 64 → t.lane l = (if laneUsed s l then 1 else 0)) ∧ (∀ c, c < 4 → t.chan c = (if s.chEn c then 1 else 0)) ∧
    t.get Fd.ING_SR_STATUS_COUNT = 0 ∧ t.get Fd.ING_SR_STATUS_INVERTED = 0 ∧ t.ing.polDone = false ∧ t.ing.arr = [] ∧
    (s.run = true → t.get Fd.ING_SR_STATUS_LEMC_SET = s.get Fd.ING_SR_STATUS_LEMC_SET) ∧
    Frame ([Fd.ING_CTRL_EN, Fd.ING_SR_STATUS_COUNT, Fd.ING_SR_STATUS_INVERTED, Fd.ING_SR_STATUS_LEMC_SET] ++
      (List.range 64).map laneFld ++ (List.range 4).map chanFld) [.ing] [] s t)) ∧
  (∀ (s : State) (high : Nat), s.ingEn = true → s.ing.polDone = false → 2048 < high →
    Does (.sysrefPolarityDecision high) s (fun t => t.get Fd.ING_SR_STATUS_INVERTED = 1 ∧ t.ing.polDone = true ∧
      Frame [Fd.ING_SR_STATUS_INVERTED] [.ing] [(0x0207, [])] s t)) ∧
  (∀ (s : State) (high : Nat), s.ingEn = true → s.ing.polDone = false → high ≤ 2048 →
    Does (.sysrefPolarityDecision high) s (fun t => t.get Fd.ING_SR_STATUS_INVERTED = 0 ∧ t.ing.polDone = true ∧
      Frame [Fd.ING_SR_STATUS_INVERTED] [.ing] [] s t)) ∧
  (∀ s : State, s.ingEn = true → Does .ingDisable s (fun t => t.ingEn = false ∧ t.get Fd.SYS_ST_STATUS_SYSREF_OK = 0 ∧
    (∀ l, l < 64 → t.lane l = 0) ∧ (∀ c, c < 4 → t.chan c = (if s.run && s.chEn c then 1 else 0)) ∧
    Frame ([Fd.ING_CTRL_EN, Fd.SYS_ST_STATUS_SYSREF_OK, Fd.ING_SR_PHASE_SCANNING] ++
      (List.range 64).map laneFld ++ (List.range 4).map chanFld) [.ing] [] s t))

/-- SR_SCAN starts a scan with EN 1, PERIODIC 1 and RUN 0 and otherwise raises event 0x0206 with reason 1; a scan that ends with one
change of fewer than 16 steps sets EDGE to its middle, PHASE 128 steps on, SCAN_OK, and raises event 0x0205 with both; one that
ends without clears SCAN_OK and raises event 0x0206 with reason 2; SR_PHASE_STEP moves the capture clock one step towards PHASE and
changes nothing else. -/
def Obligations.SysrefScanFindsTheEdge : Prop :=
  (∀ s : State, s.ingEn = true → s.on Fd.ING_SR_CFG_PERIODIC = true → s.run = false →
    Does .srScan s (fun t => t.get Fd.ING_SR_PHASE_SCANNING = 1 ∧ Frame [Fd.ING_SR_PHASE_SCANNING] [] [] s t)) ∧
  (∀ s : State, s.ingEn = false ∨ s.on Fd.ING_SR_CFG_PERIODIC = false ∨ s.run = true →
    Does .srScan s (fun t => Frame [] [] [(0x0206, [.w4 1])] s t)) ∧
  (∀ (s : State) (a b : Fin 256), s.on Fd.ING_SR_PHASE_SCANNING = true → (b.val + 256 - a.val) % 256 < 16 →
    Does (.srScanEnd (some (a, b))) s (fun t =>
      let edge := (a.val + (b.val + 256 - a.val) % 256 / 2) % 256
      t.get Fd.ING_SR_PHASE_EDGE = edge ∧ t.get Fd.ING_SR_PHASE_PHASE = (edge + 128) % 256 ∧
      t.ing.capPhase = (edge + 128) % 256 ∧ t.get Fd.ING_SR_PHASE_SCAN_OK = 1 ∧ t.get Fd.ING_SR_PHASE_SCANNING = 0 ∧
      Frame [Fd.ING_SR_PHASE_SCANNING, Fd.ING_SR_PHASE_SCAN_OK, Fd.ING_SR_PHASE_EDGE, Fd.ING_SR_PHASE_PHASE] [.ing]
        [(0x0205, [.w4 edge, .w4 ((edge + 128) % 256)])] s t)) ∧
  (∀ s : State, s.on Fd.ING_SR_PHASE_SCANNING = true →
    Does (.srScanEnd none) s (fun t => t.get Fd.ING_SR_PHASE_SCAN_OK = 0 ∧ t.get Fd.ING_SR_PHASE_SCANNING = 0 ∧
      Frame [Fd.ING_SR_PHASE_SCANNING, Fd.ING_SR_PHASE_SCAN_OK] [] [(0x0206, [.w4 2])] s t)) ∧
  (∀ s : State, Does .srPhaseStep s (fun t => t.ing =
    { s.ing with capPhase := if s.ing.capPhase < s.get Fd.ING_SR_PHASE_PHASE then s.ing.capPhase + 1
        else if s.get Fd.ING_SR_PHASE_PHASE < s.ing.capPhase then s.ing.capPhase - 1 else s.ing.capPhase } ∧
    Frame [] [.ing] [] s t))

/-- A lane in CDR with header lock enters SHLOCK; in SHLOCK with the pilot it enters EMBLOCK, its polarity and arrival noted, and an
inverted one is reported; in EMBLOCK with the LEMC set and a fitting arrival it is ALIGNED; an ALIGNED lane that meets a cause
enters FAULT with event 0x0201 and its channel, unless already DOWN, enters DOWN with event 0x0202; a FAULT lane recovers to CDR, and
a lane that loses lock before ALIGNED returns to CDR without an event. -/
def Obligations.LanesClimbAndFall : Prop :=
  (∀ (s : State) (l : Fin 64), s.lane l.val = 1 → Does (.laneSyncHeaderLock l) s (fun t =>
    t.lane l.val = 2 ∧ Frame [laneFld l.val] [] [] s t)) ∧
  (∀ (s : State) (l : Fin 64) (inv : Bool) (a : Nat), s.lane l.val = 2 → Does (.lanePilotFound l inv a) s (fun t =>
    t.lane l.val = 3 ∧ t.onBit (polInv l.val).1 (polInv l.val).2 = inv ∧ look 0 t.ing.arr l.val = a ∧
    Frame [laneFld l.val, (polInv l.val).1, Fd.ING_ARR_EARLY (l.val / 16), Fd.ING_ARR_LATE (l.val / 16)] [.ing]
      (if inv then [(0x020B, [.w4 l.val])] else []) s t)) ∧
  (∀ (s : State) (l : Fin 64) (a : Nat), s.lane l.val = 3 → s.on Fd.ING_SR_STATUS_LEMC_SET = true → arrivalFits s a = true →
    Does (.laneJoin l a) s (fun t => t.lane l.val = 4 ∧ look 0 t.ing.arr l.val = a ∧
      Frame [laneFld l.val, Fd.ING_ARR_EARLY (l.val / 16), Fd.ING_ARR_LATE (l.val / 16)] [.ing] [] s t)) ∧
  (∀ (s : State) (l : Fin 64) (cause : Fin 6), s.lane l.val = 4 → s.chan (l.val / 16) = 3 →
    Does (.laneFault [(l, cause)]) s (fun t => t.lane l.val = 5 ∧
      Frame [laneFld l.val] [.ing] [(0x0201, [.w4 l.val, .w4 cause.val])] s t)) ∧
  (∀ (s : State) (l : Fin 64) (cause : Fin 6), s.lane l.val = 4 → s.chan (l.val / 16) ≠ 3 →
    Does (.laneFault [(l, cause)]) s (fun t => t.lane l.val = 5 ∧ t.chan (l.val / 16) = 3 ∧
      t.onBit Fd.ING_CH_STATUS_WAS_DOWN (l.val / 16) = true ∧ t.eseq = s.eseq + 2 ∧ SameMem s t ∧
      SameRegs [laneFld l.val, chanFld (l.val / 16), Fd.ING_CH_STATUS_WAS_DOWN, Fd.ING_ERR_FAULTS (l.val / 16), Fd.HIF_EVT_LOST] s t)) ∧
  (∀ (s : State) (l : Fin 64), s.lane l.val = 5 → Does (.laneFaultRecovery l) s (fun t =>
    t.lane l.val = 1 ∧ Frame [laneFld l.val] [] [] s t)) ∧
  (∀ (s : State) (l : Fin 64), 1 ≤ s.lane l.val → s.lane l.val ≤ 3 → Does (.laneLockLost l) s (fun t =>
    t.lane l.val = 1 ∧ Frame [laneFld l.val] [] [] s t))

/-- AUTO_RBD and its timeout, once due, compute RBD over the measured arrivals: 192 ticks above the latest arrival plus the hold,
rounded up to a step of 16, but no higher than the capacity allows; a good multiblock of an ALIGNED lane only counts; a flagged one
below the limit counts in ERR and marks its tick span with ING; CHANNEL_ALIGN_FAIL puts the channel in ALIGN_FAIL with event
0x0204 and the measured arrivals; ERR_CLEAR zeroes every ERR register. -/
def Obligations.ReleaseDelayAndMultiblockVerdicts : Prop :=
  (∀ (s : State) (as : List Nat) (early : Nat), s.ingEn = true → s.ing.autoDue = true →
    (enabledChans s).all (chanLocked s) = true →
    (enabledChans s).flatMap (fun c => (usedLanes s c).filterMap
      (fun l => (s.ing.arr.find? (fun e => e.1 == l)).map Prod.snd)) = as →
    minN? as = some early → maxL as + s.im.hold ≤ early + s.im.cap - 32 →
    Does .autoRbd s (fun t =>
      let r := (maxL as + s.im.hold + 192 + 15) / 16
      t.get Fd.ING_RBD = (if early + s.im.cap - 32 < 64 + 16 * r then (early + s.im.cap - 32 - 64) / 16 else r) % 1024 ∧
      t.get Fd.ING_RBD_T_REL = (64 + 16 * t.get Fd.ING_RBD) % 65536 ∧ t.ing.autoDue = false ∧
      Frame [Fd.ING_RBD, Fd.ING_RBD_T_REL] [.ing] [] s t)) ∧
  (∀ (s : State) (as : List Nat) (early : Nat), s.ingEn = true → s.ing.autoDue = true →
    ((enabledChans s).filter (chanLocked s)).isEmpty = false →
    ((enabledChans s).filter (chanLocked s)).flatMap (fun c => (usedLanes s c).filterMap
      (fun l => (s.ing.arr.find? (fun e => e.1 == l)).map Prod.snd)) = as →
    minN? as = some early → maxL as + s.im.hold ≤ early + s.im.cap - 32 →
    Does .autoRbdTimeout s (fun t =>
      let r := (maxL as + s.im.hold + 192 + 15) / 16
      t.get Fd.ING_RBD = (if early + s.im.cap - 32 < 64 + 16 * r then (early + s.im.cap - 32 - 64) / 16 else r) % 1024 ∧
      t.get Fd.ING_RBD_T_REL = (64 + 16 * t.get Fd.ING_RBD) % 65536 ∧ t.ing.autoDue = false ∧
      Frame [Fd.ING_RBD, Fd.ING_RBD_T_REL] [.ing] [] s t)) ∧
  (∀ (s : State) (l : Fin 64) (i : Nat), s.lane l.val = 4 → Does (.multiblock l i false) s (fun t =>
    look 0 t.ing.mbCount l.val = look 0 s.ing.mbCount l.val + 1 ∧ Frame [] [.ing] [] s t)) ∧
  (∀ (s : State) (l : Fin 64) (i : Nat), s.lane l.val = 4 → s.sys.counting = true → look [] s.ing.mbFlagged l.val = [] →
    1 < s.get Fd.ING_CRC_LIMIT → Does (.multiblock l i true) s (fun t =>
      t.get (Fd.ING_ERR_CRC (l.val / 16)) = min (s.get (Fd.ING_ERR_CRC (l.val / 16)) + 1) 65535 ∧
      t.sys.spans = ⟨Df.ing, 2 ^ (l.val / 16), (mbSpan s.im s.sys.base i).1, some (mbSpan s.im s.sys.base i).2⟩ :: s.sys.spans ∧
      t.lane l.val = 4 ∧ SameMem s t ∧ SameRegs [Fd.ING_ERR_CRC (l.val / 16), Fd.HIF_EVT_LOST] s t)) ∧
  (∀ (s : State) (c : Fin 4), s.chan c.val ≠ 0 → s.chan c.val ≠ 2 → lanesIn s c.val [3, 4] = true →
    (usedLanes s c.val).any (fun l => s.lane l = 3) = true → Does (.channelAlignFail c) s (fun t => t.chan c.val = 4 ∧
      Frame [chanFld c.val] []
        [(0x0204, [.w4 c.val, .w4 (s.get (Fd.ING_ARR_EARLY c.val)), .w4 (s.get (Fd.ING_ARR_LATE c.val))])] s t)) ∧
  (∀ s : State, Does .errClear s (fun t => (∀ c, c < 4 → t.rd (0x30060 + 4 * c) = 0) ∧
    Frame ((List.range 4).flatMap (fun c => [Fd.ING_ERR_CRC c, Fd.ING_ERR_FAULTS c])) [] [] s t))

/-- ASY_REQ for one channel with nothing queued starts its run when nothing defers it and CHS is free, and otherwise defers it, once
per request and reason with event 0x0304; ASY_ABORT before COVER ends the run with outcome 2, and in COVER asks it to return with
reason 1; an estimation window with flagged input is discarded and repeated, at most 4 times; the flash record of a completed
application is written to one of the channel's two copies, with event 0x030B. -/
def Obligations.AssayerRunsFollowTheirRequests : Prop :=
  (∀ (s : State) (c : Fin 4), s.get Fd.ASY_STATUS_QUEUED = 0 → s.asy.run = none → s.asy.applying = [] →
    deferReason s c.val = none → s.onBit Fd.ASY_STATUS_DEFERRED c.val = false →
    Does (.asyReq (BitVec.ofNat 4 (2 ^ c.val))) s (fun t => (∃ r, t.asy.run = some r ∧ r.ch = c.val ∧ r.phase = .idle) ∧
      t.get Fd.ASY_STATUS_CH = c.val ∧ t.get Fd.ASY_STATUS_CHS_OWNER = 1 ∧ t.get Fd.ASY_STATUS_QUIESCENT = 0 ∧
      t.get Fd.ASY_STATUS_QUEUED = 0 ∧ SameMem s t)) ∧
  (∀ (s : State) (c : Fin 4) (r : Nat), s.get Fd.ASY_STATUS_QUEUED = 0 → s.asy.run = none → s.asy.applying = [] →
    deferReason s c.val = some r → s.asy.deferred = [] →
    Does (.asyReq (BitVec.ofNat 4 (2 ^ c.val))) s (fun t => t.onBit Fd.ASY_STATUS_QUEUED c.val = true ∧
      t.onBit Fd.ASY_STATUS_DEFERRED c.val = true ∧ t.asy.run = none ∧
      Frame [Fd.ASY_STATUS_QUEUED, Fd.ASY_STATUS_DEFERRED] [.asy] [(0x0304, [.w4 c.val, .w4 r])] s t)) ∧
  (∀ (s : State) (r : AsyRun), s.asy.run = some r → r.phase = .shadow → r.ch < 4 → s.get Fd.ASY_STATUS_QUEUED = 0 →
    Does .asyAbort s (fun t => t.asy.run = none ∧ t.get (Fd.ASY_RESULT_OUTCOME r.ch) = 2 ∧ t.get Fd.ASY_STATUS_PHASE = 0 ∧
      t.eseq = s.eseq + 1 ∧ SameMem s t)) ∧
  (∀ (s : State) (r : AsyRun), s.asy.run = some r → r.phase = .cover → r.abort = none →
    Does .asyAbort s (fun t => t.asy.run = some { r with abort := some 1 } ∧ t.get Fd.ASY_STATUS_PHASE = 3 ∧
      Frame [Fd.ASY_STATUS_PHASE] [.asy] [] s t)) ∧
  (∀ (s : State) (r : AsyRun), s.asy.run = some r → r.phase = .cover → r.done = false → r.abort = none → r.ch < 4 →
    2 ^ s.get Fd.ASY_CFG_WIN ≤ (windowOf (s.stream r.ch) r.win (2 ^ s.get Fd.ASY_CFG_WIN)).length →
    (windowOf (s.stream r.ch) r.win (2 ^ s.get Fd.ASY_CFG_WIN)).foldl (fun a x => Nat.lor a x.fl) 0 % 64 ≠ 0 →
    r.repeats < 4 → Does (.estimationIteration []) s (fun t =>
      t.asy.run = some { r with repeats := r.repeats + 1, win := nextWindow s r } ∧
      t.get (Fd.ASY_RESULT_CODES r.ch) = 0x44444 ∧ t.eseq = s.eseq + 5 ∧ SameMem s t)) ∧
  (∀ (s : State) (a : AsyApply) (rest : List AsyApply), s.asy.toFlash = a :: rest →
    Does .asyFlashRecordWrite s (fun t => t.asy.toFlash = rest ∧
      (∀ b, b < calCopyAt a.ch 0 ∨ calCopyAt a.ch 0 + 0x2000 ≤ b → Memory.byte t.flash b = Memory.byte s.flash b) ∧
      Frame [] [.asy, .flash] [(0x030B, [.w4 a.ch, .w4 a.run])] s t))

/-- A BAR2 write of at most the window's rest to HBM below the replay region stores its bytes at the window's base plus the
offset and nothing else; a BAR2 read of such a range returns the bytes there and stores nothing. A memory request of a port, out
of self-refresh, stores its bytes within its 64-byte line; one with a corrected error counts CE of its stack; one with an
uncorrectable error counts UE, shows port and place, and raises event 0x0F03; one to an undecoded address stores nothing and counts
ADDR_ERR. In self-refresh a request waits and asks for the exit. -/
def Obligations.MemoryRequestsStoreWhereTheySay : Prop :=
  (∀ (s : State) (off : BitVec 28) (bs : List Byte) (n : BitVec 12), bs.length ≤ 2 ^ 28 - off.toNat →
    bar2At off.toNat s + bs.length ≤ 0x17FE000000 → Does (.bar2Access off (some bs) n) s (fun t =>
      Holds t (bar2At off.toNat s) bs ∧ SameMemBut (bar2At off.toNat s) bs.length s t ∧ SameRegs [Fd.HBMP_BYTES 9] s t)) ∧
  (∀ (s : State) (off : BitVec 28) (n : BitVec 12), n.toNat ≤ 2 ^ 28 - off.toNat →
    bar2At off.toNat s + n.toNat ≤ 0x17FE000000 → Does (.bar2Access off none n) s (fun t =>
      t.hif.readData = s.load (bar2At off.toNat s) n.toNat ∧ SameMem s t ∧ SameRegs [Fd.HBMP_BYTES 9] s t)) ∧
  (∀ (s : State) (p : Fin 11) (a : BitVec 48) (bs : List Byte), p.val < 10 → s.get Fd.HBM_STATUS_SR = 0 →
    a.toNat % 64 + bs.length ≤ 64 → a.toNat + bs.length ≤ 0x17FE000000 → 0 < bs.length →
    Does (.memoryRequest p a (some bs) 0) s (fun t => Holds t a.toNat bs ∧ SameMemBut a.toNat bs.length s t ∧
      SameRegs [Fd.HBMP_BYTES p.val, Fd.PTB_COUNT 1] s t)) ∧
  (∀ (s : State) (p : Fin 11) (a : BitVec 48), s.get Fd.HBM_STATUS_SR = 0 → a.toNat < 0x1800000000 →
    Does (.memoryRequest p a none 1) s (fun t =>
      t.get (Fd.HBM_CE_COUNT (s.place (floorTo 64 a.toNat)).stack) =
        min (s.get (Fd.HBM_CE_COUNT (s.place (floorTo 64 a.toNat)).stack) + 1) (2 ^ (Fd.HBM_CE_COUNT 0).width - 1) ∧
      SameMem s t)) ∧
  (∀ (s : State) (p : Fin 11) (a : BitVec 48), p.val < 10 → s.get Fd.HBM_STATUS_SR = 0 → a.toNat < 0x1800000000 →
    Does (.memoryRequest p a none 2) s (fun t =>
      t.get (Fd.HBM_UE_COUNT (s.place (floorTo 64 a.toNat)).stack) =
        min (s.get (Fd.HBM_UE_COUNT (s.place (floorTo 64 a.toNat)).stack) + 1) (2 ^ (Fd.HBM_UE_COUNT 0).width - 1) ∧
      t.get Fd.HBM_UE_INFO_PORT = p.val ∧ t.rd64 0x100050 = floorTo 64 a.toNat ∧
      t.poisoned (floorTo 64 a.toNat) 64 = true ∧ t.eseq = s.eseq + 1 ∧ SameMem s t)) ∧
  (∀ (s : State) (p : Fin 11) (a : BitVec 48) (w : Option (List Byte)), s.get Fd.HBM_STATUS_SR = 0 →
    regionOf a.toNat = .undecoded → Does (.memoryRequest p a w 0) s (fun t =>
      t.get Fd.HBM_ADDR_ERR = min (s.get Fd.HBM_ADDR_ERR + 1) (2 ^ Fd.HBM_ADDR_ERR.width - 1) ∧ SameMem s t ∧
      SameRegs [Fd.HBM_ADDR_ERR, Fd.HIF_EVT_LOST] s t)) ∧
  (∀ (s : State) (p : Fin 11) (a : BitVec 48) (w : Option (List Byte)) (f : Fin 3), s.get Fd.HBM_STATUS_SR ≠ 0 →
    Does (.memoryRequest p a w f) s (fun t => t.get Fd.HBM_STATUS_SR = 3 ∧
      t.hbm.waiting = s.hbm.waiting ++ [⟨p.val, a.toNat, w, f.val⟩] ∧ Frame [Fd.HBM_STATUS_SR] [.hbm] [] s t))

/-- REFRESH with an empty queue pays what is owed and with requests queued postpones one, up to eight; STACK_TEMP_READ shows the
temperature, sets TLIMIT from 95 °C, and enters the doubled range at 85 °C with event 0x0F05; a retraining pass out of self-refresh
applies every pending trim and reports each pseudo-channel below its margin; the thousandth hot window in a row shows the busiest
pseudo-channel; SR.REQ is taken while stream time does not run and refused with event 0x0F0B while it runs; self-refresh is entered
with nothing owed and left with nothing waiting; a scrub pass is counted. -/
def Obligations.MemoryUpkeepFollowsItsRules : Prop :=
  (∀ (s : State) (j : Fin 128), Does (.refresh j false) s (fun t => t.owed j.val = 0 ∧ Frame [] [.hbm] [] s t)) ∧
  (∀ (s : State) (j : Fin 128), s.owed j.val < 8 → Does (.refresh j true) s (fun t =>
    t.owed j.val = s.owed j.val + 1 ∧ (∀ k, k ≠ j.val → t.owed k = s.owed k) ∧ Frame [] [.hbm] [] s t)) ∧
  (∀ (s : State) (k : Fin 4) (temp : BitVec 16), s.onBit Fd.HBM_STATUS_DBLREF k.val = false → 850 ≤ sext 16 temp.toNat →
    Does (.stackTempRead k temp) s (fun t => t.get (Fd.HBM_TEMP k.val) = temp.toNat ∧
      t.onBit Fd.HBM_STATUS_TLIMIT k.val = decide (950 ≤ sext 16 temp.toNat) ∧ t.onBit Fd.HBM_STATUS_DBLREF k.val = true ∧
      (∀ i, i < 32 → t.owed (32 * k.val + i) = 0) ∧
      Frame [Fd.HBM_TEMP k.val, Fd.HBM_STATUS_TLIMIT, Fd.HBM_STATUS_DBLREF] [.hbm]
        [(0x0F05, [.w4 k.val, .w4 (maxL ((List.range 32).map (fun i => 2 * s.owed (32 * k.val + i))))])] s t)) ∧
  (∀ (s : State) (k : Fin 4) (temp : BitVec 16), s.onBit Fd.HBM_STATUS_DBLREF k.val = false → sext 16 temp.toNat < 850 →
    Does (.stackTempRead k temp) s (fun t => t.get (Fd.HBM_TEMP k.val) = temp.toNat ∧
      t.onBit Fd.HBM_STATUS_TLIMIT k.val = false ∧ Frame [Fd.HBM_TEMP k.val, Fd.HBM_STATUS_TLIMIT] [] [] s t)) ∧
  (∀ (s : State) (below : List (Fin 128)), s.on Fd.HBM_RETRAIN_EN = true → s.get Fd.HBM_STATUS_SR = 0 →
    Does (.retrainingPass below) s (fun t => t.hbm.pending = [] ∧ t.hbm.passDue = false ∧
      Frame [] [.hbm] (below.map (fun j => (0x0F07, [.w4 j.val]))) s t)) ∧
  (∀ (s : State) (counts ports : List Nat), counts.length = 128 → 4 * sumL counts < 128 * maxL counts → s.hbm.hot = 999 →
    s.hbm.hotDone = false → s.on Fd.HBM_CTRL_HOT_EN = true → Does (.hotWindow counts ports) s (fun t => t.hbm.hot = 1000 ∧
      t.hbm.hotDone = true ∧ t.get Fd.HBM_HOT_PC = argMax counts % 2 ^ Fd.HBM_HOT_PC.width ∧
      t.get Fd.HBM_HOT_RATIO = min 65535 (16 * 128 * maxL counts / sumL counts) ∧ t.eseq = s.eseq + 1 ∧ SameMem s t)) ∧
  (∀ (s : State) (r : Bool), s.run = false → Does (.srReq r) s (fun t => t.get Fd.HBM_SR_REQ = b2n r ∧
    Frame [Fd.HBM_SR_REQ] [] [] s t)) ∧
  (∀ s : State, s.run = true → Does (.srReq true) s (fun t => Frame [] [] [(0x0F0B, [])] s t)) ∧
  (∀ s : State, s.on Fd.HBM_SR_REQ = true → s.run = false → s.get Fd.HBM_STATUS_SR = 0 →
    Does .selfRefreshEntry s (fun t => t.get Fd.HBM_STATUS_SR = 2 ∧ t.hbm.owed = [] ∧
      Frame [Fd.HBM_STATUS_SR] [.hbm] [(0x0F08, [])] s t)) ∧
  (∀ (s : State) (ns : BitVec 16) (ms : Nat), s.get Fd.HBM_STATUS_SR ≠ 0 → s.hbm.waiting = [] →
    Does (.selfRefreshExit ns ms) s (fun t => t.get Fd.HBM_STATUS_SR = 0 ∧ t.get Fd.HBM_SR_LAT = ns.toNat ∧
      t.hbm.passDue = (s.hbm.passDue || decide (s.get Fd.HBM_RETRAIN_MS < ms)) ∧
      Frame [Fd.HBM_STATUS_SR, Fd.HBM_SR_LAT] [.hbm] [(0x0F09, [.w4 ns.toNat])] s t)) ∧
  (∀ s : State, s.get Fd.HBM_SCRUB_HOURS ≠ 0 → s.get Fd.HBM_STATUS_SR = 0 → Does .scrubPass s (fun t =>
    t.hbm.scrub = s.hbm.scrub + 1 ∧ Frame [] [.hbm] [(0x0F0C, [.w4 (s.hbm.scrub + 1)])] s t))

/-- BEAT_RELEASE while stream time does not run only moves the ingest clock on. While it runs, with no landing or decision point on
its way and every later unit idle, the next sample is 16 ticks on, and ST_NOW reads the beat that left. A released sample lies in
its channel's replay ring at the place its stream time gives; a channel that is UP releases the placed words with the flags of
the spans that cover the tick, one that is OFF releases nothing, and any other channel but DOWN releases zeros with ING. -/
def Obligations.BeatReleaseMovesStreamTimeOn : Prop :=
  (∀ (s : State) (b : List (List (Code16 × Code16))), s.sys.counting = false → s.ing.upDue = 0 →
    Does (.beatRelease b) s (fun t => t.ing = { s.ing with iclk := s.ing.iclk + 1 } ∧ Frame [] [.ing] [] s t)) ∧
  (∀ (s : State) (b : List (List (Code16 × Code16))) (l : Tick), s.sys.counting = true → s.scr.pb = none → s.ing.upDue = 0 →
    s.sys.decided = some l → (∀ k, k < 16 → tadd s.sys.next k ≠ l) → (∀ c, c < 4 → s.chan c = 0) → s.dsp = DspSt.init →
    s.trg.cmp = [] → s.past = [] → s.get Fd.TRG_CTRL_EN = 0 → s.hoop = [] → s.wvr = WvrSt.init →
    engState s 0 = 0 → engState s 1 = 0 → s.get Fd.SCR_STATUS_STATE ≠ 1 →
    Does (.beatRelease b) s (fun t => t.sys.next = tadd s.sys.next 16 ∧ t.sys.counting = true ∧
      t.rd64 0x100 = floorTo 16 s.sys.next.toNat ∧ t.ing.iclk = s.ing.iclk + 1 ∧ t.sys.pend = s.sys.pend ∧
      t.eseq = s.eseq ∧ SameMem s t)) ∧
  (∀ (s : State) (c : Nat) (x : Samp), c < 4 →
    (releaseTo c x s).stream c = x :: s.stream c ∧ Holds (releaseTo c x s) (replaySlot s c x).1 (replaySlot s c x).2 ∧
    0x17FE000000 + c * 0x400000 ≤ (replaySlot s c x).1 ∧
    (replaySlot s c x).1 + (replaySlot s c x).2.length ≤ 0x17FE000000 + (c + 1) * 0x400000 ∧
    (∀ a, (a < (replaySlot s c x).1 ∨ (replaySlot s c x).1 + (replaySlot s c x).2.length ≤ a) → a ≠ flagSlot s c x.t →
      Memory.byte (releaseTo c x s).mem a = Memory.byte s.mem a)) ∧
  (∀ (s : State) (c : Nat) (t : Tick) (raw : Code16 × Code16), s.scr.pb = none →
    releasedSample s c t raw = (if s.chan c = 0 then none
      else if s.chan c = 2 then
        some ⟨t, placed s raw.1, if s.isComplex then placed s raw.2 else 0, spanFlags s (2 ^ c) t t, 0⟩
      else if s.chan c = 3 ∧ (s.ing.zeroFrom.find? (fun z => z.1 == c)).any (fun z => tlt t z.2) = true then
        some ⟨t, placed s raw.1, if s.isComplex then placed s raw.2 else 0, spanFlags s (2 ^ c) t t, 0⟩
      else some ⟨t, 0, 0, Nat.lor (spanFlags s (2 ^ c) t t) Df.ing, 0⟩))

/-- Each of the five action commands takes an entry of the pending store, to act at a landing; asked again before it is
taken, the entry only takes a new place in the order of arrival; a full store discards it, sets LAND_CTRL.OVF and raises event
0x0016 with the register's offset. ARM of a unit that arms itself, or that is ARMED, does nothing. -/
def Obligations.ActionsWaitForALanding : Prop :=
  (∀ (s : State) (c : Instr) (off lo : Nat), actionOf s c = some (off, lo) → s.sys.pend.length < 4096 →
    s.sys.pend.any (fun p => p.same .action off lo) = false → Does c s (fun t =>
      t.sys = { s.sys with
        pend := s.sys.pend ++ [⟨s.sys.arrivals, .action, off, lo, 1, 1, false⟩], arrivals := s.sys.arrivals + 1 } ∧
      t.get Fd.SYS_LAND_CTRL_COUNT = s.sys.pend.length + 1 ∧
      Frame [Fd.SYS_LAND_CTRL_COUNT, Fd.SYS_NEXT_LAND_LO, Fd.SYS_NEXT_LAND_HI] [.sys] [] s t)) ∧
  (∀ (s : State) (c : Instr) (off lo : Nat), actionOf s c = some (off, lo) →
    s.sys.pend.any (fun p => p.same .action off lo) = true → Does c s (fun t =>
      t.sys.pend = s.sys.pend.filter (fun p => !p.same .action off lo) ++ [⟨s.sys.arrivals, .action, off, lo, 1, 1, false⟩] ∧
      Frame [] [.sys] [] s t)) ∧
  (∀ (s : State) (c : Instr) (off lo : Nat), actionOf s c = some (off, lo) → 4096 ≤ s.sys.pend.length →
    s.sys.pend.any (fun p => p.same .action off lo) = false → Does c s (fun t => t.get Fd.SYS_LAND_CTRL_OVF = 1 ∧
      Frame [Fd.SYS_LAND_CTRL_OVF] [] [(0x0016, [.w4 off])] s t)) ∧
  (∀ (s : State) (tu : Fin 8), s.on (Fd.TU_CTRL_ARMMODE tu.val) = true ∨ (s.tu tu.val).st = .armed →
    exec (.arm tu) s = .next s)

/-- SPX_FRAME with a frame ready and no consumer enabled delivers the computed frame, with SETTLING and TAIL from its marks. An
access to UWIN_DATA moves UWIN_ADDR on, 32,768 being followed by 0; a write sets that entry to the low 20 bits, or is discarded with
event 0x0506 while WIN = 12 is in use. An access to MASK_DATA moves MASK_ADDR on modulo 32,768 and shows the next point; a write
sets the point, or is discarded with event 0x0608 while its bank is in use. -/
def Obligations.FramesAndDataPorts : Prop :=
  (∀ (s : State) (ch : Fin 4) (g : SpxSeg) (t0 : Tick), readyFrame s ch.val = some (g, t0) → s.past = [] → s.spx.traces = [] →
    (∀ k, k < 4 → s.get (Fd.TR_TCTRL_EN ch.val k) = 0) → s.get Fd.TRG_CTRL_EN = 0 → s.hoop = [] → s.den = DenAll.init →
    s.get (Fd.SG_CTRL_EN ch.val) = 0 → Does (.spxFrame ch) s (fun t =>
      look [] t.spx.frames ch.val = (computeFrame s ch.val g t0).1 :: look [] s.spx.frames ch.val ∧
      t.on (Fd.SPX_STATUS_TAIL ch.val) = bit (computeFrame s ch.val g t0).1.marks 1 ∧ SameMem s t)) ∧
  (∀ s : State, Does (.uwinData none) s (fun t =>
    t.get Fd.SPXG_UWIN_ADDR = (if s.get Fd.SPXG_UWIN_ADDR = 32768 then 0 else s.get Fd.SPXG_UWIN_ADDR + 1) % 65536 ∧
    Frame [Fd.SPXG_UWIN_ADDR] [] [] s t)) ∧
  (∀ (s : State) (w : Word), uwinInUse s = false → Does (.uwinData (some w)) s (fun t =>
    (Assoc.get 0#32 t.spx.uwin (s.get Fd.SPXG_UWIN_ADDR)).toNat = w.toNat % 2 ^ 20 ∧
    t.get Fd.SPXG_UWIN_ADDR = (if s.get Fd.SPXG_UWIN_ADDR = 32768 then 0 else s.get Fd.SPXG_UWIN_ADDR + 1) % 65536 ∧
    Frame [Fd.SPXG_UWIN_ADDR] [.spx] [] s t)) ∧
  (∀ (s : State) (w : Word), uwinInUse s = true → Does (.uwinData (some w)) s (fun t =>
    t.get Fd.SPXG_UWIN_ADDR = (if s.get Fd.SPXG_UWIN_ADDR = 32768 then 0 else s.get Fd.SPXG_UWIN_ADDR + 1) % 65536 ∧
    Frame [Fd.SPXG_UWIN_ADDR] [] [(0x0506, [.w4 0x61004])] s t)) ∧
  (∀ s : State, Does (.maskData none) s (fun t => t.get Fd.TRG_MASK_ADDR = (s.get Fd.TRG_MASK_ADDR + 1) % 32768 ∧
    t.get Fd.TRG_MASK_DATA = (Assoc.get 0x7FFF8000#32 s.trg.mask ((s.get Fd.TRG_MASK_ADDR + 1) % 32768)).toNat ∧
    Frame [Fd.TRG_MASK_ADDR, Fd.TRG_MASK_DATA] [] [] s t)) ∧
  (∀ (s : State) (w : Word), bankInUse s (s.get Fd.TRG_MASK_ADDR / 8192) (s.get Fd.TRG_MASK_ADDR / 4096 % 2) = false →
    Does (.maskData (some w)) s (fun t => Assoc.get 0x7FFF8000#32 t.trg.mask (s.get Fd.TRG_MASK_ADDR) = w ∧
      t.get Fd.TRG_MASK_ADDR = (s.get Fd.TRG_MASK_ADDR + 1) % 32768 ∧
      t.get Fd.TRG_MASK_DATA = (Assoc.get 0x7FFF8000#32 t.trg.mask ((s.get Fd.TRG_MASK_ADDR + 1) % 32768)).toNat ∧
      Frame [Fd.TRG_MASK_ADDR, Fd.TRG_MASK_DATA] [.trg] [] s t)) ∧
  (∀ (s : State) (w : Word), bankInUse s (s.get Fd.TRG_MASK_ADDR / 8192) (s.get Fd.TRG_MASK_ADDR / 4096 % 2) = true →
    Does (.maskData (some w)) s (fun t => t.get Fd.TRG_MASK_ADDR = (s.get Fd.TRG_MASK_ADDR + 1) % 32768 ∧
      Frame [Fd.TRG_MASK_ADDR, Fd.TRG_MASK_DATA] [] [(0x0608, [.w4 (s.get Fd.TRG_MASK_ADDR)])] s t))

/-- A TRIG_IN edge of the selected kind while stream time runs becomes an event at the tick of its level plus TIN.OFF, with HLD if
that tick is in holdover; with stream time stopped only the level is noted, and an unchanged level changes nothing. A fabric
message at or after the horizon becomes an event at its stream time with its flags; an earlier one becomes an event at the horizon
with FAB and LATE, reported as 0x0604. An event of a selected external source is logged in 16 bytes at XLOG_WR, which moves on;
a full ring sets OVF with event 0x0609. -/
def Obligations.TriggerInputsArePlacedOnStreamTime : Prop :=
  (∀ (s : State) (n : Fin 4) (v : Bool) (ph : Fin 16), (look TinSt.empty s.trg.tins n.val).level ≠ v → s.sys.counting = true →
    s.on Fd.TRG_XLOG_STATUS_PLAYBACK = false → srcOn s (0x19 + n.val) (tadd s.sys.next ph.val) = true →
    (s.get (Fd.TIN_CFG_EDGE n.val) = 2 ∨ s.get (Fd.TIN_CFG_EDGE n.val) = (if v then 0 else 1)) →
    (look TinSt.empty s.trg.tins n.val).lastEv = none → srcSelected s (0x19 + n.val) = false →
    Does (.trigInEdge n v ph) s (fun t =>
      (∃ fl, (t.src (0x19 + n.val)).evs =
        ⟨tmove (tadd s.sys.next ph.val) (s.getI (Fd.TIN_OFF n.val)), fl, false, false, 0⟩ :: (s.src (0x19 + n.val)).evs) ∧
      look TinSt.empty t.trg.tins n.val = ⟨v, some (tadd s.sys.next ph.val)⟩ ∧ Frame [] [.trg] [] s t)) ∧
  (∀ (s : State) (n : Fin 4) (v : Bool) (ph : Fin 16), (look TinSt.empty s.trg.tins n.val).level ≠ v →
    s.sys.counting = false → Does (.trigInEdge n v ph) s (fun t =>
      (look TinSt.empty t.trg.tins n.val).level = v ∧ t.trg.src = s.trg.src ∧ Frame [] [.trg] [] s t)) ∧
  (∀ (s : State) (n : Fin 4) (v : Bool) (ph : Fin 16), (look TinSt.empty s.trg.tins n.val).level = v →
    exec (.trigInEdge n v ph) s = .next s) ∧
  (∀ (s : State) (line : Fin 16) (t0 : Tick) (fl : BitVec 7), s.sys.counting = true →
    s.on Fd.TRG_XLOG_STATUS_PLAYBACK = false → srcOn s (0x25 + line.val) s.tRel = true → tle (fabHorizon s) t0 = true →
    srcSelected s (0x25 + line.val) = false → Does (.fabricTriggerMessage line t0 fl) s (fun t =>
      (t.src (0x25 + line.val)).evs = ⟨t0, fl.toNat, false, false, 0⟩ :: (s.src (0x25 + line.val)).evs ∧
      Frame [] [.trg] [] s t)) ∧
  (∀ (s : State) (line : Fin 16) (t0 : Tick) (fl : BitVec 7), s.sys.counting = true →
    s.on Fd.TRG_XLOG_STATUS_PLAYBACK = false → srcOn s (0x25 + line.val) s.tRel = true → tle (fabHorizon s) t0 = false →
    srcSelected s (0x25 + line.val) = false → s.sys.windows = [] → Does (.fabricTriggerMessage line t0 fl) s (fun t =>
      (t.src (0x25 + line.val)).evs =
        ⟨fabHorizon s, Nat.lor fl.toNat Df.fab, true, false, 0⟩ :: (s.src (0x25 + line.val)).evs ∧
      Frame [] [.trg, .sys] [(0x0604, [.w4 line.val, .t t0, .t (fabHorizon s)])] s t)) ∧
  (∀ (s : State) (code : Nat) (e : TrgEv), s.run = true → srcSelected s code = true → 2 ≤ s.get Fd.TRG_XLOG_SIZE →
    (s.get Fd.TRG_XLOG_WR + s.get Fd.TRG_XLOG_SIZE - s.get Fd.TRG_XLOG_RD) % s.get Fd.TRG_XLOG_SIZE + 1 ≠
      s.get Fd.TRG_XLOG_SIZE →
    Holds (xlog code e s) (s.rd64 0x70030 + 16 * s.get Fd.TRG_XLOG_WR) (xlogEntry code e) ∧
    (xlog code e s).get Fd.TRG_XLOG_WR = (s.get Fd.TRG_XLOG_WR + 1) % s.get Fd.TRG_XLOG_SIZE % 2 ^ 21 ∧
    StoreFrame (s.rd64 0x70030 + 16 * s.get Fd.TRG_XLOG_WR) 16 [Fd.TRG_XLOG_WR] [.hbm] [] s (xlog code e s)) ∧
  (∀ (s : State) (code : Nat) (e : TrgEv), s.run = true → srcSelected s code = true → 2 ≤ s.get Fd.TRG_XLOG_SIZE →
    (s.get Fd.TRG_XLOG_WR + s.get Fd.TRG_XLOG_SIZE - s.get Fd.TRG_XLOG_RD) % s.get Fd.TRG_XLOG_SIZE + 1 =
      s.get Fd.TRG_XLOG_SIZE →
    (xlog code e s).get Fd.TRG_XLOG_STATUS_OVF = 1 ∧
    Frame [Fd.TRG_XLOG_STATUS_OVF] [] [(0x0609, [.w4 code, .t e.t])] s (xlog code e s))

/-- TRIGGER_UNIT_STEP takes a unit to which nothing happens to the stream time that its sources have reported, and one that has
handled that already stays. A completion below COUNT only counts. A record that finds room goes to the ring's WR slot and WR
moves on; a full ring loses its oldest, counted in LOST. CYK_TIMEOUT stalls a unit that waits on a silent line, with event 0x0602.
TRIG_OUT_EDGE starts the pin's oldest pulse when its start has been released and ends it when its end has. -/
def Obligations.TriggerUnitsFireAndStall : Prop :=
  (∀ (s : State) (tu : Fin 8) (t0 d r : Tick), (s.tu tu.val).done = some d → (s.tu tu.val).st ≠ .stalled →
    tuReported s tu.val (d + 1) = some r → tle (tmin t0 (relPoint s)) d = false →
    tle (tmin (tmin t0 (relPoint s)) r) d = false → tuInstant s tu.val (d + 1) = none →
    Does (.triggerUnitStep tu t0) s (fun t => t.tu tu.val = { s.tu tu.val with done := some (tmin (tmin t0 (relPoint s)) r) } ∧
      Frame [Fd.TU_STATUS_STATE tu.val, Fd.TU_STATUS_QUIESCENT tu.val, Fd.TRG_STATUS_STALLED, Fd.TRG_STATUS_QUIESCENT]
        [.trg] [] s t)) ∧
  (∀ (s : State) (tu : Fin 8) (t0 d : Tick), (s.tu tu.val).done = some d → tle (tmin t0 (relPoint s)) d = true →
    exec (.triggerUnitStep tu t0) s = .next s) ∧
  (∀ (s : State) (n : Fin 8) (t tA : Tick) (code fl : Nat) (e : TrgEv) (late : Bool),
    (s.tu n.val).count + 1 < s.getAt t (Fd.TU_COUNT n.val) →
    (tuComplete n.val t tA code e late fl s).tu n.val = { s.tu n.val with count := (s.tu n.val).count + 1, wait := none } ∧
    Frame [Fd.TU_STATUS_STATE n.val, Fd.TU_STATUS_QUIESCENT n.val, Fd.TRG_STATUS_STALLED, Fd.TRG_STATUS_QUIESCENT] [.trg] []
      s (tuComplete n.val t tA code e late fl s)) ∧
  (∀ (s : State) (x : Trig), 2 ≤ s.get Fd.TRG_RING_SLOTS →
    (s.get Fd.TRG_WR + s.get Fd.TRG_RING_SLOTS - s.get Fd.TRG_RD) % s.get Fd.TRG_RING_SLOTS + 1 ≠ s.get Fd.TRG_RING_SLOTS →
    Holds (trgRingWrite x s) (s.rd64 0x70010 + 32 * s.get Fd.TRG_WR) (trigRecord x) ∧
    (trgRingWrite x s).get Fd.TRG_WR = (s.get Fd.TRG_WR + 1) % s.get Fd.TRG_RING_SLOTS % 2 ^ 21 ∧
    StoreFrame (s.rd64 0x70010 + 32 * s.get Fd.TRG_WR) 32 [Fd.TRG_WR] [.hbm] [] s (trgRingWrite x s)) ∧
  (∀ (s : State) (x : Trig), 2 ≤ s.get Fd.TRG_RING_SLOTS →
    (s.get Fd.TRG_WR + s.get Fd.TRG_RING_SLOTS - s.get Fd.TRG_RD) % s.get Fd.TRG_RING_SLOTS + 1 = s.get Fd.TRG_RING_SLOTS →
    (trgRingWrite x s).get Fd.TRG_RD = (s.get Fd.TRG_RD + 1) % s.get Fd.TRG_RING_SLOTS % 2 ^ 21 ∧
    (trgRingWrite x s).get Fd.TRG_LOST = min (s.get Fd.TRG_LOST + 1) (2 ^ 32 - 1) ∧
    Holds (trgRingWrite x s) (s.rd64 0x70010 + 32 * s.get Fd.TRG_WR) (trigRecord x)) ∧
  (∀ (s : State) (tu : Fin 8) (m : Nat), tuWaitsOn s tu.val = some m → (s.tu tu.val).st ≠ .off → (s.tu tu.val).st ≠ .stalled →
    Does (.cykTimeout tu) s (fun t => t.tu tu.val = { s.tu tu.val with st := .stalled, wait := none, count := 0 } ∧
      t.get (Fd.TU_STATUS_STATE tu.val) = 4 ∧ t.onBit Fd.TRG_STATUS_STALLED tu.val = true ∧
      Frame [Fd.TU_STATUS_STATE tu.val, Fd.TU_STATUS_QUIESCENT tu.val, Fd.TRG_STATUS_STALLED, Fd.TRG_STATUS_QUIESCENT] [.trg]
        [(0x0602, [.w4 tu.val, .w4 m, .t ((s.tu tu.val).done.getD 0)])] s t)) ∧
  (∀ (s : State) (k : Fin 4) (p : Tick × Tick) (rest : List (Tick × Tick)), (s.tout k.val).queue = p :: rest →
    (s.tout k.val).inPulse = false → tle p.1 s.tRel = true → Does (.trigOutEdge k) s (fun t =>
      t.tout k.val = ⟨p :: rest, true, toutLevel s k.val p.1 true⟩ ∧ Frame [] [.trg] [] s t)) ∧
  (∀ (s : State) (k : Fin 4) (p : Tick × Tick) (rest : List (Tick × Tick)), (s.tout k.val).queue = p :: rest →
    (s.tout k.val).inPulse = true → tle p.2 s.tRel = true → Does (.trigOutEdge k) s (fun t =>
      t.tout k.val = ⟨rest, false, toutLevel s k.val p.2 false⟩ ∧ Frame [] [.trg] [] s t))

/-- ELEMENT_COMMIT of an armed writer outside a record stores the next delivered element at BASE plus slot plus fill index modulo
S_cap, and moves the fill on by one; nothing else of memory changes. RECORD_HEADER_WRITE writes the oldest waiting header at its
place, counts RECORDS and raises 0x0702, or 0x0707 with the cause of a record that was closed. HOOP_GEOMETRY_WRITE of a writer
that is OFF or DONE takes the clamped geometry at once; of any other it is held, with PENDING, until a landing. -/
def Obligations.HoopWritesElementsAndHeaders : Prop :=
  (∀ (s : State) (w : Fin 8) (e : Elem), (s.hw w.val).acts = [] → nextElem s w.val = some e →
    (unitsReported s w.val e.t || stagingFull s w.val) = true → mapped s w.val (s.hw w.val).last e.t = [] →
    (s.hw w.val).st = .armed → tlt e.t (s.hw w.val).start = false → (s.hw w.val).rec' = none → (s.hw w.val).armEv = none →
    Does (.elementCommit w) s (fun t =>
      let h := s.hw w.val
      let g := hwGeom s w.val
      let sz := elemSize s h.kind h.idx
      let a := g.base + h.slot * g.slotBytes + h.k % max 1 (g.cap sz) * sz
      Holds t a e.bytes ∧ t.hw w.val = { h with last := e.t, k := h.k + 1, fill := e :: h.fill } ∧
      StoreFrame a e.bytes.length [] [.hoop, .hbm] [] s t)) ∧
  (∀ (s : State) (w : Fin 8) (e : Elem), (s.hw w.val).acts = [] → nextElem s w.val = some e →
    (unitsReported s w.val e.t || stagingFull s w.val) = true → mapped s w.val (s.hw w.val).last e.t = [] →
    (s.hw w.val).st = .off → Does (.elementCommit w) s (fun t =>
      t.hw w.val = { s.hw w.val with last := e.t } ∧ Frame [] [.hoop] [] s t)) ∧
  (∀ (s : State) (w : Fin 8) (d : HwHeader) (rest : List HwHeader), (s.hw w.val).headers = d :: rest →
    Does (.recordHeaderWrite w) s (fun t => Holds t d.addr d.bytes ∧ t.hw w.val = { s.hw w.val with headers := rest } ∧
      t.get (Fd.HW_RECORDS w.val) = min (s.get (Fd.HW_RECORDS w.val) + 1) (2 ^ 32 - 1) ∧
      SameMemBut d.addr d.bytes.length s t ∧
      (d.fl = 0 → StoreFrame d.addr d.bytes.length [Fd.HW_RECORDS w.val, Fd.HW_STATUS_STATE w.val, Fd.HW_STATUS_QUIESCENT w.val,
        Fd.HOOP_STATUS_ACTIVE, Fd.HOOP_TOTAL, Fd.HOOP_STATUS_QUIESCENT] [.hoop, .hbm, .scr]
        [match d.cause with
          | none => (0x0702, [.w4 w.val, .w4 d.rseq, .t d.tTrig])
          | some c => (0x0707, [.w4 w.val, .w4 d.rseq, .w4 c])] s t))) ∧
  (∀ (s : State) (w : Fin 8) (f : Fin 6) (v : Nat), (s.hw w.val).st = .off ∨ (s.hw w.val).st = .done →
    Does (.hoopGeometryWrite w f v) s (fun t =>
      let r := ((hwGeom s w.val).with f.val v).clampAll (hwElemSize s w.val) f.val
      t.rd64 (hwAt w.val 0x08) = r.1.base % 2 ^ 64 ∧ t.get (Fd.HW_SIZE w.val) = r.1.size % 2 ^ 17 ∧
      t.get (Fd.HW_NSEG w.val) = r.1.nseg % 2 ^ 17 ∧ t.get (Fd.HW_PRE w.val) = r.1.pre % 2 ^ 32 ∧
      t.get (Fd.HW_POST w.val) = r.1.post % 2 ^ 32 ∧ t.rd64 (hwAt w.val 0x20) = r.1.hdr % 2 ^ 64 ∧
      t.get Fd.SYS_CLAMP_COUNT = min (s.get Fd.SYS_CLAMP_COUNT + r.2) (2 ^ Fd.SYS_CLAMP_COUNT.width - 1) ∧
      t.hoop = s.hoop ∧ t.eseq = s.eseq ∧ SameMem s t)) ∧
  (∀ (s : State) (w : Fin 8) (f : Fin 6) (v : Nat), (s.hw w.val).st ≠ .off → (s.hw w.val).st ≠ .done →
    Does (.hoopGeometryWrite w f v) s (fun t =>
      let r := ((hwHeld s w.val).with f.val v).clampAll (hwElemSize s w.val) f.val
      t.rd64 (hwAt w.val 0x48) = r.1.base % 2 ^ 64 ∧ t.get (Fd.HW_PSIZE w.val) = r.1.size % 2 ^ 17 ∧
      t.get (Fd.HW_PNSEG w.val) = r.1.nseg % 2 ^ 17 ∧ t.get (Fd.HW_PPRE w.val) = r.1.pre % 2 ^ 32 ∧
      t.get (Fd.HW_PPOST w.val) = r.1.post % 2 ^ 32 ∧ t.rd64 (hwAt w.val 0x60) = r.1.hdr % 2 ^ 64 ∧
      t.hw w.val = { s.hw w.val with ready := some (nextLanding s) } ∧ t.get (Fd.HW_STATUS_PENDING w.val) = 1 ∧
      Frame [Fd.SYS_CLAMP_COUNT, Fd.HW_PBASE_LO w.val, Fd.HW_PBASE_HI w.val, Fd.HW_PSIZE w.val, Fd.HW_PNSEG w.val,
        Fd.HW_PPRE w.val, Fd.HW_PPOST w.val, Fd.HW_PHDR_BASE_LO w.val, Fd.HW_PHDR_BASE_HI w.val,
        Fd.HW_STATUS_PENDING w.val] [.hoop] [] s t))

/-- A due DENSITY_PASS of an enabled channel without snapshot or restart multiplies every counter by DMUL / 65,536 and keeps those
that are not zero; with a snapshot and DMUL = 65,536 it copies the plane to the channel's snapshot store and nowhere else, and
counts SNAP_SEQ up to odd; a channel that was off only moves past the pass. SNAPSHOT_COPY_END counts SNAP_SEQ up again and raises
event 0x0802 with the pass; PASS_WALK_END ends a walk without a copy. -/
def Obligations.DensityPassesDecayAndSnapshot : Prop :=
  (∀ (s : State) (ch : Fin 4) (p : Tick), nextPass (s.denCh ch.val) (s.denCh ch.val).cur = p →
    (s.sys.counting || s.sys.draining) = true → tle (p - 1) (framesThrough s ch.val) = true → tle p s.tRel = true →
    s.past = [] → (s.denCh ch.val).walk = none → denOn (s.denCh ch.val) (p - 1) = true → (s.denCh ch.val).restarts = [] →
    s.get (Fd.DEN_PASS_SNAPDIV ch.val) = 0 → s.get (Fd.DEN_DMUL ch.val) < 65536 →
    Does (.densityPass ch) s (fun t =>
      (t.denCh ch.val).plane = ((s.denCh ch.val).plane.map
        (fun e => (e.1, e.2 * s.get (Fd.DEN_DMUL ch.val) / 65536))).filter (fun e => e.2 != 0) ∧
      (t.denCh ch.val).cur = p ∧ (t.denCh ch.val).walk = some none ∧ t.get (Fd.DEN_STATUS_WALKING ch.val) = 1 ∧
      Frame [Fd.DEN_STATUS_GAP ch.val, Fd.DEN_STATUS_RUNNING ch.val, Fd.DEN_STATUS_WALKING ch.val,
        Fd.DEN_STATUS_QUIESCENT ch.val, Fd.DENG_STATUS_QUIESCENT] [.den] [] s t)) ∧
  (∀ (s : State) (ch : Fin 4) (p : Tick), nextPass (s.denCh ch.val) (s.denCh ch.val).cur = p →
    (s.sys.counting || s.sys.draining) = true → tle (p - 1) (framesThrough s ch.val) = true → tle p s.tRel = true →
    s.past = [] → (s.denCh ch.val).walk = none → denOn (s.denCh ch.val) (p - 1) = true → (s.denCh ch.val).restarts = [] →
    s.get (Fd.DEN_PASS_SNAPDIV ch.val) ≠ 0 →
    p.toNat / 2 ^ passLog (s.denCh ch.val) p % s.get (Fd.DEN_PASS_SNAPDIV ch.val) = 0 → s.get (Fd.DEN_DMUL ch.val) = 65536 →
    (∀ e ∈ (s.denCh ch.val).plane, e.1 < 2 ^ 22) → Does (.densityPass ch) s (fun t =>
      (t.denCh ch.val).plane = (s.denCh ch.val).plane ∧ (t.denCh ch.val).walk = some (some p) ∧
      t.get (Fd.DEN_SNAP_SEQ ch.val) = (s.get (Fd.DEN_SNAP_SEQ ch.val) + 1) % 2 ^ 32 ∧
      t.rd64 (0x90020 + 0x100 * ch.val) = p.toNat ∧
      t.get (Fd.DEN_SNAP_INFO_FLAGS ch.val) = s.get (Fd.DEN_PFLAGS ch.val) % 256 ∧ t.eseq = s.eseq ∧
      SameMemBut (0x010006000000 + ch.val * 0x800000) 0x800000 s t)) ∧
  (∀ (s : State) (ch : Fin 4) (p : Tick), nextPass (s.denCh ch.val) (s.denCh ch.val).cur = p →
    (s.sys.counting || s.sys.draining) = true → tle (p - 1) (framesThrough s ch.val) = true → tle p s.tRel = true →
    (s.denCh ch.val).walk = none → denOn (s.denCh ch.val) (p - 1) = false → Does (.densityPass ch) s (fun t =>
      (t.denCh ch.val).cur = p ∧ (t.denCh ch.val).plane = (s.denCh ch.val).plane ∧ Frame [] [.den] [] s t)) ∧
  (∀ (s : State) (ch : Fin 4) (p : Tick), (s.denCh ch.val).walk = some (some p) → Does (.snapshotCopyEnd ch) s (fun t =>
    (t.denCh ch.val).walk = none ∧ t.get (Fd.DEN_SNAP_SEQ ch.val) = (s.get (Fd.DEN_SNAP_SEQ ch.val) + 1) % 2 ^ 32 ∧
    t.get (Fd.DEN_STATUS_WALKING ch.val) = 0 ∧
    Frame [Fd.DEN_SNAP_SEQ ch.val, Fd.DEN_STATUS_GAP ch.val, Fd.DEN_STATUS_RUNNING ch.val, Fd.DEN_STATUS_WALKING ch.val,
      Fd.DEN_STATUS_QUIESCENT ch.val, Fd.DENG_STATUS_QUIESCENT] [.den]
      [(0x0802, [.w4 ch.val, .t p, .w4 ((s.get (Fd.DEN_SNAP_SEQ ch.val) + 1) % 2 ^ 32)])] s t)) ∧
  (∀ (s : State) (ch : Fin 4), (s.denCh ch.val).walk = some none → Does (.passWalkEnd ch) s (fun t =>
    (t.denCh ch.val).walk = none ∧ t.get (Fd.DEN_STATUS_WALKING ch.val) = 0 ∧
    Frame [Fd.DEN_STATUS_GAP ch.val, Fd.DEN_STATUS_RUNNING ch.val, Fd.DEN_STATUS_WALKING ch.val,
      Fd.DEN_STATUS_QUIESCENT ch.val, Fd.DENG_STATUS_QUIESCENT] [.den] [] s t))

/-- GAL_ENABLE latches generation 0, clears both sequence counters and makes frame 1 next; GAL_DISABLE clears EN and is quiescent at
once if the frame has retired. COMMIT arms the shadow sets of the panes named. LATCH of a frame in progress takes every armed set
and shows its number; FRAME_RETIRE of an aborted frame shows its number, with event 0x0909 if asked for. LINE_START of a line whose
data has arrived shows LINE and sends HACT pixels; one without its data aborts the frame with event 0x0905. An access to PAL_DATA
moves PAL_ADDR on; a write to a bank in use is discarded with event 0x0907. -/
def Obligations.GalleryFramesLatchAndRetire : Prop :=
  (∀ s : State, s.on Fd.GAL_CTRL_EN = false → Does .galEnable s (fun t => t.on Fd.GAL_CTRL_EN = true ∧
    t.get Fd.GAL_LATCH_SEQ = 0 ∧ t.get Fd.GAL_RETIRE_SEQ = 0 ∧ t.get Fd.GAL_STATUS_QUIESCENT = 0 ∧ t.gal.frame = 1 ∧
    t.gal.begun = false ∧ (s.on Fd.GAL_STATUS_HPD = true → t.gal.training = true) ∧ SameMem s t)) ∧
  (∀ s : State, s.on Fd.GAL_CTRL_EN = true → Does .galDisable s (fun t => t.on Fd.GAL_CTRL_EN = false ∧
    (s.gal.begun = true → s.gal.retired = true → t.get Fd.GAL_STATUS_QUIESCENT = 1) ∧
    Frame [Fd.GAL_CTRL_EN, Fd.GAL_STATUS_QUIESCENT] [] [] s t)) ∧
  (∀ (s : State) (m : BitVec 8), Does (.commit m) s (fun t =>
    (∀ k, k < 8 → t.pane k = if bit m.toNat k then { s.pane k with armed := some (shadowWords s k) } else s.pane k) ∧
    t.get Fd.GAL_ARMED = Nat.lor (s.get Fd.GAL_ARMED) m.toNat ∧ Frame [Fd.GAL_ARMED] [.gal] [] s t)) ∧
  (∀ s : State, s.gal.begun = true → s.gal.latched = false → Does .latch s (fun t => t.gal.latched = true ∧
    t.get Fd.GAL_LATCH_SEQ = s.gal.frame % 2 ^ 32 ∧ t.get Fd.GAL_ARMED = 0 ∧ (∀ k, k < 8 → (t.pane k).armed = none) ∧
    t.eseq = s.eseq ∧ SameMem s t)) ∧
  (∀ s : State, s.gal.begun = true → s.gal.retired = false → s.gal.aborted = true → Does .frameRetire s (fun t =>
    t.get Fd.GAL_RETIRE_SEQ = s.gal.frame % 2 ^ 32 ∧ t.gal = { s.gal with retired := true } ∧
    Frame [Fd.GAL_RETIRE_SEQ, Fd.GAL_STATUS_QUIESCENT] [.gal]
      (if s.on Fd.GAL_CTRL_RETIRE_EVT then [(0x0909, [.w4 s.gal.frame])] else []) s t)) ∧
  (∀ s : State, s.gal.begun = true → s.gal.retired = false → s.gal.aborted = false →
    s.get Fd.GAL_VTIM0_VACT ≤ s.get Fd.GAL_LINE + 9 → Does .frameRetire s (fun t =>
    t.get Fd.GAL_RETIRE_SEQ = s.gal.frame % 2 ^ 32 ∧ t.gal.retired = true ∧ t.gal.frame = s.gal.frame ∧ SameMem s t)) ∧
  (∀ (s : State) (y : BitVec 12), y.toNat ≠ 0 → y.toNat < s.get Fd.GAL_VTIM0_VACT → s.on Fd.GAL_STATUS_QUIESCENT = false →
    s.gal.begun = true → s.gal.aborted = false → Does (.lineStart y true) s (fun t => t.get Fd.GAL_LINE = y.toNat ∧
      t.gal.scan.length = s.get Fd.GAL_HTIM0_HACT ∧ t.gal.frame = s.gal.frame ∧ SameRegs [Fd.GAL_LINE] s t ∧
      t.eseq = s.eseq ∧ SameMem s t)) ∧
  (∀ (s : State) (y : BitVec 12), y.toNat ≠ 0 → y.toNat < s.get Fd.GAL_VTIM0_VACT → s.on Fd.GAL_STATUS_QUIESCENT = false →
    s.gal.begun = true → s.gal.aborted = false → (List.range 8).any (fun k => paneFetched s k y.toNat) = true →
    s.gal.fetched ≤ y.toNat → s.gal.latched = true → Does (.lineStart y false) s (fun t => t.gal = { s.gal with aborted := true } ∧
      t.get Fd.GAL_UNDERRUNS = min (s.get Fd.GAL_UNDERRUNS + 1) (2 ^ 32 - 1) ∧
      Frame [Fd.GAL_LINE, Fd.GAL_UNDERRUNS] [.gal] [(0x0905, [.w4 s.gal.frame, .w4 y.toNat])] s t)) ∧
  (∀ s : State, Does (.palData none) s (fun t => t.get Fd.GAL_PAL_ADDR = (s.get Fd.GAL_PAL_ADDR + 1) % 16384 ∧
    t.get Fd.GAL_PAL_DATA = (Assoc.get 0#32 s.gal.pal ((s.get Fd.GAL_PAL_ADDR + 1) % 16384)).toNat ∧
    Frame [Fd.GAL_PAL_ADDR, Fd.GAL_PAL_DATA] [] [] s t)) ∧
  (∀ (s : State) (w : Word), palInUse s (s.get Fd.GAL_PAL_ADDR / 2048) (s.get Fd.GAL_PAL_ADDR / 1024 % 2) = false →
    Does (.palData (some w)) s (fun t => Assoc.get 0#32 t.gal.pal (s.get Fd.GAL_PAL_ADDR) = w ∧
      t.get Fd.GAL_PAL_ADDR = (s.get Fd.GAL_PAL_ADDR + 1) % 16384 ∧ Frame [Fd.GAL_PAL_ADDR, Fd.GAL_PAL_DATA] [.gal] [] s t)) ∧
  (∀ (s : State) (w : Word), palInUse s (s.get Fd.GAL_PAL_ADDR / 2048) (s.get Fd.GAL_PAL_ADDR / 1024 % 2) = true →
    Does (.palData (some w)) s (fun t => t.get Fd.GAL_PAL_ADDR = (s.get Fd.GAL_PAL_ADDR + 1) % 16384 ∧
      Frame [Fd.GAL_PAL_ADDR, Fd.GAL_PAL_DATA] [] [(0x0907, [.w4 (s.get Fd.GAL_PAL_ADDR)])] s t))

/-- HPD_CONNECT sets HPD with event 0x0901, shows the sink's DPCD and EDID words, judges the EDID by its header and the AUX
transactions, and trains the link if Gallery is enabled. HPD_UNPLUG takes HPD and the link down with event 0x0902. IRQ_HPD of a
lost link, and RETRAIN, train it again while a sink is plugged and do nothing else. A training ends with the link up at the lanes
and rate found (0x0903), with every attempt failed (0x0904, 1), or without the bandwidth (0x0904, 2). -/
def Obligations.GalleryLinkFollowsTheSink : Prop :=
  (∀ (s : State) (dpcd edid : List Byte) (aux : Bool), Does (.hpdConnect dpcd edid aux) s (fun t =>
    t.on Fd.GAL_STATUS_HPD = true ∧ (∀ i, i < 4 → t.rd (0xA0100 + 4 * i) = fieldAt dpcd (4 * i) 4) ∧
    (∀ i, i < 64 → t.rd (0xA0200 + 4 * i) = fieldAt edid (4 * i) 4) ∧
    t.on Fd.GAL_STATUS_EDID_VALID = (aux && edid.take 8 == [0x00, 0xFF, 0xFF, 0xFF, 0xFF, 0xFF, 0xFF, 0x00]) ∧
    t.gal.training = (s.on Fd.GAL_CTRL_EN || s.gal.training) ∧ Raises [(0x0901, [])] s t ∧ SameMem s t)) ∧
  (∀ s : State, s.on Fd.GAL_STATUS_HPD = true → Does .hpdUnplug s (fun t => t.on Fd.GAL_STATUS_HPD = false ∧
    t.on Fd.GAL_STATUS_LINK_UP = false ∧ t.gal = { s.gal with training := false } ∧
    Frame [Fd.GAL_STATUS_HPD, Fd.GAL_STATUS_LINK_UP] [.gal] [(0x0902, [])] s t)) ∧
  (∀ (s : State) (c : Instr), c = .irqHpd true ∨ c = .retrain → s.on Fd.GAL_STATUS_HPD = true → Does c s (fun t =>
    t.gal = { s.gal with training := true } ∧ t.on Fd.GAL_STATUS_LINK_UP = false ∧
    Frame [Fd.GAL_STATUS_LINK_UP, Fd.GAL_STATUS_TRAIN_FAIL, Fd.GAL_STATUS_BW_SHORT] [.gal] [] s t)) ∧
  (∀ (s : State) (c : Instr), (c = .irqHpd false ∨ ((c = .irqHpd true ∨ c = .retrain) ∧ s.on Fd.GAL_STATUS_HPD = false)) →
    exec c s = .next s) ∧
  (∀ (s : State) (l : Fin 3) (r : Fin 4) (steps : List TrainStep), s.gal.training = true →
    Does (.linkTrainingEnd l r steps) s (fun t => t.gal = { s.gal with training := false } ∧
      (match dpTry s (min l.val (s.get Fd.GAL_CTRL_MAXLANES)) (min r.val (s.get Fd.GAL_CTRL_MAXRATE)) 64 steps false false
          (min l.val (s.get Fd.GAL_CTRL_MAXLANES)) (min r.val (s.get Fd.GAL_CTRL_MAXRATE)) with
        | .ok n k => t.get Fd.GAL_STATUS_LINK_UP = 1 ∧ t.get Fd.GAL_STATUS_LANES = n % 4 ∧ t.get Fd.GAL_STATUS_RATE = k % 4 ∧
            Frame [Fd.GAL_STATUS_LINK_UP, Fd.GAL_STATUS_LANES, Fd.GAL_STATUS_RATE] [.gal] [(0x0903, [.w4 n, .w4 k])] s t
        | .failed => t.get Fd.GAL_STATUS_TRAIN_FAIL = 1 ∧ Frame [Fd.GAL_STATUS_TRAIN_FAIL] [.gal] [(0x0904, [.w4 1])] s t
        | .narrow => t.get Fd.GAL_STATUS_BW_SHORT = 1 ∧ Frame [Fd.GAL_STATUS_BW_SHORT] [.gal] [(0x0904, [.w4 2])] s t)))

/-- BLOCK_CLOSE of a sample stream with a full block and room in staging stages one folio with the next LSEQ and BSEQ and the
packed samples, raw or held by the lowest free engine; without room the samples join the stream's gap, with GAPS and DROPPED and
event 0x0A08. COMPRESSION_END keeps the smaller form; output that decodes to anything else stores the block raw, counts VFAIL and takes
the engine out. FOLIO_WRITE_END frees the oldest final folio and moves the log on. CKPT_FLUSH notes what is written.
RECORDING_CLOSED with nothing staged returns to IDLE with event 0x0A06. SCR_DISABLE asks for a close or the end of a playback. -/
def Obligations.RecordingBlocksBecomeFolios : Prop :=
  (∀ (s : State) (n : Fin 16) (r : StrSt) (rest : List StrSt) (l : List Samp) (full : Nat), n.val ≠ 15 →
    look [] s.scr.streams n.val = r :: rest → r.kind < 2 → r.gap = none →
    full = 2 ^ s.get Fd.SCR_CTRL_BLK * 8 / (r.width * streamComps s r.kind r.idx) → 0 < full →
    full ≤ (sampElems s r).length → l = (sampElems s r).take full →
    stagingShort s (rawFolio (packSamples r.width (streamComps s r.kind r.idx == 2) l).length) = false →
    Does (.blockClose n) s (fun t => (∃ f : Folio, t.scr.folios = s.scr.folios ++ [f] ∧ f.sid = n.val ∧
        f.lseq = s.scr.lseq ∧ f.bseq = s.get (Fd.SS_BSEQ n.val) ∧ f.nelem = full ∧
        f.payload = packSamples r.width (streamComps s r.kind r.idx == 2) l ∧
        f.engine = (if r.comp then freeEngine s else none) ∧
        f.raw = (if r.comp then (if (freeEngine s).isSome then none else some 3) else some 0)) ∧
      t.scr.lseq = s.scr.lseq + 1 ∧ t.get (Fd.SS_BSEQ n.val) = (s.get (Fd.SS_BSEQ n.val) + 1) % 2 ^ 32 ∧
      t.scr.drives = s.scr.drives ∧ t.eseq = s.eseq ∧ SameRegs [Fd.SS_BSEQ n.val, Fd.PTB_COUNT 3] s t ∧ SameMem s t)) ∧
  (∀ (s : State) (n : Fin 16) (r : StrSt) (rest : List StrSt) (l : List Samp) (full : Nat) (a b : Samp), n.val ≠ 15 →
    look [] s.scr.streams n.val = r :: rest → r.kind < 2 → r.gap = none → s.sys.windows = [] →
    full = 2 ^ s.get Fd.SCR_CTRL_BLK * 8 / (r.width * streamComps s r.kind r.idx) → 0 < full →
    full ≤ (sampElems s r).length → l = (sampElems s r).take full → l.head? = some a → l.getLast? = some b →
    stagingShort s (rawFolio (packSamples r.width (streamComps s r.kind r.idx == 2) l).length) = true →
    Does (.blockClose n) s (fun t => t.scr.folios = s.scr.folios ∧
      look [] t.scr.streams n.val = { r with next := b.t + 1, gap := some (a.t, b.t, full, 1) } :: rest ∧
      t.get Fd.SCR_GAPS = min (s.get Fd.SCR_GAPS + 1) (2 ^ 32 - 1) ∧
      t.get (Fd.SS_DROPPED n.val) = min (s.get (Fd.SS_DROPPED n.val) + 1) (2 ^ 32 - 1) ∧
      Frame [Fd.SCR_GAPS, Fd.SS_DROPPED n.val] [.scr, .sys] [(0x0A08, [.w4 n.val, .t a.t])] s t)) ∧
  (∀ (s : State) (e : Fin 16) (bs : List Byte) (f : Folio), s.scr.folios.find? (fun f => f.engine == some e.val) = some f →
    decodeData f.payload.length bs = some f.payload → Does (.compressionEnd e bs) s (fun t =>
      t.scr.folios = s.scr.folios.map (fun g => if g.lseq = f.lseq then
        (if rawFolio f.payload.length ≤ ceilTo 4096 (64 + (codedBlock f.payload bs).length) then folioRaw s f 1
          else folioDone s f (codedBlock f.payload bs)) else g) ∧ Frame [] [.scr] [] s t)) ∧
  (∀ (s : State) (e : Fin 16) (bs : List Byte) (f : Folio), s.scr.folios.find? (fun f => f.engine == some e.val) = some f →
    decodeData f.payload.length bs ≠ some f.payload → Does (.compressionEnd e bs) s (fun t =>
      t.scr.folios = s.scr.folios.map (fun g => if g.lseq = f.lseq then folioRaw s f 2 else g) ∧
      t.get Fd.SCR_VFAIL = min (s.get Fd.SCR_VFAIL + 1) (2 ^ 32 - 1) ∧ t.age.engOut = e.val :: s.age.engOut ∧ SameMem s t)) ∧
  (∀ (s : State) (f : Folio) (rest : List Folio), s.scr.folios = f :: rest → f.bytes ≠ [] → Does .folioWriteEnd s (fun t =>
    t.scr.folios = rest ∧ t.scr.off = s.scr.off + f.bytes.length ∧ t.scr.written = some f.lseq ∧
    t.scr.flushed = s.scr.flushed ∧ Frame [] [.scr] [] s t)) ∧
  (∀ (p : Nat) (a : Nat) (bs : List Byte) (s : State), (∀ i : Fin bs.length,
    Memory.byte ((driveStore p a bs s).drive p) (a + i.val) = bs[i]) ∧
    (∀ b, b < a ∨ a + bs.length ≤ b → Memory.byte ((driveStore p a bs s).drive p) b = Memory.byte (s.drive p) b) ∧
    (∀ q, q ≠ p → (driveStore p a bs s).drive q = s.drive q) ∧ Frame [] [.scr] [] s (driveStore p a bs s)) ∧
  (∀ s : State, s.get Fd.SCR_STATUS_STATE = 1 ∨ s.get Fd.SCR_STATUS_STATE = 2 → Does .ckptFlush s (fun t =>
    t.scr = { s.scr with flushed := s.scr.written } ∧ Frame [] [.scr] [] s t)) ∧
  (∀ s : State, s.get Fd.SCR_STATUS_STATE = 2 → s.scr.folios = [] → s.scr.streams.all (fun e => e.2.isEmpty) = true →
    Does .recordingClosed s (fun t => t.get Fd.SCR_STATUS_STATE = 0 ∧ t.get Fd.SCR_STATUS_QUIESCENT = 1 ∧
      t.scr.flushed = s.scr.written ∧ Frame [Fd.SCR_STATUS_STATE, Fd.SCR_STATUS_QUIESCENT] [.scr]
        [(0x0A06, [.w4 s.scr.cause, .w8 (s.rd64 0xB0018), .w8 (s.scr.lseq - 1)])] s t)) ∧
  (∀ s : State, s.get Fd.SCR_STATUS_STATE = 1 → Does .scrDisable s (fun t => t.on Fd.SCR_CTRL_EN = false ∧
    t.scr = { s.scr with closeReq := some 3 } ∧ Frame [Fd.SCR_CTRL_EN] [.scr] [] s t)) ∧
  (∀ (s : State) (p : PbSt), s.get Fd.SCR_STATUS_STATE = 3 → s.scr.pb = some p → Does .scrDisable s (fun t =>
    t.on Fd.SCR_CTRL_EN = false ∧ t.on Fd.SCR_CTRL_PB = false ∧ t.scr = { s.scr with pb := some { p with stopReq := some 2 } } ∧
    Frame [Fd.SCR_CTRL_EN, Fd.SCR_CTRL_PB] [.scr] [] s t)) ∧
  (∀ s : State, s.get Fd.SCR_STATUS_STATE ≠ 1 → s.get Fd.SCR_STATUS_STATE ≠ 3 → Does .scrDisable s (fun t =>
    t.on Fd.SCR_CTRL_EN = false ∧ Frame [Fd.SCR_CTRL_EN] [] [] s t))

/-- PLAYBACK_START while ingest or stream time runs, or Scrivener is not IDLE and enabled, is refused with event 0x0A0E; with a label it
enters PLAYBACK and shows its RID. PLAYBACK_FOLIO_READ takes the next folio of a stream into its read-ahead, or marks the end of the log.
PLAYBACK_EPOCH once the first beat of every stream is held applies the recorded epoch and performs its landing. A stop asks for
the end with cause 2; PLAYBACK_END of a playback that has stopped and drained returns Scrivener to IDLE. -/
def Obligations.PlaybackReplaysARecording : Prop :=
  (∀ s : State, s.get Fd.SCR_STATUS_STATE ≠ 0 ∨ s.ingEn = true ∨ s.run = true ∨ s.on Fd.SCR_CTRL_EN = false →
    Does .playbackStart s (fun t => t.on Fd.SCR_CTRL_PB = false ∧
      Frame [Fd.SCR_CTRL_PB] [] [(0x0A0E, [.w4 0xB0000])] s t)) ∧
  (∀ (s : State) (lb : List Byte), s.get Fd.SCR_STATUS_STATE = 0 → s.ingEn = false → s.run = false →
    s.on Fd.SCR_CTRL_EN = true → volLabel s = some lb → Does .playbackStart s (fun t =>
      t.get Fd.SCR_STATUS_STATE = 3 ∧ t.get Fd.SCR_STATUS_QUIESCENT = 0 ∧ t.on Fd.TRG_XLOG_STATUS_PLAYBACK = true ∧
      t.rd64 0xB0018 = fieldAt lb 8 8 ∧ (∃ p : PbSt, t.scr.pb = some p ∧ p.rid = fieldAt lb 8 8 ∧ p.drives = usedPorts s ∧
        p.tRec = BitVec.ofNat 64 (fieldAt lb 0x10 8) ∧ p.running = false ∧ p.stopReq = none) ∧
      t.sys = s.sys ∧ t.eseq = s.eseq ∧ SameMem s t)) ∧
  (∀ (s : State) (p : PbSt), s.scr.pb = some p → p.done = false →
    nextFolio s ⟨p.drives, p.su, p.rid⟩ (volPages s ⟨p.drives, p.su, p.rid⟩ - p.off / 4096) p.off p.lseq false = none →
    Does (.playbackFolioRead true) s (fun t => t.scr = { s.scr with pb := some { p with done := true } } ∧
      Frame [] [.scr] [] s t)) ∧
  (∀ (s : State) (p : PbSt) (f : LogFolio) (off ch b : Nat), s.scr.pb = some p → p.done = false →
    nextFolio s ⟨p.drives, p.su, p.rid⟩ (volPages s ⟨p.drives, p.su, p.rid⟩ - p.off / 4096) p.off p.lseq false = some (f, off) →
    p.streams.find? (fun x => x.1 == f.sid) = some (f.sid, ch, b) → f.greason = 0 → f.t0 = look p.tRec p.expect f.sid →
    Does (.playbackFolioRead true) s (fun t => (∃ q : PbSt, t.scr = { s.scr with pb := some q } ∧ q.off = off ∧
        q.lseq = some f.lseq ∧ look q.tRec q.expect f.sid = f.t1 + 1 ∧
        look [] q.ahead f.sid = look [] p.ahead f.sid ++
          [⟨f.t0, f.nelem, unpackSamples b s.im.m f.nelem f.payload, false, f.fl⟩]) ∧ Frame [] [.scr] [] s t)) ∧
  (∀ (s : State) (p : PbSt), s.scr.pb = some p → p.running = false → p.stopReq = none → pbReady p p.tRec = true →
    s.on Fd.CFG_STATUS_STANDBY_ACT = false → Does .playbackEpoch s (fun t => ∃ u : State, t = landing none u ∧
      u.sys.next = p.tRec ∧ u.sys.base = p.tRec ∧ u.sys.counting = true ∧ u.sys.decided = some p.tRec ∧
      u.scr.pb = some { p with running := true })) ∧
  (∀ (s : State) (p : PbSt), s.scr.pb = some p → Does .playbackStopWrite s (fun t => t.on Fd.SCR_CTRL_PB = false ∧
    t.scr = { s.scr with pb := some { p with stopReq := some 2 } } ∧ Frame [Fd.SCR_CTRL_PB] [.scr] [] s t)) ∧
  (∀ s : State, s.scr.pb = none → Does .playbackStopWrite s (fun t => t.on Fd.SCR_CTRL_PB = false ∧
    Frame [Fd.SCR_CTRL_PB] [] [] s t)) ∧
  (∀ (s : State) (p : PbSt) (cause : Nat), s.scr.pb = some p → p.running = true → p.ended = some cause →
    s.sys.counting = false → drained s = true → s.sys.armAfterStop = false → Does .playbackEnd s (fun t =>
      t.scr.pb = none ∧ t.get Fd.SCR_STATUS_STATE = 0 ∧ t.get Fd.SCR_STATUS_QUIESCENT = 1 ∧ t.on Fd.SCR_CTRL_PB = false ∧
      t.on Fd.TRG_XLOG_STATUS_PLAYBACK = false ∧ t.run = false ∧ t.sys.draining = false ∧
      Raises [(0x0A0C, [.w4 cause, .t (if s.run then s.tRel else 0)])] s t ∧ SameMem s t))

/-- DRIVE_BRINGUP of an enabled port in bring-up shows its link and ends in READY with its capacity and event 0x0A01, or rejected with
a reason and event 0x0A02. NVME_COMPLETION forgets a retry on success, has an erroneous command issued once more, and fails the
drive on the second error; NVME_TIMEOUT fails it at once: state FAILED, a reason that the spec leaves open (log 56: a free value),
event 0x0A03, and a recording that uses it is to close with cause 1. SMART_POLL shows temperature and warnings of a READY drive. -/
def Obligations.DrivesComeUpAndFail : Prop :=
  (∀ (s : State) (p : Fin 4) (w : Fin 3) (v : Fin 6) (nlba : Nat) (vwc : Bool), s.onBit Fd.SCR_CTRL_DRV_EN p.val = true →
    s.get (Fd.DRV_STATUS_STATE p.val) = 1 → Does (.driveBringup p w v nlba vwc 0) s (fun t =>
      t.get (Fd.DRV_STATUS_STATE p.val) = 2 ∧ t.get (Fd.DRV_STATUS_WIDTH p.val) = w.val ∧ t.get (Fd.DRV_SPEED p.val) = v.val ∧
      t.on (Fd.DRV_STATUS_VWC p.val) = vwc ∧ t.rd64 (0xB040C + 0x40 * p.val) = nlba % 2 ^ 64 ∧
      Frame [Fd.DRV_STATUS_STATE p.val, Fd.DRV_STATUS_WIDTH p.val, Fd.DRV_SPEED p.val, Fd.DRV_STATUS_VWC p.val,
        Fd.DRV_NLBA_LO p.val, Fd.DRV_NLBA_HI p.val] [] [(0x0A01, [.w4 p.val, .w4 w.val, .w4 v.val])] s t)) ∧
  (∀ (s : State) (p : Fin 4) (w : Fin 3) (v : Fin 6) (nlba : Nat) (vwc : Bool) (r : Fin 4), r.val ≠ 0 →
    s.onBit Fd.SCR_CTRL_DRV_EN p.val = true → s.get (Fd.DRV_STATUS_STATE p.val) = 1 →
    Does (.driveBringup p w v nlba vwc r) s (fun t => t.get (Fd.DRV_STATUS_STATE p.val) = 3 ∧
      t.get (Fd.DRV_STATUS_REASON p.val) = r.val ∧
      Frame [Fd.DRV_STATUS_STATE p.val, Fd.DRV_STATUS_WIDTH p.val, Fd.DRV_SPEED p.val, Fd.DRV_STATUS_REASON p.val] []
        [(0x0A02, [.w4 p.val, .w4 r.val])] s t)) ∧
  (∀ (s : State) (p : Fin 4) (op : Byte), driveLive s p.val = true → Does (.nvmeCompletion p op 0) s (fun t =>
    t.scr = { s.scr with retried := s.scr.retried.filter (fun r => r != (p.val, op.toNat)) } ∧ Frame [] [.scr] [] s t)) ∧
  (∀ (s : State) (p : Fin 4) (op : Byte) (st : BitVec 16), driveLive s p.val = true → st ≠ 0 →
    s.scr.retried.contains (p.val, op.toNat) = false → Does (.nvmeCompletion p op st) s (fun t =>
      t.scr = { s.scr with retried := (p.val, op.toNat) :: s.scr.retried } ∧ Frame [] [.scr] [] s t)) ∧
  (∀ (s : State) (p : Fin 4) (op : Byte) (st : BitVec 16), driveLive s p.val = true → st ≠ 0 →
    s.scr.retried.contains (p.val, op.toNat) = true → Does (.nvmeCompletion p op st) s (fun t =>
      t.get (Fd.DRV_STATUS_STATE p.val) = 4 ∧ t.get (Fd.DRV_STATUS_REASON p.val) = (Config.failReason p.val s.free).toNat ∧
      Frame [Fd.DRV_STATUS_STATE p.val, Fd.DRV_STATUS_REASON p.val] [.scr]
        [(0x0A03, [.w4 p.val, .w4 op.toNat, .w4 st.toNat])] s t)) ∧
  (∀ (s : State) (p : Fin 4) (op : Byte), driveLive s p.val = true → Does (.nvmeTimeout p op) s (fun t =>
    t.get (Fd.DRV_STATUS_STATE p.val) = 4 ∧ t.get (Fd.DRV_STATUS_REASON p.val) = (Config.failReason p.val s.free).toNat ∧
    (s.get Fd.SCR_STATUS_STATE = 1 → s.scr.used.contains p.val = true →
      t.scr = { s.scr with dead := p.val :: s.scr.dead, closeReq := some 1 }) ∧
    Frame [Fd.DRV_STATUS_STATE p.val, Fd.DRV_STATUS_REASON p.val] [.scr]
      [(0x0A03, [.w4 p.val, .w4 op.toNat, .w4 0xFFFF])] s t)) ∧
  (∀ (s : State) (p : Fin 4) (temp : BitVec 16) (crit : Byte), s.get (Fd.DRV_STATUS_STATE p.val) = 2 →
    Does (.smartPoll p temp crit) s (fun t => t.get (Fd.DRV_SMART_TEMP p.val) = temp.toNat ∧
      t.get (Fd.DRV_SMART_CRIT p.val) = crit.toNat ∧ (crit ≠ 0 → t.on (Fd.DRV_STATUS_CRITWARN p.val) = true) ∧
      Frame [Fd.DRV_SMART_TEMP p.val, Fd.DRV_SMART_CRIT p.val, Fd.DRV_STATUS_CRITWARN p.val] []
        (if crit = 0 then [] else [(0x0A04, [.w4 p.val, .w4 crit.toNat])]) s t))

/-- START of an idle engine holds START_T to the engine's grid, at least 65,536 ticks ahead, shows it and is
RUNNING; ARM_TRIG makes it ARMED; either is refused otherwise with event 0x0B0B. STOP does nothing in IDLE, returns an ARMED engine
to IDLE with event 0x0B02, and joins the requests of one that runs at JDELAY from now. JUMP joins the requests of a RUNNING engine,
starts an ARMED one whose entry takes the host's jumps, and is ignored and counted in IDLE and STOPPING. An access to SEQ_DATA moves
SEQ_ADDR on modulo 32,768; a write sets the word without its reserved bits. -/
def Obligations.WeaverEnginesStartStopAndJump : Prop :=
  (∀ (s : State) (e : Fin 2), engState s e.val ≠ 0 →
    Does (.start e) s (fun t => Frame [] [] [(0x0B0B, [.w4 e.val, .w4 0, .w4 (engState s e.val)])] s t) ∧
    Does (.armTrig e) s (fun t => Frame [] [] [(0x0B0B, [.w4 e.val, .w4 1, .w4 (engState s e.val)])] s t)) ∧
  (∀ (s : State) (e : Fin 2) (want near at' : Tick), engState s e.val = 0 →
    want = s.rdT (0xC0108 + 0x40 * e.val) →
    near = (let down := BitVec.ofNat 64 (floorTo (engGrid s e.val) want.toNat)
      if 2 * (want - down).toNat ≤ engGrid s e.val then down else tadd down (engGrid s e.val)) →
    at' = (let least := tceil (engGrid s e.val) (tadd (arrivalNow s) 65536)
      if tlt near least then least else near) →
    Does (.start e) s (fun t => engState t e.val = 2 ∧ (t.engine e.val).first = some at' ∧
      t.rdT (0xC011C + 0x40 * e.val) = at' ∧ (t.engine e.val).ent = wvEntry s (s.get (Fd.ENG_START_ENTRY e.val)) ∧
      t.get Fd.SYS_CLAMP_COUNT = min (s.get Fd.SYS_CLAMP_COUNT + (if at' = want then 0 else 1))
        (2 ^ Fd.SYS_CLAMP_COUNT.width - 1) ∧
      Frame [Fd.SYS_CLAMP_COUNT, Fd.ENG_T_START_LO e.val, Fd.ENG_T_START_HI e.val, Fd.ENG_STATUS_JPEND e.val,
        Fd.ENG_STATUS_ENTRY e.val, Fd.ENG_STATUS_STATE e.val, Fd.ENG_STATUS_QUIESCENT e.val, Fd.WVR_STATUS_QUIESCENT] [.wvr] [] s t)) ∧
  (∀ (s : State) (e : Fin 2), engState s e.val = 0 → Does (.armTrig e) s (fun t =>
    engState t e.val = 1 ∧ (t.engine e.val).cur = s.get (Fd.ENG_START_ENTRY e.val) ∧
    (t.engine e.val).first = none ∧ Frame [Fd.ENG_STATUS_JPEND e.val, Fd.ENG_STATUS_ENTRY e.val,
      Fd.ENG_STATUS_STATE e.val, Fd.ENG_STATUS_QUIESCENT e.val, Fd.WVR_STATUS_QUIESCENT] [.wvr] [] s t)) ∧
  (∀ (s : State) (e : Fin 2), engState s e.val = 0 → exec (.stop e) s = .next s) ∧
  (∀ (s : State) (e : Fin 2), engState s e.val = 1 → Does (.stop e) s (fun t => engState t e.val = 0 ∧
    Frame [Fd.ENG_STATUS_JPEND e.val, Fd.ENG_STATUS_ENTRY e.val, Fd.ENG_STATUS_STATE e.val, Fd.ENG_STATUS_QUIESCENT e.val, Fd.WVR_STATUS_QUIESCENT]
      [.wvr] [(0x0B02, [.w4 e.val, .t (hostStamp s), .w4 1])] s t)) ∧
  (∀ (s : State) (e : Fin 2), engState s e.val = 2 → s.sys.counting = true → (s.engine e.val).first = none →
    Does (.stop e) s (fun t => t.engine e.val = { s.engine e.val with
        reqs := (s.engine e.val).reqs ++ [⟨tadd s.sys.next (s.get Fd.WVR_JDELAY), 0, some 1⟩] } ∧
      Frame [Fd.ENG_STATUS_JPEND e.val, Fd.ENG_STATUS_ENTRY e.val] [.wvr] [] s t)) ∧
  (∀ (s : State) (e : Fin 2), engState s e.val = 2 → s.sys.counting = true → Does (.jump e) s (fun t =>
    t.engine e.val = { s.engine e.val with
      reqs := (s.engine e.val).reqs ++ [⟨tadd s.sys.next (s.get Fd.WVR_JDELAY), 4, none⟩] } ∧
    Frame [Fd.ENG_STATUS_JPEND e.val, Fd.ENG_STATUS_ENTRY e.val] [.wvr] [] s t)) ∧
  (∀ (s : State) (e : Fin 2), engState s e.val = 1 → s.sys.counting = true → (s.engine e.val).first = none →
    bit (s.engine e.val).ent.cond 2 = true → Does (.jump e) s (fun t =>
      (t.engine e.val).first = some (gridAt s e.val (tadd s.sys.next (s.get Fd.WVR_JDELAY))) ∧
      t.rdT (0xC011C + 0x40 * e.val) = gridAt s e.val (tadd s.sys.next (s.get Fd.WVR_JDELAY)) ∧
      Frame [Fd.ENG_T_START_LO e.val, Fd.ENG_T_START_HI e.val, Fd.ENG_STATUS_JPEND e.val, Fd.ENG_STATUS_ENTRY e.val]
        [.wvr] [] s t)) ∧
  (∀ (s : State) (e : Fin 2), engState s e.val = 0 ∨ engState s e.val = 3 → s.sys.windows = [] → Does (.jump e) s (fun t =>
    t.get (Fd.ENG_IGNORED e.val) = min (s.get (Fd.ENG_IGNORED e.val) + 1) (2 ^ 32 - 1) ∧
    Frame [Fd.ENG_IGNORED e.val] [.sys] [(0x0B04, [.w4 e.val, .t (hostStamp s)])] s t)) ∧
  (∀ s : State, Does (.seqData none) s (fun t => t.get Fd.WVR_SEQ_ADDR = (s.get Fd.WVR_SEQ_ADDR + 1) % 32768 ∧
    t.get Fd.WVR_SEQ_DATA = seqWord s ((s.get Fd.WVR_SEQ_ADDR + 1) % 32768) ∧
    Frame [Fd.WVR_SEQ_ADDR, Fd.WVR_SEQ_DATA] [] [] s t)) ∧
  (∀ (s : State) (w : Word), 2 ≤ s.get Fd.WVR_SEQ_ADDR % 8 → Does (.seqData (some w)) s (fun t =>
    seqWord t (s.get Fd.WVR_SEQ_ADDR) = seqMask (s.get Fd.WVR_SEQ_ADDR % 8) w.toNat % 2 ^ 32 ∧
    t.get Fd.WVR_SEQ_ADDR = (s.get Fd.WVR_SEQ_ADDR + 1) % 32768 ∧
    Frame [Fd.WVR_SEQ_ADDR, Fd.WVR_SEQ_DATA] [.wvr] [] s t)) ∧
  (∀ (s : State) (w : Word), s.get Fd.WVR_SEQ_ADDR % 8 < 2 → Does (.seqData (some w)) s (fun t =>
    t.get Fd.WVR_SEQ_ADDR = (s.get Fd.WVR_SEQ_ADDR + 1) % 32768 ∧
    SameRegs [Fd.WVR_SEQ_ADDR, Fd.WVR_SEQ_DATA, Fd.SYS_CLAMP_COUNT] s t ∧ t.eseq = s.eseq ∧ SameMem s t))

/-- FIRST_PASS_START at its time makes the engine RUNNING and begins the pass there with event 0x0B01. At PASS_BOUNDARY a pass with
repeats left begins again with one fewer; without any, NEXT begins; a pending jump begins its target with event 0x0B03; a HALT
entry stops the engine with event 0x0B02 and cause 0. WEAVER_UNDERRUN of an engine that plays marks every channel STU from its next
granule with event 0x0B06; UNDERRUN_RESYNC reports the resynchronisation with event 0x0B07 and counts UNDERRUNS. -/
def Obligations.WeaverPassesFollowTheTable : Prop :=
  (∀ (s : State) (e : Fin 2) (a : Tick), (s.engine e.val).first = some a → s.sys.counting = true → tle a s.sys.next = true →
    (s.engine e.val).ent.kind = e.val → s.on (Fd.PLL_STATUS_HOLD 3) = false → (s.engine e.val).cur < 4096 →
    Does (.firstPassStart e) s (fun t =>
      engState t e.val = 2 ∧ (t.engine e.val).first = none ∧ (t.engine e.val).b = a ∧
      (t.engine e.val).left = (s.engine e.val).ent.repM1 ∧ t.get (Fd.ENG_STATUS_ENTRY e.val) = (s.engine e.val).cur ∧
      Frame [Fd.ENG_STATUS_JPEND e.val, Fd.ENG_STATUS_ENTRY e.val, Fd.ENG_STATUS_STATE e.val, Fd.ENG_STATUS_QUIESCENT e.val, Fd.WVR_STATUS_QUIESCENT]
        [.wvr] [(0x0B01, [.w4 e.val, .t a, .w4 (s.engine e.val).cur])] s t)) ∧
  (∀ (s : State) (e : Fin 2) (a : Tick), passEndAt s e.val = some a → tle a s.sys.next = true →
    (s.engine e.val).stop = none → (s.engine e.val).jump = none → (s.engine e.val).under = none →
    s.on (Fd.PLL_STATUS_HOLD 3) = false → (s.engine e.val).ent.forever = false → 0 < (s.engine e.val).left →
    (s.engine e.val).ent.kind = e.val → Does (.passBoundary e) s (fun t =>
      (t.engine e.val).b = a ∧ (t.engine e.val).left = (s.engine e.val).left - 1 ∧
      (t.engine e.val).cur = (s.engine e.val).cur ∧ (t.engine e.val).ent = (s.engine e.val).ent ∧
      Frame [Fd.ENG_STATUS_JPEND e.val, Fd.ENG_STATUS_ENTRY e.val] [.wvr] [] s t)) ∧
  (∀ (s : State) (e : Fin 2) (a : Tick), passEndAt s e.val = some a → tle a s.sys.next = true →
    (s.engine e.val).stop = none → (s.engine e.val).jump = none → (s.engine e.val).under = none →
    s.on (Fd.PLL_STATUS_HOLD 3) = false → (s.engine e.val).ent.forever = false → (s.engine e.val).left = 0 →
    (s.engine e.val).nxt.kind = e.val → Does (.passBoundary e) s (fun t =>
      (t.engine e.val).b = a ∧ (t.engine e.val).left = (s.engine e.val).nxt.repM1 ∧
      (t.engine e.val).cur = (s.engine e.val).ent.next ∧ (t.engine e.val).ent = (s.engine e.val).nxt ∧
      Frame [Fd.ENG_STATUS_JPEND e.val, Fd.ENG_STATUS_ENTRY e.val] [.wvr] [] s t)) ∧
  (∀ (s : State) (e : Fin 2) (a : Tick) (i : Nat) (n : WvEntry), passEndAt s e.val = some a → tle a s.sys.next = true →
    (s.engine e.val).stop = none → (s.engine e.val).jump = some (i, n, false) → (s.engine e.val).under = none →
    s.on (Fd.PLL_STATUS_HOLD 3) = false → n.kind = e.val → Does (.passBoundary e) s (fun t =>
      (t.engine e.val).b = a ∧ (t.engine e.val).left = n.repM1 ∧ (t.engine e.val).cur = i ∧ (t.engine e.val).ent = n ∧
      (t.engine e.val).jump = none ∧ Frame [Fd.ENG_STATUS_JPEND e.val, Fd.ENG_STATUS_ENTRY e.val] [.wvr]
        [(0x0B03, [.w4 e.val, .t a, .w4 (s.engine e.val).cur, .w4 i])] s t)) ∧
  (∀ (s : State) (e : Fin 2) (a : Tick), passEndAt s e.val = some a → tle a s.sys.next = true →
    (s.engine e.val).stop = none → (s.engine e.val).jump = none → (s.engine e.val).under = none →
    (s.engine e.val).ent.forever = false → (s.engine e.val).left = 0 → (s.engine e.val).nxt.kind = 2 →
    Does (.passBoundary e) s (fun t => engState t e.val = 0 ∧
      Frame [Fd.ENG_STATUS_JPEND e.val, Fd.ENG_STATUS_ENTRY e.val, Fd.ENG_STATUS_STATE e.val, Fd.ENG_STATUS_QUIESCENT e.val, Fd.WVR_STATUS_QUIESCENT]
        [.wvr] [(0x0B02, [.w4 e.val, .t a, .w4 0])] s t)) ∧
  (∀ (s : State) (e : Fin 2), engPlays s e.val = true → (s.engine e.val).under = none → Does (.weaverUnderrun e) s (fun t =>
    (t.engine e.val).under = some (nextGranule s e.val) ∧
    t.sys.spans = ⟨Df.stu, allChans, nextGranule s e.val, none⟩ :: s.sys.spans ∧
    Frame [Fd.ENG_STATUS_JPEND e.val, Fd.ENG_STATUS_ENTRY e.val] [.wvr, .sys]
      [(0x0B06, [.w4 e.val, .t (nextGranule s e.val)])] s t)) ∧
  (∀ (s : State) (a : Tick), (s.engine 0).resync = some a → (s.engine 1).under = none → (s.engine 1).resync = none →
    Does (.underrunResync 0) s (fun t => (t.engine 0).resync = none ∧
      t.get (Fd.ENG_UNDERRUNS 0) = min (s.get (Fd.ENG_UNDERRUNS 0) + 1) (2 ^ 32 - 1) ∧
      t.sys.spans = s.sys.spans.map (fun f => if f.bits = Df.stu ∧ f.chans = allChans ∧ f.hi = none then
        { f with hi := some (tadd a (s.get Fd.SYS_STU_EXTEND)) } else f) ∧
      Frame [Fd.ENG_STATUS_JPEND 0, Fd.ENG_STATUS_ENTRY 0, Fd.ENG_UNDERRUNS 0] [.wvr, .sys]
        [(0x0B07, [.w4 0, .t a, .w4 0])] s t)) ∧
  (∀ s : State, (s.engine 1).under.isSome = true → 0 < (s.engine 1).shift → Does (.underrunResync 1) s (fun t =>
    (t.engine 1).under = none ∧ (t.engine 1).shift = 0 ∧
    t.get (Fd.ENG_UNDERRUNS 1) = min (s.get (Fd.ENG_UNDERRUNS 1) + 1) (2 ^ 32 - 1) ∧
    Frame [Fd.ENG_STATUS_JPEND 1, Fd.ENG_STATUS_ENTRY 1, Fd.ENG_UNDERRUNS 1] [.wvr, .sys]
      [(0x0B07, [.w4 1, .t (s.engine 1).vt, .w4 (s.engine 1).shift])] s t))

/-- WEAVER_ENABLE sets EN and clears the link bits; used lanes found open fail the link with event 0x0B08 and reason 1, a SYSREF period
that is no multiple of the EMB with reason 2, and otherwise the link waits for an LEMC edge, or for none where no lane is used.
LINK_START at such an edge brings the link up. WEAVER_DISABLE clears EN and stops the engines with cause 2; LINK_STOP with EN 0 and
both engines IDLE takes the link down and is quiescent. -/
def Obligations.WeaverLinkComesUpAndDown : Prop :=
  (∀ (s : State) (o : BitVec 16), s.on Fd.WVR_CTRL_EN = false → txLanes s = 0 → Does (.weaverEnable o) s (fun t =>
    t.on Fd.WVR_CTRL_EN = true ∧ t.on Fd.WVR_STATUS_QUIESCENT = (engState s 0 == 0 && engState s 1 == 0) ∧
    Frame [Fd.WVR_CTRL_EN, Fd.WVR_STATUS_QUIESCENT, Fd.WVR_STATUS_LINK_UP, Fd.WVR_STATUS_LINK_FAIL] [] [] s t)) ∧
  (∀ (s : State) (o : BitVec 16), s.on Fd.WVR_CTRL_EN = false → Nat.land (txLanes s) o.toNat ≠ 0 →
    Does (.weaverEnable o) s (fun t => t.on Fd.WVR_CTRL_EN = true ∧ t.on Fd.WVR_STATUS_LINK_FAIL = true ∧
      Frame [Fd.WVR_CTRL_EN, Fd.WVR_STATUS_QUIESCENT, Fd.WVR_STATUS_LINK_UP, Fd.WVR_STATUS_LINK_FAIL] []
        [(0x0B08, [.w4 (Nat.land (txLanes s) o.toNat), .w4 1])] s t)) ∧
  (∀ (s : State) (o : BitVec 16), s.on Fd.WVR_CTRL_EN = false → txLanes s ≠ 0 → Nat.land (txLanes s) o.toNat = 0 →
    sysrefTicks s % txEmb s ≠ 0 → Does (.weaverEnable o) s (fun t => t.on Fd.WVR_STATUS_LINK_FAIL = true ∧
      Frame [Fd.WVR_CTRL_EN, Fd.WVR_STATUS_QUIESCENT, Fd.WVR_STATUS_LINK_UP, Fd.WVR_STATUS_LINK_FAIL] []
        [(0x0B08, [.w4 0, .w4 2])] s t)) ∧
  (∀ (s : State) (o : BitVec 16), s.on Fd.WVR_CTRL_EN = false → txLanes s ≠ 0 → Nat.land (txLanes s) o.toNat = 0 →
    sysrefTicks s % txEmb s = 0 → Does (.weaverEnable o) s (fun t => t.on Fd.WVR_CTRL_EN = true ∧
      t.wvr = { s.wvr with linkDue := true } ∧ t.on Fd.WVR_STATUS_LINK_FAIL = false ∧
      Frame [Fd.WVR_CTRL_EN, Fd.WVR_STATUS_QUIESCENT, Fd.WVR_STATUS_LINK_UP, Fd.WVR_STATUS_LINK_FAIL] [.wvr] [] s t)) ∧
  (∀ s : State, s.wvr.linkDue = true → s.ingEn = true → s.on Fd.ING_SR_STATUS_LEMC_SET = true → Does .linkStart s (fun t =>
    t.on Fd.WVR_STATUS_LINK_UP = true ∧ t.wvr = { s.wvr with linkDue := false } ∧
    t.on Fd.WVR_STATUS_QUIESCENT = false ∧ Frame [Fd.WVR_STATUS_LINK_UP, Fd.WVR_STATUS_QUIESCENT] [.wvr] [] s t)) ∧
  (∀ s : State, s.on Fd.WVR_CTRL_EN = true → engState s 0 = 0 → engState s 1 = 0 → Does .weaverDisable s (fun t =>
    t.on Fd.WVR_CTRL_EN = false ∧ t.wvr = { s.wvr with linkDue := false } ∧ Frame [Fd.WVR_CTRL_EN] [.wvr] [] s t)) ∧
  (∀ s : State, s.on Fd.WVR_CTRL_EN = true → engState s 0 = 1 → engState s 1 = 0 → Does .weaverDisable s (fun t =>
    t.on Fd.WVR_CTRL_EN = false ∧ engState t 0 = 0 ∧ Frame [Fd.WVR_CTRL_EN, Fd.ENG_STATUS_JPEND 0, Fd.ENG_STATUS_ENTRY 0,
      Fd.ENG_STATUS_STATE 0, Fd.ENG_STATUS_QUIESCENT 0, Fd.WVR_STATUS_QUIESCENT] [.wvr] [(0x0B02, [.w4 0, .t (hostStamp s), .w4 2])] s t)) ∧
  (∀ s : State, s.on Fd.WVR_CTRL_EN = false → engState s 0 = 0 → engState s 1 = 0 → Does .linkStop s (fun t =>
    t.on Fd.WVR_STATUS_LINK_UP = false ∧ t.on Fd.WVR_STATUS_QUIESCENT = true ∧
    Frame [Fd.WVR_STATUS_LINK_UP, Fd.WVR_STATUS_QUIESCENT] [] [] s t))

/-- TALLIED_EDGE of an enabled input that the prescaler passes takes the next EV.SEQ, and with the queue on and room in it stores the
16-byte entry of its stamp at WR and moves WR on; an edge that the prescaler drops only counts, one within 32 ticks of the last counts
OVERRUN with event 0x0C02, and one of a disabled input does nothing. A gate edge is noted for the units that wait for it: an armed unit
opens its window at it. FM_ARM of an idle unit arms it, FM_STOP ends any. Counts that give no valid table raise event 0x0C05; the
first valid ones of an uncalibrated input become its table at the next landing. -/
def Obligations.TallyStampsAndCountsEdges : Prop :=
  (∀ (s : State) (k : Fin 8) (r : Bool) (c : Fin 32), s.run = false ∨ s.on (Fd.EV_CFG_EN k.val) = false →
    exec (.talliedEdge k r c) s = .next s) ∧
  (∀ (s : State) (k : Fin 8) (r : Bool) (c : Fin 32) (stamp : Nat) (entry : List Byte), s.run = true →
    s.on (Fd.EV_CFG_EN k.val) = true → edgeSel (s.get (Fd.EV_CFG_EDGE k.val)) r = true → gateUse s k.val r = false →
    look 0 s.tly.pre k.val % (s.get (Fd.EV_CFG_PRE k.val) + 1) = 0 → s.tly.last = [] → s.on (Fd.EV_CFG_QEN k.val) = true →
    (s.get (Fd.EV_WR k.val) + 65536 - s.get (Fd.EV_RD k.val)) % 65536 ≠ 65535 → s.tly.steps = [] →
    s.on (Fd.PLL_STATUS_HOLD 1) = false → s.get Fd.TRG_CTRL_EN = 0 → s.get Fd.WVR_JSRC_EVMASK = 0 → s.past = [] →
    stamp = (((256 * s.sys.next.toNat + calCentre s k.val c.val : Nat) : Int) - (s.get (Fd.EV_TIN k.val) : Nat) +
      s.getI (Fd.EV_DESKEW k.val)) % ((2 ^ 72 : Nat) : Int) →
    entry = le 9 stamp ++ le 1 (b2n r + b2n (s.onBit Fd.TLY_STATUS_UNCAL k.val) * 4 +
      b2n (s.get (Fd.EV_SEQ k.val) != look 0 s.tly.stored k.val) * 2) ++ le 1 0 ++ le 1 k.val ++
      le 4 (s.get (Fd.EV_SEQ k.val)) →
    Does (.talliedEdge k r c) s (fun t => Holds t (0x010004000000 + k.val * 0x100000 + 16 * s.get (Fd.EV_WR k.val)) entry ∧
      t.get (Fd.EV_SEQ k.val) = (s.get (Fd.EV_SEQ k.val) + 1) % 2 ^ 32 ∧
      t.get (Fd.EV_WR k.val) = (s.get (Fd.EV_WR k.val) + 1) % 65536 ∧
      look 0 t.tly.pre k.val = look 0 s.tly.pre k.val + 1 ∧
      StoreFrame (0x010004000000 + k.val * 0x100000 + 16 * s.get (Fd.EV_WR k.val)) 16 [Fd.EV_SEQ k.val, Fd.EV_WR k.val]
        [.tly, .scr, .hbm] [] s t)) ∧
  (∀ (s : State) (k : Fin 8) (r : Bool) (c : Fin 32), s.run = true → s.on (Fd.EV_CFG_EN k.val) = true →
    edgeSel (s.get (Fd.EV_CFG_EDGE k.val)) r = true → gateUse s k.val r = false →
    look 0 s.tly.pre k.val % (s.get (Fd.EV_CFG_PRE k.val) + 1) ≠ 0 → Does (.talliedEdge k r c) s (fun t =>
      look 0 t.tly.pre k.val = look 0 s.tly.pre k.val + 1 ∧ Frame [] [.tly] [] s t)) ∧
  (∀ (s : State) (k : Fin 8) (r : Bool) (c : Fin 32) (l : Nat), s.run = true → s.on (Fd.EV_CFG_EN k.val) = true →
    edgeSel (s.get (Fd.EV_CFG_EDGE k.val)) r = true → look 0 s.tly.pre k.val % (s.get (Fd.EV_CFG_PRE k.val) + 1) = 0 →
    s.tly.last.find? (fun e => e.1 == k.val) = some (k.val, l) →
    256 * s.sys.next.toNat + calCentre s k.val c.val < l + 32 * 256 → s.sys.windows = [] →
    Does (.talliedEdge k r c) s (fun t => t.get (Fd.EV_SEQ k.val) = (s.get (Fd.EV_SEQ k.val) + 1) % 2 ^ 32 ∧
      t.get (Fd.EV_OVERRUN k.val) = min (s.get (Fd.EV_OVERRUN k.val) + 1) (2 ^ (Fd.EV_OVERRUN 0).width - 1) ∧
      Frame [Fd.EV_SEQ k.val, Fd.EV_OVERRUN k.val] [.tly, .sys] [(0x0C02, [.w4 k.val, .w4 (s.get (Fd.EV_SEQ k.val))])] s t)) ∧
  (∀ (s : State) (r : Bool) (c : Fin 32), s.run = true → s.on (Fd.EV_CFG_EN 8) = true → gateUse s 8 r = true →
    s.tly.last = [] → (∀ n, n < 8 → s.get (Fd.FM_STATUS_STATE n) = 0) → Does (.gateEdge 8 r c) s (fun t =>
      (∃ g : TlyEdge, look [] t.tly.gates 8 = g :: look [] s.tly.gates 8 ∧ g.rising = r ∧
        g.seq = s.get (Fd.EV_SEQ 8)) ∧ Frame [] [.tly] [] s t)) ∧
  (∀ (s : State) (n : Fin 8) (g : TlyEdge), s.get (Fd.FM_STATUS_STATE n.val) = 1 → g.rising = !s.on (Fd.FM_CTRL_GPOL n.val) →
    (s.fmUnit n.val).armAt ≤ g.stamp →
    (fmGate n.val g s).get (Fd.FM_STATUS_STATE n.val) = 2 ∧ ((fmGate n.val g s).fmUnit n.val).opened = some g ∧
    Frame [Fd.FM_STATUS_STATE n.val] [.tly] [] s (fmGate n.val g s)) ∧
  (∀ (s : State) (n : Fin 8), s.get (Fd.FM_STATUS_STATE n.val) = 0 → s.tly.gates = [] → Does (.fmArm n) s (fun t =>
    t.get (Fd.FM_STATUS_STATE n.val) = 1 ∧ (t.fmUnit n.val).armAt = 256 * (arrivalNow s).toNat ∧
    Frame [Fd.FM_STATUS_STATE n.val] [.tly] [] s t)) ∧
  (∀ (s : State) (n : Fin 8), Does (.fmStop n) s (fun t => t.get (Fd.FM_STATUS_STATE n.val) = 0 ∧
    (t.fmUnit n.val).opened = none ∧ Frame [Fd.FM_STATUS_STATE n.val] [.tly] [] s t)) ∧
  (∀ (s : State) (c : Instr) (k : Fin 9) (l : List Nat), c = .tcalReq [(k, l)] ∨ c = .tcalPeriod [(k, l)] →
    s.on (Fd.EV_CFG_EN k.val) = true → tableOf l = none → Does c s (fun t => Frame [] [] [(0x0C05, [.w4 k.val])] s t)) ∧
  (∀ (s : State) (c : Instr) (k : Fin 9) (l : List Nat), c = .tcalReq [(k, l)] ∨ c = .tcalPeriod [(k, l)] →
    s.on (Fd.EV_CFG_EN k.val) = true → (tableOf l).isSome = true → s.onBit Fd.TLY_STATUS_UNCAL k.val = true →
    Does c s (fun t => look [] t.tly.counts k.val = l ∧ look true t.tly.whole k.val = false ∧ Frame [] [.tly] [] s t))

/-- The ten words that the worked example encodes decode to the instructions it lists, the all-zero word is HALT, and the two
that it calls unassigned or misplaced behave so: ST with PM = 0 and Mm = 6 does not decode. -/
def Obligations.CykinWordsDecodeAsTheWorkedExample : Prop :=
  decodeCyk 0x80248000 = some (.ld 0 ⟨4, some 4⟩) ∧ decodeCyk 0x400021E0 = some (.mvi 0 0x21E0) ∧
  decodeCyk 0x88280000 = some (.st 0 ⟨5, none⟩) ∧ decodeCyk 0x404011E0 = some (.mvi 1 0x11E0) ∧
  decodeCyk 0x2C03C046 = some (.loop 15 0x46) ∧ decodeCyk 0xE4000000 = some (.clr 0) ∧
  decodeCyk 0xE8009000 = some (.ftap 0 0 0 1 1 false) ∧ decodeCyk 0x04000000 = some .nop ∧
  decodeCyk 0xF040000F = some (.satmv 1 0 15) ∧ decodeCyk 0x88768000 = some (.st 1 ⟨6, some 6⟩) ∧
  decodeCyk 0 = some .halt ∧ decodeCyk 0x88360000 = none

/-- For every Cykin instruction whose operands keep the limits beside their widths, decoding its encoded word gives it back, and the
word has 32 bits; and a word that decodes to an instruction is the one that the instruction encodes to, so a bit that its format
marks 0 is 0. -/
def Obligations.CykinDecodingAndEncodingAgree : Prop :=
  (∀ i : CykInstr, i.wf = true → decodeCyk (encodeCyk i) = some i ∧ encodeCyk i < 2 ^ 32) ∧
  (∀ (w : Nat) (i : CykInstr), decodeCyk w = some i → encodeCyk i = w ∧ i.wf = true)

/-- With nothing else in flight, a register write made d cycles after the issue of an instruction is not seen by what reads at an
earlier cycle's end and is seen by what reads at that cycle's end or later; so the instruction issued next sees a result of delay 0
in stage D, and sees one of delay 2 in stage D only two issues later. A drained core has made every write. -/
def Obligations.CykinWritesArriveInTheirStage : Prop :=
  (∀ (c : CoreSt) (d r v m : Nat), c.pipe = [] → v < 2 ^ 32 →
    ((c.push d (.reg r v)).settle m).reg r = (if c.cycle + d ≤ m then v else c.reg r) ∧
    (∀ q, q ≠ r → ((c.push d (.reg r v)).settle m).reg q = c.reg q) ∧
    (c.push d (.reg r v)).drain.reg r = v ∧ (c.push d (.reg r v)).drain.pipe = []) ∧
  (∀ (c : CoreSt) (r v : Nat), c.pipe = [] → v < 2 ^ 32 →
    ({ c.push 0 (.reg r v) with cycle := c.cycle + 1 }).atD.reg r = v ∧
    ({ c.push 2 (.reg r v) with cycle := c.cycle + 1 }).atD.reg r = c.reg r ∧
    ({ c.push 2 (.reg r v) with cycle := c.cycle + 3 }).atD.reg r = v) ∧
  (∀ (c : CoreSt) (d n m : Nat) (v : List Int), c.pipe = [] →
    ((c.push d (.d n v)).settle m).dv n = (if c.cycle + d ≤ m then v else c.dv n) ∧
    ((c.push d (.ac n v)).settle m).acv n = (if c.cycle + d ≤ m then v else c.acv n)) ∧
  (∀ (c : CoreSt) (d m b : Nat), c.pipe = [] → c.cycle + d ≤ m →
    ((c.push d (.faccOr b)).settle m).facc = Nat.lor c.facc (b % 256) ∧
    ((c.push d (.sr b)).settle m).sr = b % 128 ∧
    ((c.push d (.causeClr b)).settle m).icause = c.icause - Nat.land c.icause b)

/-- Each control instruction that a core is about to issue does what R434 gives it: HALT halts with cause 1 and event 0x0D01; a
taken branch, CALL or JR puts its target behind the delay slot, one not taken none; CALL saves the address after the slot; LOOP and
LOOPR set LC, LB and LE; TRAP sets its cause; RETI restores SR and goes on at IPC; DI and EI write IE. -/
def Obligations.CykinControlTransfers : Prop :=
  (∀ (s : State) (n : Fin 128) (c : CoreSt), Issues n.val .halt c s → Does (.halt n) s (fun t =>
    coreState t n.val = 1 ∧ t.get (Fd.COR_STATUS_CAUSE n.val) = 1 ∧ (t.core n.val).pipe = [] ∧
    t.get (Fd.COR_PC n.val) = (s.get (Fd.COR_PC n.val) + 1) % 16384 ∧
    Frame (issueRegs n.val ++ [Fd.COR_STATUS_CAUSE n.val, Fd.COR_STATUS_QUIESCENT n.val, Fd.COR_CTRL_RUN n.val,
      Fd.CYK_STATUS_QUIESCENT]) [.cyk]
      [(0x0D01, [.w4 n.val, .w4 1, .w4 ((s.get (Fd.COR_PC n.val) + 1) % 16384)])] s t)) ∧
  (∀ (s : State) (n : Fin 128) (c : CoreSt), Issues n.val .nop c s → IssuesTo (.nop n) n.val (noSlot c) [] s) ∧
  (∀ (s : State) (n : Fin 128) (c : CoreSt), Issues n.val .trap c s →
    IssuesTo (.trap n) n.val { noSlot c with icause := setBit c.icause 7, trap := true } [] s) ∧
  (∀ (s : State) (n : Fin 128) (c : CoreSt), Issues n.val .reti c s → Does (.reti n) s (fun t =>
    Retires n.val { (noSlot c).drain with sr := (noSlot c).drain.isr % 128 } [] 1 c.drain.ipc s t ∧
    Frame (issueRegs n.val) [.cyk] [] s t)) ∧
  (∀ (s : State) (n : Fin 128) (c : CoreSt), Issues n.val .di c s →
    IssuesTo (.di n) n.val (noSlot c) [(0, .ie false)] s) ∧
  (∀ (s : State) (n : Fin 128) (c : CoreSt), Issues n.val .ei c s →
    IssuesTo (.ei n) n.val (noSlot c) [(0, .ie true)] s) ∧
  (∀ (s : State) (n : Fin 128) (c : CoreSt) (g : BitVec 14), Issues n.val (.br g) c s →
    IssuesTo (.br n) n.val (inSlot c (some g.toNat)) [] s) ∧
  (∀ (s : State) (n : Fin 128) (c : CoreSt) (r : Fin 16) (g : BitVec 14), Issues n.val (.call r g) c s →
    IssuesTo (.call n) n.val (inSlot c (some g.toNat)) [(0, .reg r.val ((s.get (Fd.COR_PC n.val) + 2) % 16384))] s) ∧
  (∀ (s : State) (n : Fin 128) (c : CoreSt) (r : Fin 16) (g : BitVec 14), Issues n.val (.bz r g) c s →
    IssuesTo (.bz n) n.val (inSlot c (if c.atD.reg r.val = 0 then some g.toNat else none)) [] s) ∧
  (∀ (s : State) (n : Fin 128) (c : CoreSt) (r : Fin 16) (g : BitVec 14), Issues n.val (.bnz r g) c s →
    IssuesTo (.bnz n) n.val (inSlot c (if c.atD.reg r.val = 0 then none else some g.toNat)) [] s) ∧
  (∀ (s : State) (n : Fin 128) (c : CoreSt) (r : Fin 16) (g : BitVec 14), Issues n.val (.bltz r g) c s →
    IssuesTo (.bltz n) n.val (inSlot c (if sext 32 (c.atD.reg r.val) < 0 then some g.toNat else none)) [] s) ∧
  (∀ (s : State) (n : Fin 128) (c : CoreSt) (k : BitVec 12) (e : BitVec 14), Issues n.val (.loop k e) c s →
    IssuesTo (.loop n) n.val { inSlot c none with
      lc := k.toNat + 1, lb := (s.get (Fd.COR_PC n.val) + 2) % 16384, le := e.toNat } [] s) ∧
  (∀ (s : State) (n : Fin 128) (c : CoreSt) (a : Fin 8) (e : BitVec 14), Issues n.val (.loopr a e) c s →
    IssuesTo (.loopr n) n.val { inSlot c none with
      lc := c.atD.reg a.val % 2 ^ 17, lb := (s.get (Fd.COR_PC n.val) + 2) % 16384, le := e.toNat } [] s) ∧
  (∀ (s : State) (n : Fin 128) (c : CoreSt) (r : Fin 16), Issues n.val (.jr r) c s →
    IssuesTo (.jr n) n.val (inSlot c (some (c.atD.reg r.val % 16384))) [] s)

/-- An instruction that issues in a delay slot is followed by the target of the transfer, if it was taken; a transfer there halts the
core with cause 2 before it issues. At the loop end with LEN 1, LC above 1 counts down and issue goes on at LB; at 1 it becomes 0
and issue goes on behind the loop. A word that no encoding is assigned to halts the core with cause 2. -/
def Obligations.CykinDelaySlotsAndLoops : Prop :=
  (∀ (s : State) (n : Fin 128) (c : CoreSt) (g : Nat), c = s.core n.val → c.cycle ≤ 1 → coreState s n.val = 2 → c.far = none →
    c.slot = true → c.target = some g → decodeCyk (imWord s n.val (s.get (Fd.COR_PC n.val))) = some .nop →
    (c.atD.len && s.get (Fd.COR_PC n.val) == c.le) = false →
    Does (.nop n) s (fun t => Retires n.val (noSlot c) [] 1 g s t ∧ Frame (issueRegs n.val) [.cyk] [] s t)) ∧
  (∀ (s : State) (n : Fin 128) (g : BitVec 14), coreState s n.val = 2 → (s.core n.val).far = none →
    (s.core n.val).cycle ≤ 1 → (s.core n.val).slot = true →
    decodeCyk (imWord s n.val (s.get (Fd.COR_PC n.val))) = some (.br g) → Does (.br n) s (fun t =>
      coreState t n.val = 1 ∧ t.get (Fd.COR_STATUS_CAUSE n.val) = 2 ∧ t.get (Fd.COR_PC n.val) = s.get (Fd.COR_PC n.val) ∧
      Frame [Fd.COR_STATUS_STATE n.val, Fd.COR_STATUS_CAUSE n.val, Fd.COR_STATUS_QUIESCENT n.val, Fd.COR_CTRL_RUN n.val,
        Fd.CYK_STATUS_QUIESCENT] [.cyk] [(0x0D01, [.w4 n.val, .w4 2, .w4 (s.get (Fd.COR_PC n.val))])] s t)) ∧
  (∀ (c : CoreSt) (pc : Nat), c.atD.len = true → pc = c.le → 1 < c.lc →
    loopStep c pc = ({ c with lc := c.lc - 1 }, c.lb)) ∧
  (∀ (c : CoreSt) (pc : Nat), c.atD.len = true → pc = c.le → c.lc ≤ 1 →
    loopStep c pc = ({ c with lc := 0 }, (pc + 1) % 16384)) ∧
  (∀ (s : State) (n : Fin 128), coreState s n.val = 2 → (s.core n.val).far = none → (s.core n.val).stopping = false →
    irqDue (s.core n.val) = false → decodeCyk (imWord s n.val (s.get (Fd.COR_PC n.val))) = none →
    Does (.unassignedEncoding n) s (fun t => coreState t n.val = 1 ∧ t.get (Fd.COR_STATUS_CAUSE n.val) = 2 ∧
      Frame [Fd.COR_STATUS_STATE n.val, Fd.COR_STATUS_CAUSE n.val, Fd.COR_STATUS_QUIESCENT n.val, Fd.COR_CTRL_RUN n.val,
        Fd.CYK_STATUS_QUIESCENT] [.cyk] [(0x0D01, [.w4 n.val, .w4 2, .w4 (s.get (Fd.COR_PC n.val))])] s t))

/-- Each scalar instruction that a core is about to issue writes its result with the delay of its class: MVI the sign-extended
immediate, MVIH the upper half, ADDI and ALUA the wrapped result, MVTS the special register at the end of W, MVFS what it holds in M,
MVDA lane 0, MVAD every lane, CYC the cycle count at its issue; nothing else changes. -/
def Obligations.CykinScalarInstructions : Prop :=
  (∀ (s : State) (n : Fin 128) (c : CoreSt) (r : Fin 16) (v : BitVec 16), Issues n.val (.mvi r v) c s →
    IssuesTo (.mvi n) n.val (noSlot c) [(0, .reg r.val (v.signExtend 32).toNat)] s) ∧
  (∀ (s : State) (n : Fin 128) (c : CoreSt) (r : Fin 16) (v : BitVec 16), Issues n.val (.mvih r v) c s →
    IssuesTo (.mvih n) n.val (noSlot c) [(0, .reg r.val (v.toNat * 65536 + c.atD.reg r.val % 65536))] s) ∧
  (∀ (s : State) (n : Fin 128) (c : CoreSt) (r : Fin 16) (v : BitVec 16), Issues n.val (.addi r v) c s →
    IssuesTo (.addi n) n.val (noSlot c) [(0, .reg r.val ((c.atD.reg r.val + (v.signExtend 32).toNat) % 2 ^ 32))] s) ∧
  (∀ (s : State) (n : Fin 128) (c : CoreSt) (r a b : Fin 16), Issues n.val (.alua .add r a b) c s →
    IssuesTo (.aluaAdd n) n.val (noSlot c) [(0, .reg r.val ((c.atD.reg a.val + c.atD.reg b.val) % 2 ^ 32))] s) ∧
  (∀ (s : State) (n : Fin 128) (c : CoreSt) (r a b : Fin 16), Issues n.val (.alua .sub r a b) c s →
    IssuesTo (.aluaSub n) n.val (noSlot c)
      [(0, .reg r.val ((c.atD.reg a.val + (2 ^ 32 - c.atD.reg b.val % 2 ^ 32)) % 2 ^ 32))] s) ∧
  (∀ (s : State) (n : Fin 128) (c : CoreSt) (r a b : Fin 16), Issues n.val (.alua .and r a b) c s →
    IssuesTo (.aluaAnd n) n.val (noSlot c) [(0, .reg r.val (Nat.land (c.atD.reg a.val) (c.atD.reg b.val)))] s) ∧
  (∀ (s : State) (n : Fin 128) (c : CoreSt) (r a b : Fin 16), Issues n.val (.alua .or r a b) c s →
    IssuesTo (.aluaOr n) n.val (noSlot c) [(0, .reg r.val (Nat.lor (c.atD.reg a.val) (c.atD.reg b.val)))] s) ∧
  (∀ (s : State) (n : Fin 128) (c : CoreSt) (r a b : Fin 16), Issues n.val (.alua .xor r a b) c s →
    IssuesTo (.aluaXor n) n.val (noSlot c) [(0, .reg r.val (Nat.xor (c.atD.reg a.val) (c.atD.reg b.val)))] s) ∧
  (∀ (s : State) (n : Fin 128) (c : CoreSt) (r a b : Fin 16), Issues n.val (.alua .sll r a b) c s →
    IssuesTo (.aluaSll n) n.val (noSlot c) [(0, .reg r.val (c.atD.reg a.val * 2 ^ (c.atD.reg b.val % 32) % 2 ^ 32))] s) ∧
  (∀ (s : State) (n : Fin 128) (c : CoreSt) (r a b : Fin 16), Issues n.val (.alua .srl r a b) c s →
    IssuesTo (.aluaSrl n) n.val (noSlot c) [(0, .reg r.val (c.atD.reg a.val / 2 ^ (c.atD.reg b.val % 32)))] s) ∧
  (∀ (s : State) (n : Fin 128) (c : CoreSt) (r a b : Fin 16), Issues n.val (.alua .sra r a b) c s →
    IssuesTo (.aluaSra n) n.val (noSlot c)
      [(0, .reg r.val ((BitVec.ofNat 32 (c.atD.reg a.val)).sshiftRight (c.atD.reg b.val % 32)).toNat)] s) ∧
  (∀ (s : State) (n : Fin 128) (c : CoreSt) (r : Fin 16) (k : Fin 9), Issues n.val (.mvts r k) c s →
    IssuesTo (.mvts n) n.val (noSlot c) [(4, specialSet k.val (c.atD.reg r.val))] s) ∧
  (∀ (s : State) (n : Fin 128) (c : CoreSt) (r : Fin 16) (k : Fin 9), Issues n.val (.mvfs r k) c s →
    IssuesTo (.mvfs n) n.val (noSlot c) [(2, .reg r.val (specialGet k.val c.atM))] s) ∧
  (∀ (s : State) (n : Fin 128) (c : CoreSt) (r d : Fin 16), Issues n.val (.mvda r d) c s →
    IssuesTo (.mvda n) n.val (noSlot c) [(2, .reg r.val (laneWord (c.atM.dv d.val) 0))] s) ∧
  (∀ (s : State) (n : Fin 128) (c : CoreSt) (d r : Fin 16), Issues n.val (.mvad d r) c s →
    IssuesTo (.mvad n) n.val (noSlot c) [(3, .d d.val (spread (c.atD.reg r.val)))] s) ∧
  (∀ (s : State) (n : Fin 128) (c : CoreSt) (r : Fin 16), Issues n.val (.cyc r) c s →
    IssuesTo (.cyc n) n.val (noSlot c) [(2, .reg r.val (c.cycle % 2 ^ 32))] s)

/-- A near load reads its aligned bytes from data memory and writes a vector, every lane or a scalar register at the end of M, with the
post-modification of its pointer; a far one stalls the core at its device address. A near store writes its bytes at the aligned address
of data memory and nowhere else. The return of a far load writes its data as if issued then and lets the core go on. -/
def Obligations.CykinMemoryInstructions : Prop :=
  (∀ (s : State) (n : Fin 128) (c : CoreSt) (d : Fin 16) (m : CykMem), Issues n.val (.ld d m) c s →
    c.atD.reg m.an.val < 2 ^ 31 → IssuesTo (.ld n) n.val (noSlot c)
      (memPost c m ++ [(2, .d d.val (vecOf (s.load (dmAt n.val (c.atD.reg m.an.val) 32) 32)))]) s) ∧
  (∀ (s : State) (n : Fin 128) (c : CoreSt) (d : Fin 16) (m : CykMem), Issues n.val (.ldr d m) c s →
    c.atD.reg m.an.val < 2 ^ 31 → IssuesTo (.ldr n) n.val (noSlot c)
      (memPost c m ++ [(2, .d d.val (spread (s.loadN (dmAt n.val (c.atD.reg m.an.val) 4) 4)))]) s) ∧
  (∀ (s : State) (n : Fin 128) (c : CoreSt) (r : Fin 16) (m : CykMem), Issues n.val (.lda r m) c s →
    c.atD.reg m.an.val < 2 ^ 31 → IssuesTo (.lda n) n.val (noSlot c)
      (memPost c m ++ [(2, .reg r.val (s.loadN (dmAt n.val (c.atD.reg m.an.val) 4) 4))]) s) ∧
  (∀ (s : State) (n : Fin 128) (c : CoreSt) (d : Fin 16) (m : CykMem), Issues n.val (.ld d m) c s →
    2 ^ 31 ≤ c.atD.reg m.an.val → IssuesTo (.ld n) n.val
      { noSlot c with far := some ⟨farAt s n.val (c.atD.reg m.an.val) 32, 0, d.val⟩ } (memPost c m) s) ∧
  (∀ (s : State) (n : Fin 128) (c : CoreSt) (m : CykMem), memPost c m = (match m.mm with
    | none => []
    | some k => [(0, .reg m.an.val ((c.atD.reg m.an.val + c.atD.reg (8 + k.val)) % 2 ^ 32))]) ∧
    dmAt n.val (c.atD.reg m.an.val) 32 = 0x010000000000 + n.val * 0x80000 + c.atD.reg m.an.val % 2 ^ 18 / 32 * 32 ∧
    farAt s n.val (c.atD.reg m.an.val) 32 =
      (s.rd64 (0x1800010 + 0x100 * n.val) + (c.atD.reg m.an.val - 2 ^ 31)) % 2 ^ 48 / 32 * 32) ∧
  (∀ (s : State) (n : Fin 128) (c : CoreSt) (d : Fin 16) (m : CykMem), Issues n.val (.st d m) c s →
    c.atD.reg m.an.val < 2 ^ 31 → (c.atM.dv d.val).length = 16 → Does (.st n) s (fun t =>
      Retires n.val (noSlot c) (memPost c m) 1 (s.get (Fd.COR_PC n.val) + 1) s t ∧
      Holds t (dmAt n.val (c.atD.reg m.an.val) 32) (vecBytes (c.atM.dv d.val)) ∧
      StoreFrame (dmAt n.val (c.atD.reg m.an.val) 32) 32 (issueRegs n.val) [.cyk, .hbm] [] s t)) ∧
  (∀ (s : State) (n : Fin 128) (c : CoreSt) (r : Fin 16) (m : CykMem), Issues n.val (.sta r m) c s →
    c.atD.reg m.an.val < 2 ^ 31 → Does (.sta n) s (fun t =>
      Retires n.val (noSlot c) (memPost c m) 1 (s.get (Fd.COR_PC n.val) + 1) s t ∧
      Holds t (dmAt n.val (c.atD.reg m.an.val) 4) (le 4 (c.atD.reg r.val)) ∧
      StoreFrame (dmAt n.val (c.atD.reg m.an.val) 4) 4 (issueRegs n.val) [.cyk, .hbm] [] s t)) ∧
  (∀ (s : State) (n : Fin 128) (f : FarLoad), (s.core n.val).far = some f → Does (.farLoadReturn n) s (fun t =>
    let r := farRead n.val f.addr (if f.form = 0 then 32 else 4) s
    (t.core n.val).far = none ∧ (t.core n.val).cycle = (r.2.2.core n.val).cycle ∧
    (r.2.1 = false → (t.core n.val).pipe =
      insOp ⟨(r.2.2.core n.val).cycle - 1 + 2, 1, loadWrite f.form f.reg r.1⟩ (r.2.2.core n.val).pipe) ∧
    t.regs = r.2.2.regs ∧ t.mem = r.2.2.mem ∧ t.eseq = r.2.2.eseq ∧ t.pending = r.2.2.pending))

/-- Each VOP function that a core is about to issue writes Dd at the end of X2 with the lanes that R440 gives it; LDAC, MAC, CLR and FTAP
write the accumulator there, MV and SATMV a vector from it; FTAP moves both pointers and writes the vector it read 32 bytes on. Saturating
sums hold to 16 bits, a wrapped accumulator part sets OVn with it. -/
def Obligations.CykinVectorInstructions : Prop :=
  (∀ (s : State) (n : Fin 128) (c : CoreSt) (d a b h : Fin 16) (row : VopFn × Instr),
    row ∈ [(VopFn.add, Instr.vopAdd n), (.sub, .vopSub n), (.adds, .vopAdds n), (.subs, .vopSubs n), (.sra, .vopSra n),
      (.conj, .vopConj n), (.cmuls, .vopCmuls n), (.mov, .vopMov n), (.swap, .vopSwap n)] →
    Issues n.val (.vop row.1 d a b h) c s → IssuesTo row.2 n.val (noSlot c)
      [(3, .d d.val (vopVal row.1 h.val (c.atM.dv a.val) (c.atM.dv b.val)))] s) ∧
  (∀ (h l : Nat) (a b : List Int), l < 8 →
    partOf (vopVal .add h a b) (2 * l) = sext 16 (encI 16 (partOf a (2 * l) + partOf b (2 * l))) ∧
    partOf (vopVal .sub h a b) (2 * l + 1) = sext 16 (encI 16 (partOf a (2 * l + 1) - partOf b (2 * l + 1))) ∧
    partOf (vopVal .adds h a b) (2 * l) = max (-32768) (min 32767 (partOf a (2 * l) + partOf b (2 * l))) ∧
    partOf (vopVal .subs h a b) (2 * l + 1) = max (-32768) (min 32767 (partOf a (2 * l + 1) - partOf b (2 * l + 1))) ∧
    partOf (vopVal .sra h a b) (2 * l) = partOf a (2 * l) / 2 ^ h ∧
    partOf (vopVal .conj h a b) (2 * l) = partOf a (2 * l) ∧
    partOf (vopVal .conj h a b) (2 * l + 1) = sext 16 (encI 16 (-partOf a (2 * l + 1))) ∧
    partOf (vopVal .cmuls h a b) (2 * l) = max (-32768) (min 32767
      ((partOf a (2 * l) * partOf b (2 * l) - partOf a (2 * l + 1) * partOf b (2 * l + 1)) / 32768)) ∧
    partOf (vopVal .swap h a b) (2 * l) = partOf a (2 * l + 1) ∧ partOf (vopVal .swap h a b) (2 * l + 1) = partOf a (2 * l)) ∧
  (∀ (s : State) (n : Fin 128) (c : CoreSt) (ac : Fin 4) (da : Fin 16) (add u : Bool) (k : Fin 32),
    Issues n.val (.ldac ac da add u k) c s → IssuesTo (.ldac n) n.val (noSlot c)
      [(3, .ac ac.val (ldacVal add u k.val (c.atX2.acv ac.val) (c.atM.dv da.val)))] s) ∧
  (∀ (s : State) (n : Fin 128) (c : CoreSt) (ac : Fin 4) (da db : Fin 16) (cj neg : Bool),
    Issues n.val (.mac ac da db cj neg) c s → IssuesTo (.mac n) n.val (noSlot c)
      (macWrites ac.val c (macProd cj neg (c.atM.dv da.val) (c.atM.dv db.val))) s) ∧
  (∀ (c : CoreSt) (ac : Nat) (p : List Int), macWrites ac c p =
    (3, .ac ac ((List.range 16).map (fun k => sext 40 (encI 40 (partOf (c.atX2.acv ac) k + partOf p k))))) ::
      (if (List.range 16).any (fun k => sext 40 (encI 40 (partOf (c.atX2.acv ac) k + partOf p k)) !=
        partOf (c.atX2.acv ac) k + partOf p k) then [(3, .ov ac)] else [])) ∧
  (∀ (s : State) (n : Fin 128) (c : CoreSt) (ac : Fin 4), Issues n.val (.clr ac) c s →
    IssuesTo (.clr n) n.val (noSlot c) [(3, .ac ac.val (List.replicate 16 0))] s) ∧
  (∀ (s : State) (n : Fin 128) (c : CoreSt) (ac : Fin 4) (aa ma ab mb : Fin 8) (cj : Bool),
    Issues n.val (.ftap ac aa ma ab mb cj) c s → Does (.ftap n) s (fun t =>
      let pa := c.atD.reg aa.val
      let pb := c.atD.reg ab.val
      let x := s.load (dmAt n.val pb 32) 32
      let a := dmAt n.val (floorTo 32 (pb % 2 ^ 18) + 32) 32
      let a1 := (pa + c.atD.reg (8 + ma.val)) % 2 ^ 32
      Retires n.val (noSlot c) (macWrites ac.val c (macProd cj false (vecOf x) (vecOf (s.load (dmAt n.val pa 32) 32))) ++
        [(0, .reg aa.val a1), (0, .reg ab.val (((if ab = aa then a1 else pb) + c.atD.reg (8 + mb.val)) % 2 ^ 32))])
        1 (s.get (Fd.COR_PC n.val) + 1) s t ∧ Holds t a x ∧ StoreFrame a 32 (issueRegs n.val) [.cyk, .hbm] [] s t)) ∧
  (∀ (s : State) (n : Fin 128) (c : CoreSt) (d : Fin 16) (ac : Fin 4) (k : Fin 32), Issues n.val (.mv d ac k) c s →
    IssuesTo (.mv n) n.val (noSlot c) [(3, .d d.val ((c.atX1.acv ac.val).map (fun x => sext 16 (encI 16 (sar x k.val)))))] s) ∧
  (∀ (s : State) (n : Fin 128) (c : CoreSt) (d : Fin 16) (ac : Fin 4) (k : Fin 32), Issues n.val (.satmv d ac k) c s →
    IssuesTo (.satmv n) n.val (noSlot c)
      [(3, .d d.val ((c.atX1.acv ac.val).map (fun x => max (-32768) (min 32767 (sar x k.val)))))] s)

/-- A POP of a ring that holds an item takes the address of the oldest one not popped and ORs its DFLAGS into FACC; on an empty ring the
core waits and nothing else changes. FREE releases the oldest popped item, if there is one. POST writes the item of its descriptor to
the output ring that has room, counts OSEQ and OWR on, and clears FACC unless PERSIST is 1. TPOST on an enabled line of this core moves
the line's report on, with its trigger if P is 1; on any other line it is discarded with TPDISC and event 0x0D05. -/
def Obligations.CykinPopsFreesAndPosts : Prop :=
  (∀ (s : State) (n : Fin 128) (c : CoreSt) (an : Fin 8) (r : Fin 4), Issues n.val (.pop an r) c s →
    s.get (Fd.COR_IQ_SLOTS_SLOTS n.val r.val) ≠ 0 → (c.ring r.val).popped < (c.ring r.val).stored →
    IssuesTo (.pop n) n.val ((noSlot c).setRing r.val { c.ring r.val with popped := (c.ring r.val).popped + 1 })
      [(2, .reg an.val (slotAt s n.val r.val (c.ring r.val).popped)),
       (2, .faccOr (Memory.byte s.mem (dmBase n.val + (slotAt s n.val r.val (c.ring r.val).popped + 14) % 2 ^ 18)).toNat)] s) ∧
  (∀ (s : State) (n : Fin 128) (c : CoreSt) (an : Fin 8) (r : Fin 4), Issues n.val (.pop an r) c s →
    s.get (Fd.COR_IQ_SLOTS_SLOTS n.val r.val) = 0 ∨ (c.ring r.val).stored ≤ (c.ring r.val).popped →
    Does (.pop n) s (fun t => coreState t n.val = 3 ∧ Frame [Fd.COR_STATUS_STATE n.val] [] [] s t)) ∧
  (∀ (s : State) (n : Fin 128) (c : CoreSt) (r : Fin 4), Issues n.val (.free r) c s →
    IssuesTo (.free n) n.val (if (c.ring r.val).freed < (c.ring r.val).popped then
      (noSlot c).setRing r.val { c.ring r.val with freed := (c.ring r.val).freed + 1 } else noSlot c) [] s) ∧
  (∀ (s : State) (n : Fin 128) (c : CoreSt) (an : Fin 8) (item : List Byte) (len slots a : Nat), Issues n.val (.post an) c s →
    postItem s n.val (c.atD.reg an.val) c.atM.facc c.atM.persist = (item, len, false) → c.atM.facc % 128 = 0 →
    slots = max 2 (s.get (Fd.COR_OSLOTS n.val)) →
    (s.get (Fd.COR_OWR n.val) + slots - s.get (Fd.COR_ORD n.val)) % slots ≠ slots - 1 →
    a = s.rd64 (0x1800040 + 0x100 * n.val) + 32 * s.get (Fd.COR_OSLOT n.val) * s.get (Fd.COR_OWR n.val) →
    Does (.post n) s (fun t =>
      Retires n.val { noSlot c with oseq := (c.oseq + 1) % 2 ^ 32 } (if c.atM.persist then [] else [(1, .facc 0)])
        (1 + (16 + len + 31) / 32) (s.get (Fd.COR_PC n.val) + 1) s t ∧
      Holds t a item ∧ t.get (Fd.COR_OWR n.val) = (s.get (Fd.COR_OWR n.val) + 1) % slots % 2 ^ 21 ∧
      StoreFrame a item.length (issueRegs n.val ++ [Fd.COR_OWR n.val]) [.cyk, .hbm] [] s t)) ∧
  (∀ (s : State) (n : Fin 128) (addr fl : Nat) (persist : Bool),
    let p := postItem s n.val addr fl persist
    let d := dmBytes s n.val (addr % 2 ^ 18 / 32 * 32) 16
    p.1.length = 32 + p.2.1 ∧ fieldAt p.1 0 4 = 0x4F4B5943 ∧ fieldAt p.1 4 1 = 1 ∧ fieldAt p.1 5 1 = n.val ∧
    fieldAt p.1 6 1 = fl % 128 ∧ fieldAt p.1 7 1 = b2n (s.on (Fd.COR_STATUS_OLOSS n.val)) + 2 * b2n persist ∧
    fieldAt p.1 8 8 = fieldAt d 0 8 ∧ fieldAt p.1 0x10 4 = (s.core n.val).oseq % 2 ^ 32 ∧ fieldAt p.1 0x14 4 = p.2.1 ∧
    fieldAt p.1 0x18 4 = fieldAt d 12 4 ∧ p.2.1 = min (fieldAt d 8 4) (32 * s.get (Fd.COR_OSLOT n.val) - 32)) ∧
  (∀ (s : State) (n : Fin 128) (c : CoreSt) (m an : Fin 8) (p : Bool) (x : SrcSt) (time : Tick), Issues n.val (.tpost m an p) c s →
    s.on (Fd.CYK_TLINE_EN m.val) = true → s.get (Fd.CYK_TLINE_CORE m.val) = n.val → x = s.src (0x35 + m.val) →
    time = BitVec.ofNat 64 (s.loadN (dmAt n.val (c.atD.reg an.val) 8) 8) →
    Does (.tpost n) s (fun t =>
      Retires n.val (noSlot c) [] 1 (s.get (Fd.COR_PC n.val) + 1) s t ∧
      (t.src (0x35 + m.val)).upto = some (match x.upto with
        | some u => tmax u time
        | none => time) ∧
      (t.src (0x35 + m.val)).evs = (if p then
        ⟨(match x.upto with
          | some u => if tle time u then u + 1 else time
          | none => time), c.atM.facc % 128, false, false, 0⟩ :: x.evs
        else x.evs) ∧
      (∀ k, k ≠ 0x35 + m.val → t.src k = s.src k) ∧ Frame (issueRegs n.val) [.cyk, .trg] [] s t)) ∧
  (∀ (s : State) (n : Fin 128) (c : CoreSt) (m an : Fin 8) (p : Bool), Issues n.val (.tpost m an p) c s →
    s.on (Fd.CYK_TLINE_EN m.val) = false ∨ s.get (Fd.CYK_TLINE_CORE m.val) ≠ n.val →
    Does (.tpost n) s (fun t =>
      Retires n.val (noSlot c) [] 1 (s.get (Fd.COR_PC n.val) + 1) s t ∧
      t.get Fd.CYK_TPDISC = min (s.get Fd.CYK_TPDISC + 1) 65535 ∧
      Frame (issueRegs n.val ++ [Fd.CYK_TPDISC]) [.cyk] [(0x0D05, [.w4 n.val, .w4 m.val])] s t))

/-- ITEM_DELIVERY of a feed whose one run has closed an item sends it to the core that R412 names: with room in the ring its bytes
are stored in the next slot, ISEQ and the ring count on, the ring's cause sets if it was empty, and a core that waits for it runs; with
no room the item is lost and counted, OLOSS sets, and memory is unchanged. A feed without a run does nothing. -/
def Obligations.CykinItemsReachTheirRings : Prop :=
  (∀ (s : State) (f : Fin 16) (r r' : FeedRun) (x : FeedItem) (n : Nat) (q : RingSt) (bytes : List Byte) (a : Nat),
    look [] s.cyk.feeds f.val = [r] → feedNext s r = some (x, r') → s.onBit Fd.PTB_CTRL_EN 4 = false →
    (feedCores r)[r.k % max 1 (feedCores r).length]? = some n → q = (s.core n).ring r.ring →
    bytes = itemBytes x (s.get (Fd.FD_ISEQ f.val)) f.val r.kind q.lostN →
    q.stored - q.freed < s.get (Fd.COR_IQ_SLOTS_SLOTS n r.ring) →
    bytes.length ≤ 32 * s.get (Fd.COR_IQ_SLOTS_SLOT n r.ring) → a = dmBase n + slotAt s n r.ring q.stored →
    Does (.itemDelivery f) s (fun t => Holds t a bytes ∧
      t.get (Fd.FD_ISEQ f.val) = (s.get (Fd.FD_ISEQ f.val) + 1) % 2 ^ 32 ∧
      (t.core n).ring r.ring = { q with stored := q.stored + 1, lostN := 0 } ∧
      (t.core n).icause = (if q.stored = q.popped then setBit (s.core n).icause r.ring else (s.core n).icause) ∧
      coreState t n = (if coreState s n = 3 ∧ waitsAt s n r.ring = true then 2 else coreState s n) ∧
      (∀ m, m ≠ n → t.core m = s.core m) ∧
      StoreFrame a bytes.length [Fd.FD_ISEQ f.val, Fd.COR_STATUS_STATE n, Fd.CYK_STATUS_QUIESCENT] [.cyk, .hbm] [] s t)) ∧
  (∀ (s : State) (f : Fin 16) (r r' : FeedRun) (x : FeedItem) (n : Nat) (q : RingSt),
    look [] s.cyk.feeds f.val = [r] → feedNext s r = some (x, r') → s.onBit Fd.PTB_CTRL_EN 4 = false →
    (feedCores r)[r.k % max 1 (feedCores r).length]? = some n → q = (s.core n).ring r.ring →
    s.get (Fd.COR_IQ_SLOTS_SLOTS n r.ring) ≤ q.stored - q.freed →
    Does (.itemDelivery f) s (fun t => (t.core n).ring r.ring = { q with lostN := q.lostN + 1 } ∧
      t.get (Fd.COR_ILOST n) = min (s.get (Fd.COR_ILOST n) + 1) (2 ^ 32 - 1) ∧
      t.get (Fd.FD_LOST f.val) = min (s.get (Fd.FD_LOST f.val) + 1) (2 ^ 32 - 1) ∧
      t.get (Fd.FD_ISEQ f.val) = (s.get (Fd.FD_ISEQ f.val) + 1) % 2 ^ 32 ∧
      t.get (Fd.COR_STATUS_OLOSS n) = 1 ∧ (∀ m, m ≠ n → t.core m = s.core m) ∧ SameMem s t)) ∧
  (∀ (x : FeedItem) (iseq feed kind lost : Nat),
    let b := itemBytes x iseq feed kind lost
    b.length = 32 + x.body.length ∧ fieldAt b 0 8 = x.t.toNat ∧ fieldAt b 8 4 = iseq % 2 ^ 32 ∧ fieldAt b 0xC 2 = x.n % 65536 ∧
    fieldAt b 0xE 1 = x.fl % 256 ∧ fieldAt b 0xF 1 = (x.marks + 8 * b2n (decide (0 < lost))) % 256 ∧
    fieldAt b 0x10 1 = feed % 256 ∧ fieldAt b 0x11 1 = kind % 256 ∧ fieldAt b 0x12 2 = min lost 65535 ∧
    fieldAt b 0x14 4 = x.p % 2 ^ 32 ∧ fieldAt b 0x18 4 = x.csid % 2 ^ 32) ∧
  (∀ (s : State) (f : Fin 16), look [] s.cyk.feeds f.val = [] → Does (.itemDelivery f) s (fun t =>
    (∀ m, t.core m = s.core m) ∧ Frame [Fd.CYK_STATUS_QUIESCENT] [.cyk] [] s t))

/-- INTERRUPT_ENTRY at an eligible boundary with an interrupt due drains the core, saves PC and SR in IPC and ISR, clears IE and LEN
and goes on at VEC; not due, nothing happens. RUN starts a core in RESET or HALTED at PC; RUN = 0 halts a running one with cause 0 at
the next boundary, at once if it stands at an eligible one. RESET gives the core's registers their reset values and leaves memory. The
doorbell sets ICAUSE bit 4, OLOSS_CLR clears OLOSS. -/
def Obligations.CykinCoresRunHaltAndInterrupt : Prop :=
  (∀ (s : State) (n : Fin 128) (d : CoreSt), coreState s n.val = 2 ∨ coreState s n.val = 3 → (s.core n.val).slot = false →
    (s.core n.val).far = none → (s.core n.val).stopping = false → irqDue (s.core n.val) = true → d = (s.core n.val).drain →
    Does (.interruptEntry n) s (fun t =>
      t.core n.val = { d with ipc := s.get (Fd.COR_PC n.val), isr := d.sr, sr := (t.core n.val).sr, trap := false } ∧
      (t.core n.val).ie = false ∧ (t.core n.val).len = false ∧
      (∀ i, i ≠ 4 → i ≠ 5 → bit (t.core n.val).sr i = bit d.sr i) ∧ coreState t n.val = 2 ∧
      t.get (Fd.COR_PC n.val) = s.get (Fd.COR_VEC n.val) ∧ (∀ m, m ≠ n.val → t.core m = s.core m) ∧
      Frame [Fd.COR_PC n.val, Fd.COR_STATUS_STATE n.val] [.cyk] [] s t)) ∧
  (∀ (s : State) (n : Fin 128), irqDue (s.core n.val) = false ∨ (s.core n.val).slot = true ∨ coreState s n.val < 2 ∨
    (s.core n.val).far ≠ none → exec (.interruptEntry n) s = .next s) ∧
  (∀ (c : CoreSt), irqDue c = true ↔ c.trap = true ∨ bit c.atD.sr 4 = true ∧ Nat.land c.atD.icause c.atD.imask ≠ 0) ∧
  (∀ (s : State) (n : Fin 128), coreState s n.val < 2 → Does (.coreRun n true) s (fun t =>
    coreState t n.val = 2 ∧ t.get (Fd.COR_CTRL_RUN n.val) = 1 ∧ t.get (Fd.COR_STATUS_QUIESCENT n.val) = 0 ∧
    t.get Fd.CYK_STATUS_QUIESCENT = 0 ∧ t.core n.val = { s.core n.val with stopping := false } ∧
    (∀ m, m ≠ n.val → t.core m = s.core m) ∧
    Frame [Fd.COR_CTRL_RUN n.val, Fd.COR_STATUS_STATE n.val, Fd.COR_STATUS_QUIESCENT n.val, Fd.CYK_STATUS_QUIESCENT]
      [.cyk] [] s t)) ∧
  (∀ (s : State) (n : Fin 128), 2 ≤ coreState s n.val → (s.core n.val).slot = false → (s.core n.val).far = none →
    Does (.coreRun n false) s (fun t => coreState t n.val = 1 ∧ t.get (Fd.COR_STATUS_CAUSE n.val) = 0 ∧
      t.get (Fd.COR_STATUS_QUIESCENT n.val) = 1 ∧ t.get (Fd.COR_CTRL_RUN n.val) = 0 ∧
      t.core n.val = { (s.core n.val).drain with stopping := false } ∧ (∀ m, m ≠ n.val → t.core m = s.core m) ∧
      Frame [Fd.COR_CTRL_RUN n.val, Fd.COR_STATUS_STATE n.val, Fd.COR_STATUS_CAUSE n.val, Fd.COR_STATUS_QUIESCENT n.val,
        Fd.CYK_STATUS_QUIESCENT] [.cyk] [(0x0D01, [.w4 n.val, .w4 0, .w4 (s.get (Fd.COR_PC n.val))])] s t)) ∧
  (∀ (s : State) (n : Fin 128), 2 ≤ coreState s n.val → (s.core n.val).slot = true → Does (.coreRun n false) s (fun t =>
    t.core n.val = { s.core n.val with stopping := true } ∧ t.get (Fd.COR_CTRL_RUN n.val) = 0 ∧
    Frame [Fd.COR_CTRL_RUN n.val] [.cyk] [] s t)) ∧
  (∀ (s : State) (n : Fin 128), Does (.coreReset n) s (fun t => t.core n.val = CoreSt.init ∧ coreState t n.val = 0 ∧
    (∀ k, k < 64 → t.rd (0x1800000 + 0x100 * n.val + 4 * k) =
      (RegMap.resetWord (0x1800000 + 0x100 * n.val + 4 * k)).toNat) ∧ (∀ m, m ≠ n.val → t.core m = s.core m) ∧
    t.cyk.feeds = s.cyk.feeds ∧
    Frame (Fd.CYK_STATUS_QUIESCENT :: (List.range 64).map (fun k => ⟨0x1800000 + 0x100 * n.val + 4 * k, 0, 32⟩))
      [.cyk] [] s t)) ∧
  (∀ (s : State) (n : Fin 128), Does (.doorbell n) s (fun t =>
    t.core n.val = { s.core n.val with icause := (t.core n.val).icause } ∧ bit (t.core n.val).icause 4 = true ∧
    (∀ i, i ≠ 4 → bit (t.core n.val).icause i = bit (s.core n.val).icause i) ∧
    (∀ m, m ≠ n.val → t.core m = s.core m) ∧ Frame [] [.cyk] [] s t)) ∧
  (∀ (s : State) (n : Fin 128), Does (.olossClr n) s (fun t => t.get (Fd.COR_STATUS_OLOSS n.val) = 0 ∧
    Frame [Fd.COR_STATUS_OLOSS n.val] [] [] s t))

/-- The command at the front of those fetched is decoded and completes with one entry at the tail of the completion ring: CMD_NOP with
RESULT 0, an unassigned OPC with STATUS 1, TIME with its arrival stream time, REG_READ with the register or the pair, REG_WRITE with the
number of writes made, OVERLAY_APPLY with the landing at which the captured entries will act. The command head moves on, and the last
command fetched stores it at the doorbell block. Nothing else changes. -/
def Obligations.HostCommandsAreDecodedInOrder : Prop :=
  (∀ (s : State) (cmd : List Byte) (more : List (List Byte)), Decodes cmd more s → fieldAt cmd 0 2 = 0 →
    Does .cmdNop s (fun t => Completes (cmdNext s) 0 (fieldAt cmd 2 2) 0 0xFFFF false s t ∧ Decoded more s t ∧
      StoreFrame (cplAt s) 16 [Fd.HIF_CMD_HEAD, Fd.HIF_CPL_TAIL] [.hif, .hbm] [] s t)) ∧
  (∀ (s : State) (cmd : List Byte), RingRoom s → s.hif.fetched = [cmd] → s.hif.remote = [] → fieldAt cmd 0 2 = 0 →
    s.hif.tail = cmdNext s → Does .cmdNop s (fun t => t.hif.fetched = [] ∧ t.get Fd.HIF_CMD_HEAD = cmdNext s ∧
      Holds t (hostAddr (s.rd64 0xE0040 + 16)) (le 4 (cmdNext s)))) ∧
  (∀ (s : State) (cmd : List Byte) (more : List (List Byte)), Decodes cmd more s →
    fieldAt cmd 0 2 ∉ [0, 1, 2, 3, 4, 0x10, 0x11] →
    Does .badOpcode s (fun t => Completes (cmdNext s) 0 (fieldAt cmd 2 2) 1 0xFFFF false s t ∧ Decoded more s t ∧
      StoreFrame (cplAt s) 16 [Fd.HIF_CMD_HEAD, Fd.HIF_CPL_TAIL] [.hif, .hbm] [] s t)) ∧
  (∀ (s : State) (cmd : List Byte) (more : List (List Byte)), Decodes cmd more s → fieldAt cmd 0 2 = 4 →
    Does .time s (fun t => Completes (cmdNext s) (s.rd64 0x100) (fieldAt cmd 2 2) 0 0xFFFF false s t ∧ Decoded more s t ∧
      StoreFrame (cplAt s) 16 [Fd.HIF_CMD_HEAD, Fd.HIF_CPL_TAIL] [.hif, .hbm] [] s t)) ∧
  (∀ (s : State) (cmd : List Byte) (more : List (List Byte)) (off : Nat), Decodes cmd more s → fieldAt cmd 0 2 = 2 →
    fieldAt cmd 0xC 1 = 0 → off = fieldAt cmd 8 4 % 2 ^ 26 / 4 * 4 → (∀ u, busRead off u = (u.rd off, u)) →
    off ∉ [Fd.HIF_CMD_HEAD.off] →
    Does .regRead s (fun t => Completes (cmdNext s) (s.rd off) (fieldAt cmd 2 2) 0 0xFFFF false s t ∧ Decoded more s t ∧
      StoreFrame (cplAt s) 16 [Fd.HIF_CMD_HEAD, Fd.HIF_CPL_TAIL] [.hif, .hbm] [] s t)) ∧
  (∀ (s : State) (cmd : List Byte) (more : List (List Byte)) (off : Nat) (d d' : RegDesc) (i j i' j' : Nat) (l : Legal),
    Decodes cmd more s → fieldAt cmd 0 2 = 2 → fieldAt cmd 0xC 1 = 1 → off = fieldAt cmd 8 4 % 2 ^ 26 / 4 * 4 →
    RegMap.find off = some (d, i, j) → d.pair = .low l → RegMap.find (off + 4) = some (d', i', j') → d'.pair = .high →
    regsGated s off = false → regsGated s (off + 4) = false →
    Does .regRead s (fun t => Completes (cmdNext s) (s.rd64 off) (fieldAt cmd 2 2) 0 0xFFFF false s t ∧ Decoded more s t ∧
      StoreFrame (cplAt s) 16 [Fd.HIF_CMD_HEAD, Fd.HIF_CPL_TAIL] [.hif, .hbm, .shadows] [] s t)) ∧
  (∀ (s : State) (cmd : List Byte) (more : List (List Byte)) (n : Nat), Decodes cmd more s → fieldAt cmd 0 2 = 1 →
    n = fieldAt cmd 8 1 → 1 ≤ n → n ≤ 6 → (∀ i, i < n → fieldAt cmd (0x10 + 8 * i) 4 = 0x128) →
    4 ≤ s.get Fd.CFG_STATUS_PHASE → s.get Fd.CFG_STATUS_PHASE ≤ 7 →
    Does .regWrite s (fun t => t.rd 0x128 = fieldAt cmd (0x14 + 8 * (n - 1)) 4 ∧
      Completes (cmdNext s) n (fieldAt cmd 2 2) 0 0xFFFF false s t ∧ Decoded more s t ∧
      StoreFrame (cplAt s) 16 [Fd.SYS_STU_EXTEND, Fd.HIF_CMD_HEAD, Fd.HIF_CPL_TAIL] [.hif, .hbm] [] s t)) ∧
  (∀ (s : State) (cmd : List Byte) (more : List (List Byte)) (i want : Nat), Decodes cmd more s → fieldAt cmd 0 2 = 3 →
    i = fieldAt cmd 8 1 → i < 64 → want = fieldAt cmd 0x10 8 → s.on (Fd.CFG_OV_VALID i) = true → s.cfg.rst = none →
    4 ≤ s.get Fd.CFG_STATUS_PHASE → s.get Fd.CFG_STATUS_PHASE ≤ 7 → s.run = true → s.cfg.applies.length < 64 →
    want % s.interval = 0 → (nextLanding s).toNat % s.interval = 0 → (nextLanding s).toNat ≤ want →
    want + 2 * s.interval ≤ 2 ^ 64 →
    Does .overlayApply s (fun t => Completes (cmdNext s) want (fieldAt cmd 2 2) 0 0xFFFF false s t ∧ Decoded more s t ∧
      t.cfg = { s.cfg with
        applies := s.cfg.applies ++ [⟨i, BitVec.ofNat 64 want, s.sys.arrivals, storedOverlay s i⟩] } ∧
      t.sys = { s.sys with arrivals := s.sys.arrivals + 1 } ∧ t.get (Fd.CFG_OV_PENDING i) = 1 ∧
      StoreFrame (cplAt s) 16 [Fd.HIF_CMD_HEAD, Fd.HIF_CPL_TAIL, Fd.CFG_OV_PENDING i, Fd.CFG_PEND, Fd.CFG_STATUS_QUIESCENT]
        [.hif, .hbm, .cfg, .sys] [] s t))

/-- PTR_XFER with operands in their ranges joins the queue of its enabled channel, PTR_FENCE the queue of a channel or the fences over
every channel; neither completes yet. A running descriptor between two ranges of device memory that do not touch completes with its
bytes copied, DONE counted and a completion of RESULT = count; a fence that is reached completes with RESULT 0. Disabling a channel
keeps its running descriptor and its fences; an abort before the first beat ends the descriptor with STATUS 4 and RESULT 0. -/
def Obligations.PorterQueuesAndCopies : Prop :=
  (∀ (s : State) (cmd : List Byte) (more : List (List Byte)) (ch mode fw n src dst m ms md : Nat), Decodes cmd more s →
    fieldAt cmd 0 2 = 0x10 → ch = fieldAt cmd 8 1 → ch < 32 → mode = fieldAt cmd 9 1 → n = fieldAt cmd 0xC 4 →
    src = fieldAt cmd 0x10 8 → dst = fieldAt cmd 0x18 8 → fw = [4, 8, 32, 64].getD (mode / 4 % 4) 4 →
    m = (if bit mode 0 || bit mode 1 then fw else 4) → ms = (if bit mode 0 then fw else 4) →
    md = (if bit mode 1 then fw else 4) → n % m = 0 → 0 < n → src % ms = 0 → src + ms ≤ 2 ^ 48 → dst % md = 0 →
    dst + md ≤ 2 ^ 48 → s.on (Fd.CH_CTRL_EN ch) = true → (s.ptrQ ch).length < 16 →
    Does .ptrXfer s (fun t => Decoded more s t ∧ t.ptr.seq = s.ptr.seq + 1 ∧
      t.ptrQ ch = s.ptrQ ch ++ [⟨s.ptr.seq, fieldAt cmd 2 2, .ring, false, bit mode 4, bit mode 0, bit mode 1, fw, n, src, dst,
        false, s.rdT 0x100⟩] ∧ (∀ c, c ≠ ch → t.ptrQ c = s.ptrQ c) ∧
      t.get (Fd.CH_STATUS_QDEPTH ch) = (s.ptrQ ch).length + 1 ∧
      Frame (Fd.HIF_CMD_HEAD :: chStatus ch) [.hif, .ptr] [] s t)) ∧
  (∀ (s : State) (cmd : List Byte) (more : List (List Byte)) (ch : Nat), Decodes cmd more s → fieldAt cmd 0 2 = 0x11 →
    ch = fieldAt cmd 8 1 → ch < 32 → (s.ptrQ ch).length < 16 →
    Does .ptrFence s (fun t => Decoded more s t ∧
      t.ptrQ ch = s.ptrQ ch ++ [⟨s.ptr.seq, fieldAt cmd 2 2, .ring, true, bit (fieldAt cmd 9 1) 4, false, false, 4, 0, 0, 0,
        false, s.rdT 0x100⟩] ∧ (∀ c, c ≠ ch → t.ptrQ c = s.ptrQ c) ∧
      Frame (Fd.HIF_CMD_HEAD :: chStatus ch) [.hif, .ptr] [] s t)) ∧
  (∀ (s : State) (cmd : List Byte) (more : List (List Byte)), Decodes cmd more s → fieldAt cmd 0 2 = 0x11 →
    fieldAt cmd 8 1 = 32 →
    Does .ptrFence s (fun t => Decoded more s t ∧ t.ptr.queues = s.ptr.queues ∧
      t.ptr.fences = s.ptr.fences ++ [⟨s.ptr.seq, fieldAt cmd 2 2, .ring, true, bit (fieldAt cmd 9 1) 4, false, false, 4, 0, 0, 0,
        false, s.rdT 0x100⟩] ∧ t.get Fd.PTR_STATUS_QUIESCENT = 0 ∧
      Frame (Fd.HIF_CMD_HEAD :: chStatus 0) [.hif, .ptr] [] s t)) ∧
  (∀ (s : State) (ch : Fin 32) (x : PtrItem) (rest : List PtrItem), RingRoom s → s.ptrQ ch.val = x :: rest → x.fence = false →
    x.from' = .ring → x.irq = false → x.sfix = false → x.dfix = false → x.src + x.count ≤ 0x17FE000000 →
    x.dst + x.count ≤ 0x17FE000000 → x.src + x.count ≤ x.dst ∨ x.dst + x.count ≤ x.src → s.hbm.poison = [] →
    s.onBit Fd.PTB_CTRL_EN 0 = false →
    Does (.descriptorComplete ch []) s (fun t =>
      (∀ i, i < x.count → Memory.byte t.mem (x.dst + i) = Memory.byte s.mem (x.src + i)) ∧
      (∀ b, b < x.dst ∨ x.dst + x.count ≤ b → b < cplAt s ∨ cplAt s + 16 ≤ b →
        Memory.byte t.mem b = Memory.byte s.mem b) ∧
      Completes (s.get Fd.HIF_CMD_HEAD) x.count x.cid 0 ch.val x.clamped s t ∧ t.ptrQ ch.val = rest ∧
      t.rd64 (0xF0108 + 0x20 * ch.val) = (s.rd64 (0xF0108 + 0x20 * ch.val) + x.count) % 2 ^ 64 ∧
      t.eseq = s.eseq ∧ t.pending = s.pending)) ∧
  (∀ (s : State) (ch : Fin 32) (x : PtrItem) (rest : List PtrItem), RingRoom s → s.ptrQ ch.val = x :: rest → x.fence = true →
    x.from' = .ring → x.irq = false →
    Does (.fenceComplete (ch.castSucc)) s (fun t =>
      Completes (s.get Fd.HIF_CMD_HEAD) 0 x.cid 0 ch.val x.clamped s t ∧ t.ptrQ ch.val = rest ∧
      StoreFrame (cplAt s) 16 (Fd.HIF_CPL_TAIL :: chStatus ch.val) [.hif, .ptr, .hbm] [] s t)) ∧
  (∀ (s : State) (x : PtrItem) (rest : List PtrItem), RingRoom s → s.ptr.fences = x :: rest → x.from' = .ring →
    s.ptr.queues = [] →
    Does (.fenceComplete 32) s (fun t =>
      Completes (s.get Fd.HIF_CMD_HEAD) 0 x.cid 0 0xFFFF x.clamped s t ∧ t.ptr.fences = rest ∧
      StoreFrame (cplAt s) 16 (Fd.HIF_CPL_TAIL :: chStatus 0) [.hif, .ptr, .hbm] [] s t)) ∧
  (∀ (s : State) (ch : Fin 32), s.hif.due = [] → Does (.porterDisable ch) s (fun t => t.get (Fd.CH_CTRL_EN ch.val) = 0 ∧
    t.ptrQ ch.val = (s.ptrQ ch.val).take 1 ++ ((s.ptrQ ch.val).drop 1).filter (fun y => y.fence) ∧
    (∀ c, c ≠ ch.val → t.ptrQ c = s.ptrQ c) ∧ t.pending = s.pending)) ∧
  (∀ (s : State) (ch : Fin 32) (x : PtrItem), RingRoom s → s.ptrQ ch.val = [x] → x.fence = false → x.from' = .ring →
    0 < x.count →
    Does (.porterAbort ch 0) s (fun t => Completes (s.get Fd.HIF_CMD_HEAD) 0 x.cid 4 ch.val x.clamped s t ∧
      t.ptrQ ch.val = [] ∧
      StoreFrame (cplAt s) 16 (Fd.HIF_CPL_TAIL :: chStatus ch.val) [.hif, .ptr, .hbm] [] s t))

/-- A poll that succeeds takes the heads and the tail and fetches up to 64 commands; one that fails counts FETCH_ERR; what host software
stored meanwhile stands in its memory first. A raised event is written at the tail of an event ring with room, and lost on a full one.
HIF_ENABLE starts the rings at their beginnings; HIF_DISABLE with nothing left leaves the unit quiescent. A lost link returns the HIF
registers to reset, counts its event as lost and leaves other units and memory; a link that trains shows its width and speed with event
0x0E07 unless PERST holds it. -/
def Obligations.HostInterfacePollsAndLinks : Prop :=
  (∀ (s : State) (size head tail c e : Nat), s.on Fd.HIF_CTRL_EN = true → s.evq = [] → s.hif.lost = 0 → s.hif.due = [] →
    s.hif.cplNew = false → s.hif.evtNew = false → s.hif.fetched = [] → size = s.get Fd.HIF_CMD_SIZE →
    head = s.get Fd.HIF_CMD_HEAD → tail = s.loadN (hostAddr (s.rd64 0xE0040)) 4 → tail < size →
    c = s.loadN (hostAddr (s.rd64 0xE0040 + 4)) 4 → c < s.get Fd.HIF_CPL_SIZE →
    e = s.loadN (hostAddr (s.rd64 0xE0040 + 8)) 4 → e < s.get Fd.HIF_EVT_SIZE →
    Does (.doorbellPoll [] 0) s (fun t =>
      t.hif = { s.hif with
        tail := tail, cplHead := c, evtHead := e
        fetched := (List.range (min 64 ((tail + size - head) % size))).map (fun k =>
          s.load (hostAddr (s.rd64 0xE0010 + 64 * ((head + k) % size))) 64) } ∧
      Frame [Fd.HIF_STATUS_CPL_FULL] [.hif] [] s t)) ∧
  (∀ (s : State) (l : List (Nat × List Byte)) (f : Fin 3),
    exec (.doorbellPoll l f) s = exec (.doorbellPoll [] f) (hostStores l s)) ∧
  (∀ (s : State), s.on Fd.HIF_CTRL_EN = true → s.evq = [] → s.hif.cplNew = false → s.hif.evtNew = false →
    Does (.doorbellPoll [] 1) s (fun t => t.get Fd.HIF_FETCH_ERR = min (s.get Fd.HIF_FETCH_ERR + 1) (2 ^ 32 - 1) ∧
      t.hif.fetched = s.hif.fetched ∧ SameMem s t)) ∧
  (∀ (s : State) (e : Event), s.evq = [e] → s.hif.lost = 0 →
    (s.get Fd.HIF_EVT_TAIL + 1) % s.get Fd.HIF_EVT_SIZE ≠ s.hif.evtHead →
    Holds (evtFlush s) (hostAddr (s.rd64 0xE0030 + 32 * s.get Fd.HIF_EVT_TAIL)) (eventEntry e s.hif.evtPhase) ∧
    (evtFlush s).get Fd.HIF_EVT_TAIL = (s.get Fd.HIF_EVT_TAIL + 1) % max 1 (s.get Fd.HIF_EVT_SIZE) % 65536 ∧
    (evtFlush s).evq = [] ∧ (evtFlush s).hif.evtNew = true) ∧
  (∀ (e : Event) (ph : Bool), (eventEntry e ph).length = 32 ∧ fieldAt (eventEntry e ph) 0 2 = e.code % 65536 ∧
    fieldAt (eventEntry e ph) 2 1 = b2n ph ∧ fieldAt (eventEntry e ph) 4 4 = e.eseq % 2 ^ 32) ∧
  (∀ (s : State) (e : Event), s.evq = [e] → (s.get Fd.HIF_EVT_TAIL + 1) % s.get Fd.HIF_EVT_SIZE = s.hif.evtHead →
    (evtFlush s).get Fd.HIF_EVT_LOST = min (s.get Fd.HIF_EVT_LOST + 1) (2 ^ 32 - 1) ∧
    (evtFlush s).hif.lost = s.hif.lost + 1 ∧ (evtFlush s).mem = s.mem) ∧
  (∀ s : State, s.on Fd.HIF_CTRL_EN = false → s.hif.due = [] → Does .hifEnable s (fun t =>
    t.get Fd.HIF_CTRL_EN = 1 ∧ t.get Fd.HIF_STATUS_RUNNING = 1 ∧ t.get Fd.HIF_STATUS_QUIESCENT = 0 ∧
    t.get Fd.HIF_CMD_HEAD = 0 ∧ t.get Fd.HIF_CPL_TAIL = 0 ∧ t.get Fd.HIF_EVT_TAIL = 0 ∧
    t.hif = { s.hif with
      tail := 0, cplHead := 0, evtHead := 0, cplPhase := true, evtPhase := true, closing := false } ∧
    Frame [Fd.HIF_CTRL_EN, Fd.HIF_STATUS_RUNNING, Fd.HIF_STATUS_QUIESCENT, Fd.HIF_CMD_HEAD, Fd.HIF_CPL_TAIL, Fd.HIF_EVT_TAIL]
      [.hif] [] s t)) ∧
  (∀ s : State, s.on Fd.HIF_CTRL_EN = true → s.evq = [] → s.hif.cplNew = false → s.hif.evtNew = false → s.hif.fetched = [] →
    s.hif.due = [] → Does .hifDisable s (fun t => t.get Fd.HIF_CTRL_EN = 0 ∧ t.get Fd.HIF_STATUS_RUNNING = 0 ∧
      t.get Fd.HIF_STATUS_QUIESCENT = 1 ∧ t.hif = { s.hif with closing := false } ∧
      Frame [Fd.HIF_CTRL_EN, Fd.HIF_STATUS_RUNNING, Fd.HIF_STATUS_QUIESCENT] [.hif] [] s t)) ∧
  (∀ (s : State) (cause : Fin 4), s.ptr.queues = [] → Does (.hostLinkLost cause) s (fun t =>
    t.get Fd.HIF_CTRL_EN = 0 ∧ t.get Fd.HIF_STATUS_LINK_UP = 0 ∧ t.get Fd.HIF_FWD_EN = s.get Fd.HIF_FWD_EN ∧
    t.get Fd.HIF_EVT_LOST = min (s.get Fd.HIF_EVT_LOST + 1) (2 ^ 32 - 1) ∧ t.eseq = s.eseq + 1 ∧ t.evq = [] ∧
    t.hif.fetched = [] ∧ t.hif.due = [] ∧ t.hif.perst = (cause == 0 || s.hif.perst) ∧
    (∀ off, off / 0x10000 ≠ 0xE → off / 0x10000 ≠ 0xF → t.rd off = s.rd off) ∧ SameMem s t ∧ t.pending = s.pending)) ∧
  (∀ (s : State) (w : Fin 5) (v : Fin 6), s.hif.perst = false → s.pwr.rails = true → v ≠ 0 → Does (.hostLinkUp w v) s (fun t =>
    t.get Fd.HIF_LINK_WIDTH = w.val ∧ t.get Fd.HIF_LINK_SPEED = v.val ∧ t.get Fd.HIF_STATUS_LINK_UP = 1 ∧
    Frame [Fd.HIF_LINK_WIDTH, Fd.HIF_LINK_SPEED, Fd.HIF_STATUS_LINK_UP] [] [(0x0E07, [.w4 w.val, .w4 v.val])] s t)) ∧
  (∀ (s : State) (w : Fin 5) (v : Fin 6), s.hif.perst = true ∨ s.pwr.rails = false → exec (.hostLinkUp w v) s = .next s) ∧
  (∀ s : State, Does .perstDeassert s (fun t => t.hif = { s.hif with perst := false } ∧ Frame [] [.hif] [] s t))

/-- An enabled port that trains goes to CAL, or fails with reason 1 at the timeout; calibrated within 40 ns it comes UP with its pad,
event 0x1001 and a newer record of this module, beyond that it fails with reason 3. A failure gives STATE 4 with its reason and event
0x1002; a retry or RETRAIN trains again. An UP port sends its HELLO; one received gives the neighbour, and a changed serial fails the
port with reason 6. A newer record is stored and flooded on every other UP port. Disabling takes every port DOWN and the ID away. -/
def Obligations.ByoraPortsTrainAndFail : Prop :=
  (∀ (s : State) (p : Fin 8) (inv : BitVec 4), portEnabled s p.val = true → portState s p.val ≤ 1 →
    Does (.portTrained p inv) s (fun t => portState t p.val = 2 ∧ t.get (Fd.BPORT_STATUS_REASON p.val) = 0 ∧
      t.get (Fd.BPORT_STATUS_POL_INV p.val) = inv.toNat ∧
      Frame [Fd.BPORT_STATUS_STATE p.val, Fd.BPORT_STATUS_REASON p.val, Fd.BPORT_STATUS_POL_INV p.val] [] [] s t)) ∧
  (∀ (s : State) (p : Fin 8), portEnabled s p.val = true → portState s p.val ≤ 1 →
    Does (.laneLockTimeout p) s (fun t => portState t p.val = 4 ∧ t.get (Fd.BPORT_STATUS_REASON p.val) = 1 ∧
      Frame [Fd.BPORT_STATUS_STATE p.val, Fd.BPORT_STATUS_REASON p.val] [] [(0x1002, [.w4 p.val, .w4 1])] s t)) ∧
  (∀ (s : State) (p : Fin 8) (trip : Nat), portState s p.val = 2 → trip / 2 < 40000 → s.onBit Fd.PTB_CTRL_EN 2 = false →
    Does (.portCalibrated p trip) s (fun t => portState t p.val = 3 ∧ t.get (Fd.BPORT_STATUS_REASON p.val) = 0 ∧
      t.get (Fd.BPORT_DELAY_MEAS p.val) = trip / 2 ∧ t.get (Fd.BPORT_DELAY_PAD p.val) = 40000 - trip / 2 ∧
      t.onBit Fd.BYO_STATUS_PORT_UP p.val = true ∧
      (∀ q, q ≠ p.val → t.onBit Fd.BYO_STATUS_PORT_UP q = s.onBit Fd.BYO_STATUS_PORT_UP q) ∧
      (recOf t.byo.db ownSerial).map LinkRec.ver = some (((recOf s.byo.db ownSerial).map LinkRec.ver).getD 0 + 1) ∧
      t.byo.dirty = true ∧ t.byo.nbrs = s.byo.nbrs ∧
      Frame [Fd.BPORT_STATUS_STATE p.val, Fd.BPORT_STATUS_REASON p.val, Fd.BPORT_DELAY_MEAS p.val, Fd.BPORT_DELAY_PAD p.val,
        Fd.BYO_STATUS_PORT_UP] [.byo] [(0x1001, [.w4 p.val, .w4 0xFFFF, .w4 (40000 - trip / 2)])] s t)) ∧
  (∀ (s : State) (p : Fin 8) (trip : Nat), portState s p.val = 2 → 40000 ≤ trip / 2 →
    Does (.portCalibrated p trip) s (fun t => portState t p.val = 4 ∧ t.get (Fd.BPORT_STATUS_REASON p.val) = 3 ∧
      t.get (Fd.BPORT_DELAY_MEAS p.val) = min (trip / 2) 65535 ∧
      Frame [Fd.BPORT_STATUS_STATE p.val, Fd.BPORT_STATUS_REASON p.val, Fd.BPORT_DELAY_MEAS p.val] []
        [(0x1002, [.w4 p.val, .w4 3])] s t)) ∧
  (∀ (s : State) (p r : Fin 8), portState s p.val = 1 ∨ portState s p.val = 2 →
    Does (.portFailed p r) s (fun t => portState t p.val = 4 ∧ t.get (Fd.BPORT_STATUS_REASON p.val) = r.val ∧
      Frame [Fd.BPORT_STATUS_STATE p.val, Fd.BPORT_STATUS_REASON p.val] [] [(0x1002, [.w4 p.val, .w4 r.val])] s t)) ∧
  (∀ (s : State) (p r : Fin 8), portState s p.val = 3 →
    Does (.portFailed p r) s (fun t => portState t p.val = 4 ∧ t.get (Fd.BPORT_STATUS_REASON p.val) = r.val ∧
      t.onBit Fd.BYO_STATUS_PORT_UP p.val = false ∧ nbrOf t p.val = none ∧ t.byo.dirty = true ∧ SameMem s t)) ∧
  (∀ (s : State) (p : Fin 8), portState s p.val = 4 → portEnabled s p.val = true →
    Does (.portFailedRetry p) s (fun t => portState t p.val = 1 ∧ Frame [Fd.BPORT_STATUS_STATE p.val] [] [] s t)) ∧
  (∀ (s : State) (p : Fin 8), portState s p.val ≠ 3 → portEnabled s p.val = true →
    Does (.portRetrain p) s (fun t => portState t p.val = 1 ∧ Frame [Fd.BPORT_STATUS_STATE p.val] [] [] s t)) ∧
  (∀ (s : State) (p : Fin 8), portState s p.val = 3 → portEnabled s p.val = true →
    Does (.portRetrain p) s (fun t => portState t p.val = 1 ∧ t.onBit Fd.BYO_STATUS_PORT_UP p.val = false)) ∧
  (∀ (s : State) (p : Fin 8), portState s p.val = 3 → s.onBit Fd.PTB_CTRL_EN 2 = false →
    Does (.helloSend p) s (fun t => t.byo = { s.byo with
      sent := s.byo.sent ++ [.hello p.val ownSerial (ownId s) (lowestKnown s).1 (lowestKnown s).2] } ∧
      Frame [] [.byo] [] s t)) ∧
  (∀ (s : State) (p np : Fin 8) (serial low dist : Nat) (id : Option (Fin 4096)), portState s p.val = 3 →
    (nbrOf s p.val).map Prod.fst = none ∨ (nbrOf s p.val).map Prod.fst = some serial →
    Does (.helloReceive p serial id np low dist) s (fun t => nbrOf t p.val = some (serial, low, dist) ∧
      t.get (Fd.BPORT_STATUS_NBR_VALID p.val) = b2n id.isSome ∧
      t.get (Fd.BPORT_STATUS_NBR_ID p.val) = (id.map Fin.val).getD 0 ∧
      t.get (Fd.BPORT_STATUS_NBR_PORT p.val) = np.val ∧ portState t p.val = 3 ∧ SameMem s t)) ∧
  (∀ (s : State) (p np : Fin 8) (serial old low dist : Nat) (id : Option (Fin 4096)), portState s p.val = 3 →
    (nbrOf s p.val).map Prod.fst = some old → old ≠ serial →
    Does (.helloReceive p serial id np low dist) s (fun t => portState t p.val = 4 ∧
      t.get (Fd.BPORT_STATUS_REASON p.val) = 6 ∧ nbrOf t p.val = none)) ∧
  (∀ (s : State) (p : Fin 8) (serial ver : Nat) (id : Option (Fin 4096)) (links : List (Fin 8 × Nat × Fin 8)) (r : LinkRec),
    portState s p.val = 3 → serial ≠ ownSerial → (∀ x, recOf s.byo.db serial = some x → x.ver < ver) →
    s.onBit Fd.PTB_CTRL_EN 2 = false →
    r = ⟨serial, id.map Fin.val, ver, links.map (fun l => (l.1.val, l.2.1, l.2.2.val))⟩ →
    Does (.linkStateRecord p serial id ver links) s (fun t => recOf t.byo.db serial = some r ∧ t.byo.dirty = true ∧
      (∀ q, q ≠ serial → recOf t.byo.db q = recOf s.byo.db q) ∧
      t.byo.sent = s.byo.sent ++ ((upPorts s).filter (fun q => q != p.val)).map (fun q => .linkState q r) ∧
      Frame [] [.byo] [] s t)) ∧
  (∀ s : State, Does .byoDisable s (fun t => t.get Fd.BYO_CTRL_EN = 0 ∧ t.get Fd.BYO_STATUS_ID_VALID = 0 ∧
    t.get Fd.BYO_STATUS_QUIESCENT = 1 ∧ (∀ p : Fin 8, portState t p.val = 0))) ∧
  (∀ s : State, (∀ p : Fin 8, portState s p.val ≠ 3) → Does .byoDisable s (fun t =>
    (∀ p : Fin 8, portState s p.val ≠ 0 → t.get (Fd.BPORT_STATUS_REASON p.val) = 7) ∧
    Frame ([Fd.BYO_CTRL_EN, Fd.BYO_STATUS_ID_VALID, Fd.BYO_STATUS_QUIESCENT] ++
      (List.range 8).flatMap (fun p => [Fd.BPORT_STATUS_STATE p, Fd.BPORT_STATUS_REASON p])) [] [] s t))

/-- A module that is not the root takes the ID it is sent; the root of a fabric without links takes 0. A released ID is no longer
reserved. ROUTING_INSTALL replaces the whole table by the one of the present database; ROUTE_DATA answers the entry and moves on. A good
P cell goes on along the tree and places its trigger unless its copy came first; a bad one counts PLOST. A copy goes on along the tree,
places a message whose P cell was lost, and a gap in LSEQ counts LGAPS with event 0x1008. The root's epoch message leaves on every tree
port as a P cell and a copy. -/
def Obligations.ByoraIdsRoutesAndMessages : Prop :=
  (∀ (s : State) (i : Fin 4096) (reqs : List (Nat × Fin 4096)), s.on Fd.BYO_CTRL_EN = true →
    Does (.idAssignment (some i) reqs) s (fun t => (rootUpdate s).isRoot = false →
      t.get Fd.BYO_STATUS_NODE_ID = i.val ∧ t.get Fd.BYO_STATUS_ID_VALID = 1 ∧ SameMem s t)) ∧
  (∀ (s : State) (reqs : List (Nat × Fin 4096)), s.on Fd.BYO_CTRL_EN = true → upPorts s = [] → s.byo.db = [] → ownId s = none →
    Does (.idAssignment none reqs) s (fun t => t.get Fd.BYO_STATUS_NODE_ID = 0 ∧ t.get Fd.BYO_STATUS_ID_VALID = 1 ∧
      t.get Fd.BYO_STATUS_ROOT = 1 ∧ SameMem s t)) ∧
  (∀ (s : State) (i : Fin 4096), Does (.idRelease i) s (fun t =>
    t.byo = { s.byo with reserved := s.byo.reserved.filter (· != i.val) } ∧ Frame [] [.byo] [] s t)) ∧
  (∀ s : State, s.byo.dirty = true → Does .routingInstall s (fun t => t.byo.routes = routesNow s ∧ t.byo.dirty = false ∧
    t.get Fd.BYO_TREE_DIAM = min (treeDiam s) 255 ∧ SameMem s t)) ∧
  (∀ s : State, s.byo.dirty = false → exec .routingInstall s = .next s) ∧
  (∀ s : State, Does .routeData s (fun t =>
    t.hif = { s.hif with
      readData := le 4 (routeWord s (s.get Fd.BYO_ROUTE_ADDR))
      readPoison := false } ∧
    t.get Fd.BYO_ROUTE_ADDR = (s.get Fd.BYO_ROUTE_ADDR + 1) % 4096 ∧
    Frame [Fd.BYO_ROUTE_DATA, Fd.BYO_ROUTE_ADDR] [.hif] [] s t)) ∧
  (∀ (s : State) (p : Fin 8) (hops : Nat) (origin : Fin 4096) (line : Fin 16) (fl : BitVec 7) (time : Tick) (lseq : Word)
    (elapsed : Nat) (m : PMsg), portState s p.val = 3 →
    m = ⟨false, (hops + 1) % 256, origin.val, line.val, fl.toNat, time, lseq.toNat⟩ → copySeen s m = false →
    s.byo.taken.any (fun r => r.same m) = false →
    exec (.pMessage p true false hops origin line fl time lseq elapsed) s = .next (fabPlace line.val time fl.toNat (setByo
      { s.byo with
        sent := s.byo.sent ++ ((treePorts s).filter (fun q => q != p.val)).map (fun q => .p q m)
        taken := ⟨origin.val, line.val, lseq.toNat, time⟩ :: s.byo.taken } s))) ∧
  (∀ (s : State) (p : Fin 8) (hops : Nat) (origin : Fin 4096) (line : Fin 16) (fl : BitVec 7) (time : Tick) (lseq : Word)
    (elapsed : Nat) (m : PMsg), portState s p.val = 3 →
    m = ⟨false, (hops + 1) % 256, origin.val, line.val, fl.toNat, time, lseq.toNat⟩ → copySeen s m = true →
    Does (.pMessage p true false hops origin line fl time lseq elapsed) s (fun t => t.byo = { s.byo with
      sent := s.byo.sent ++ ((treePorts s).filter (fun q => q != p.val)).map (fun q => .p q m) } ∧
      Frame [] [.byo] [] s t)) ∧
  (∀ (s : State) (p : Fin 8) (epoch : Bool) (hops : Nat) (origin : Fin 4096) (line : Fin 16) (fl : BitVec 7) (time : Tick)
    (lseq : Word) (elapsed : Nat), portState s p.val = 3 →
    Does (.pMessage p false epoch hops origin line fl time lseq elapsed) s (fun t =>
      t.get Fd.BYO_PLOST = min (s.get Fd.BYO_PLOST + 1) (2 ^ 32 - 1) ∧ t.byo = s.byo ∧ t.trg = s.trg ∧ SameMem s t)) ∧
  (∀ (s : State) (p : Fin 8) (origin : Fin 4096) (line : Fin 16) (fl : BitVec 7) (time : Tick) (lseq : Word) (m : PMsg) (u : State),
    portState s p.val = 3 → m = ⟨false, 0, origin.val, line.val, fl.toNat, time, lseq.toNat⟩ →
    s.onBit Fd.PTB_CTRL_EN 2 = false →
    (∀ r, s.byo.copies.find? (fun r => r.origin == m.origin && r.line == m.line) = some r →
      (r.lseq + 1) % 2 ^ 32 = lseq.toNat) →
    u = setByo { s.byo with
      sent := s.byo.sent ++ ((treePorts s).filter (fun q => q != p.val)).map (fun q => .copy q m)
      copies := ⟨origin.val, line.val, lseq.toNat, time⟩ ::
        s.byo.copies.filter (fun r => !(r.origin == m.origin && r.line == m.line))
      taken := s.byo.taken.filter (fun r => !r.same m) } s →
    exec (.cCopy p false origin line fl time lseq) s =
      .next (if s.byo.taken.any (fun r => r.same m) then u else fabPlace line.val time fl.toNat u)) ∧
  (∀ (s : State) (p : Fin 8) (origin : Fin 4096) (line : Fin 16) (fl : BitVec 7) (time : Tick) (lseq : Word) (m : PMsg)
    (r : LineRx), portState s p.val = 3 → m = ⟨false, 0, origin.val, line.val, fl.toNat, time, lseq.toNat⟩ →
    s.onBit Fd.PTB_CTRL_EN 2 = false → s.byo.copies.find? (fun r => r.origin == m.origin && r.line == m.line) = some r →
    (r.lseq + 1) % 2 ^ 32 ≠ lseq.toNat → s.byo.taken.any (fun r => r.same m) = true →
    Does (.cCopy p false origin line fl time lseq) s (fun t =>
      t.get Fd.BYO_LGAPS = min (s.get Fd.BYO_LGAPS + 1) (2 ^ 32 - 1) ∧
      Frame [Fd.BYO_LGAPS] [.byo] [(0x1008, [.w4 origin.val, .w4 line.val, .t r.t, .t time])] s t)) ∧
  (∀ (s : State) (m : PMsg), s.sys.msgDue = true → s.onBit Fd.PTB_CTRL_EN 2 = false →
    m = ⟨true, 0, (ownId s).getD 0, 0, 0, s.rdT 0x108, 0⟩ →
    Does .epochMessageSend s (fun t => t.sys = { s.sys with msgDue := false } ∧
      t.byo = { s.byo with sent := s.byo.sent ++ (treePorts s).flatMap (fun q => [.p q m, .copy q m]) } ∧
      Frame [] [.sys, .byo] [] s t))

/-- A remote poll sends the entries of the send ring: each takes the next RSEQ and leaves for its destination, and the head is stored at
the doorbell block. At the target a command from a port that FWD_EN admits waits for the decoder, one from another is refused; a decoded
one sends its completion back. A completion, or the timeout with RTIMEOUTS and event 0x100A, writes one entry of the remote completion
ring. An export element is sent with the next XSEQ, or dropped and counted without room; a received one is written to its ring. -/
def Obligations.RemoteCommandsGoAndReturn : Prop :=
  (∀ s : State, s.on Fd.BYO_RCTRL_EN = false → Does .rctrlEnable s (fun t => t.get Fd.BYO_RCTRL_EN = 1 ∧
    t.byo = { s.byo with
      rsTail := 0, rcHead := 0, rsHead := 0, rcTail := 0, rcPhase := true } ∧ Frame [Fd.BYO_RCTRL_EN] [.byo] [] s t)) ∧
  (∀ (s : State) (size tail head : Nat), s.on Fd.BYO_RCTRL_EN = true → s.byo.rcDue = [] → size = s.get Fd.BYO_RS_SIZE →
    tail = s.loadN (hostAddr (s.rd64 0x110050)) 4 → tail < size → tail = s.byo.rsHead →
    head = s.loadN (hostAddr (s.rd64 0x110050 + 4)) 4 → head < s.get Fd.BYO_RC_SIZE →
    Does (.remoteDoorbellPoll [] 0) s (fun t => t.byo = { s.byo with
      rsTail := tail
      rcHead := head } ∧ Frame [] [.byo] [] s t)) ∧
  (∀ (s : State) (size tail head dest own : Nat) (e cmd : List Byte), s.on Fd.BYO_RCTRL_EN = true → s.byo.rcDue = [] →
    size = s.get Fd.BYO_RS_SIZE → tail = s.loadN (hostAddr (s.rd64 0x110050)) 4 → tail < size →
    (tail + size - s.byo.rsHead) % size = 1 → head = s.loadN (hostAddr (s.rd64 0x110050 + 4)) 4 →
    head < s.get Fd.BYO_RC_SIZE → (s.byo.rcTail + 1) % max 1 (s.get Fd.BYO_RC_SIZE) ≠ head →
    e = s.load (hostAddr (s.rd64 0x110030 + 128 * (s.byo.rsHead % size))) 128 → dest = fieldAt e 0 2 →
    cmd = (e.drop 0x40).take 64 → ownId s = some own → own ≠ dest → s.byo.routes.any (fun r => r.1 == dest) = true →
    Does (.remoteDoorbellPoll [] 0) s (fun t =>
      t.byo.sent = s.byo.sent ++ [.command dest s.byo.rseq cmd] ∧ t.byo.rseq = (s.byo.rseq + 1) % 2 ^ 32 ∧
      t.byo.rsHead = (s.byo.rsHead + 1) % size ∧
      t.byo.out = s.byo.out ++ [⟨s.byo.rseq, dest, fieldAt e 2 2, fieldAt cmd 2 2, bit (fieldAt e 4 1) 0, false⟩] ∧
      Holds t (hostAddr (s.rd64 0x110050 + 8)) (le 4 ((s.byo.rsHead + 1) % size)))) ∧
  (∀ (s : State) (l : List (Nat × List Byte)) (f : Fin 3),
    exec (.remoteDoorbellPoll l f) s = exec (.remoteDoorbellPoll [] f) (hostStores l s)) ∧
  (∀ (s : State) (p : Fin 8) (node : Fin 4096) (rseq : Word) (cmd : List Byte), (ownId s).isSome = true →
    s.hif.remote.length < 256 → s.onBit Fd.HIF_FWD_EN p.val = true →
    Does (.remoteCommand p node rseq cmd) s (fun t => t.hif = { s.hif with
      remote := s.hif.remote ++ [(.remote p.val node.val rseq.toNat, (cmd ++ zeros 64).take 64)] } ∧
      Frame [] [.hif] [] s t)) ∧
  (∀ (s : State) (p : Fin 8) (node : Fin 4096) (rseq : Word) (cmd : List Byte), (ownId s).isSome = true →
    s.hif.remote.length < 256 → s.onBit Fd.HIF_FWD_EN p.val = false → s.onBit Fd.PTB_CTRL_EN 2 = false →
    Does (.remoteCommand p node rseq cmd) s (fun t =>
      t.get Fd.HIF_FWD_REFUSED = min (s.get Fd.HIF_FWD_REFUSED + 1) (2 ^ 32 - 1) ∧ t.hif.remote = s.hif.remote ∧
      t.byo.sent = s.byo.sent ++ [.completion node.val rseq.toNat 1 0 (fieldAt cmd 2 2) 0 false 0])) ∧
  (∀ (s : State) (p node rseq : Nat) (cmd : List Byte) (more : List (CmdFrom × List Byte)), RingRoom s → s.hif.fetched = [] →
    s.hif.remote = (.remote p node rseq, cmd) :: more → fieldAt cmd 0 2 = 0 → s.onBit Fd.PTB_CTRL_EN 2 = false →
    Does .cmdNop s (fun t => t.hif.remote = more ∧
      t.byo = { s.byo with
        sent := s.byo.sent ++ [.completion node rseq 0 0 (fieldAt cmd 2 2) 0 false (s.rdT 0x100)] } ∧
      Frame [] [.hif, .byo] [] s t)) ∧
  (∀ (s : State) (o : RemoteOut) (rseq : Word) (result : BitVec 64) (cid : BitVec 16) (status : BitVec 8) (cl : Bool) (tdec : Tick)
    (a : Nat), s.byo.out.find? (fun x => x.rseq == rseq.toNat) = some o → s.byo.rcDue = [] → rcRoom s = true → o.evt = false →
    a = hostAddr (s.rd64 0x110040 + 32 * s.byo.rcTail) →
    Does (.remoteCompletion rseq 0 result cid status cl tdec) s (fun t =>
      Holds t a (le 8 result.toNat ++ le 2 cid.toNat ++ le 1 status.toNat ++
        le 1 (b2n s.byo.rcPhase + 2 * b2n cl + 4 * b2n o.timedOut) ++ le 2 o.dest ++ le 2 o.tag ++ le 1 0 ++ zeros 3 ++
        le 4 o.rseq ++ le 8 tdec.toNat) ∧
      t.byo.out = s.byo.out.filter (fun x => x.rseq != o.rseq) ∧
      t.byo.rcTail = (s.byo.rcTail + 1) % max 1 (s.get Fd.BYO_RC_SIZE) ∧
      StoreFrame a 32 [] [.byo, .hbm] [] s t)) ∧
  (∀ (s : State) (o : RemoteOut) (rseq : Word) (a : Nat),
    s.byo.out.find? (fun x => x.rseq == rseq.toNat && !x.timedOut) = some o → s.byo.rcDue = [] → rcRoom s = true →
    o.evt = false → a = hostAddr (s.rd64 0x110040 + 32 * s.byo.rcTail) →
    Does (.remoteTimeout rseq) s (fun t => t.get Fd.BYO_RTIMEOUTS = min (s.get Fd.BYO_RTIMEOUTS + 1) (2 ^ 32 - 1) ∧
      Holds t a (le 8 0 ++ le 2 o.cid ++ le 1 0 ++ le 1 (b2n s.byo.rcPhase) ++ le 2 o.dest ++ le 2 o.tag ++ le 1 3 ++ zeros 3 ++
        le 4 o.rseq ++ le 8 0) ∧
      StoreFrame a 32 [Fd.BYO_RTIMEOUTS] [.byo, .hbm] [(0x100A, [.w4 o.dest, .w4 o.rseq])] s t)) ∧
  (∀ (s : State) (x : Fin 8) (r : XpRun) (rest : List XpRun) (e : XpElem) (n id : Nat) (bytes : List Byte),
    xpTrim s (look [] s.byo.xp x.val) = r :: rest → xpNext s r = some (e, n) → ownId s = some id → e.fl = 0 →
    s.onBit Fd.PTB_CTRL_EN 2 = false →
    bytes = xpBytes x.val r.kind e.fl (2 * b2n (s.byo.xpLoss.contains x.val) + 4 * b2n e.short) id (s.get (Fd.XP_XSEQ x.val)) e →
    Does (.exportElement x true) s (fun t => t.byo.sent = s.byo.sent ++ [.element r.dest r.ring bytes r.bhz] ∧
      look [] t.byo.xp x.val = { r with taken := r.taken + n } :: rest ∧
      t.get (Fd.XP_XSEQ x.val) = (s.get (Fd.XP_XSEQ x.val) + 1) % 2 ^ 32 ∧ Frame [Fd.XP_XSEQ x.val] [.byo] [] s t)) ∧
  (∀ (s : State) (x : Fin 8) (r : XpRun) (rest : List XpRun) (e : XpElem) (n : Nat),
    xpTrim s (look [] s.byo.xp x.val) = r :: rest → xpNext s r = some (e, n) →
    Does (.exportElement x false) s (fun t => t.byo.sent = s.byo.sent ∧ x.val ∈ t.byo.xpLoss ∧
      t.get (Fd.XP_LOST x.val) = min (s.get (Fd.XP_LOST x.val) + 1) (2 ^ 32 - 1) ∧
      t.get (Fd.XP_XSEQ x.val) = (s.get (Fd.XP_XSEQ x.val) + 1) % 2 ^ 32 ∧ SameMem s t)) ∧
  (∀ (s : State) (r xp : Fin 8) (kind : Fin 4) (fl : BitVec 7) (loss short : Bool) (origin : Fin 4096) (xseq : Word)
    (t0 t1 : Tick) (bhz : Nat) (pay bytes : List Byte) (slots a : Nat), s.on (Fd.RX_CTRL_EN r.val) = true →
    (ownId s).isSome = true → s.on (Fd.RX_CTRL_FILTER r.val) = false ∨ s.get (Fd.RX_CTRL_SRC_NODE r.val) = origin.val →
    s.sys.counting = false ∨ tle (tadd t1 bhz) s.tRel = false → slots = max 2 (s.get (Fd.RX_SLOTS r.val)) →
    (s.get (Fd.RX_WR r.val) + slots - s.get (Fd.RX_RD r.val)) % slots ≠ slots - 1 →
    bytes = xpBytes xp.val kind.val fl.toNat (2 * b2n loss + 4 * b2n short) origin.val xseq.toNat
      ⟨fl.toNat, short, t0, t1, pay.take 8256⟩ →
    a = s.rd64 (0x110604 + 0x40 * r.val) + 8320 * s.get (Fd.RX_WR r.val) →
    Does (.receiveElement r xp kind fl loss short origin xseq t0 t1 bhz pay) s (fun t => Holds t a bytes ∧
      t.get (Fd.RX_WR r.val) = (s.get (Fd.RX_WR r.val) + 1) % slots ∧
      StoreFrame a bytes.length [Fd.RX_WR r.val] [.hbm] [] s t)) ∧
  (∀ (s : State) (r xp : Fin 8) (kind : Fin 4) (fl : BitVec 7) (loss short : Bool) (origin : Fin 4096) (xseq : Word)
    (t0 t1 : Tick) (bhz : Nat) (pay : List Byte), s.on (Fd.RX_CTRL_EN r.val) = true → (ownId s).isSome = true →
    s.on (Fd.RX_CTRL_FILTER r.val) = true → s.get (Fd.RX_CTRL_SRC_NODE r.val) ≠ origin.val →
    Does (.receiveElement r xp kind fl loss short origin xseq t0 t1 bhz pay) s (fun t =>
      t.get (Fd.RX_REJECTED r.val) = min (s.get (Fd.RX_REJECTED r.val) + 1) (2 ^ 32 - 1) ∧
      Frame [Fd.RX_REJECTED r.val] [] [(0x100D, [.w4 r.val, .w4 origin.val])] s t)) ∧
  (∀ (x kind fl marks origin xseq : Nat) (e : XpElem),
    let b := xpBytes x kind fl marks origin xseq e
    b.length = 64 + max 32 e.payload.length ∧ fieldAt b 0 4 = 0x58464259 ∧ fieldAt b 5 1 = (x + 8 * kind) % 256 ∧
    fieldAt b 6 1 = fl % 256 ∧ fieldAt b 7 1 = marks % 256 ∧ fieldAt b 8 2 = origin % 65536 ∧ fieldAt b 0xC 4 = xseq % 2 ^ 32 ∧
    fieldAt b 0x10 8 = e.tFirst.toNat ∧ fieldAt b 0x18 8 = e.tLast.toNat)

/-- The OCXO's readiness and its loss are shown and reported; the hundredth good window of REF_IN makes it available, a bad one not. With
stream time stopped a move that is due goes down its treads to ÷64 and the holding clock, relocks on the new source, or on the TRO if that
has gone, with event 0x0101, and comes up again. A PLL that loses lock holds, counts HOLDS and raises 0x0105; regained, 0x0106 with the
time held; at HOLD_LIM 0x010A once. A phase group but PLL1's moves one step towards its setting. -/
def Obligations.ClocksFollowTheirSources : Prop :=
  (∀ s : State, s.on Fd.CLK_STATUS_OCXO_RDY = false → s.run = false → Does .ocxoReady s (fun t =>
    t.get Fd.CLK_STATUS_OCXO_RDY = 1 ∧ Frame [Fd.CLK_STATUS_OCXO_RDY] [] [(0x0102, [])] s t)) ∧
  (∀ s : State, s.on Fd.CLK_STATUS_OCXO_RDY = false → s.run = true →
    (moveDue (s.set Fd.CLK_STATUS_OCXO_RDY 1)).isSome = true → s.clk.waited = false → Does .ocxoReady s (fun t =>
    t.get Fd.CLK_STATUS_OCXO_RDY = 1 ∧ t.clk = { s.clk with waited := true } ∧
    Frame [Fd.CLK_STATUS_OCXO_RDY] [.clk] [(0x0102, []), (0x0107, [.w4 (s.get Fd.CLK_SRC_SEL)])] s t)) ∧
  (∀ s : State, s.on Fd.CLK_STATUS_OCXO_RDY = true → s.get Fd.CLK_SRC_ACT = 1 → s.run = false → Does .ocxoLost s (fun t =>
    t.get Fd.CLK_STATUS_OCXO_RDY = 0 ∧ Frame [Fd.CLK_STATUS_OCXO_RDY] [] [(0x0104, [.w4 1])] s t)) ∧
  (∀ (s : State) (amp : Int) (hz f : Nat), refWindow s amp hz = some f → s.clk.goodWindows = 99 → s.clk.goodFreq = f →
    s.on Fd.CLK_STATUS_EXT_OK = false → s.run = false → Does (.refWindow amp hz) s (fun t =>
      t.get Fd.CLK_STATUS_EXT_OK = 1 ∧ t.get Fd.CLK_STATUS_EXT_FREQ = f ∧ t.clk = { s.clk with goodWindows := 100 } ∧
      Frame [Fd.CLK_STATUS_EXT_OK, Fd.CLK_STATUS_EXT_FREQ] [.clk] [(0x0103, [.w4 f])] s t)) ∧
  (∀ (s : State) (amp : Int) (hz : Nat), refWindow s amp hz = none → s.on Fd.CLK_STATUS_EXT_OK = true → s.run = false →
    Does (.refWindow amp hz) s (fun t => t.get Fd.CLK_STATUS_EXT_OK = 0 ∧ t.clk = { s.clk with goodWindows := 0 } ∧
      Frame [Fd.CLK_STATUS_EXT_OK] [.clk] [(0x0104, [.w4 (2 + s.get Fd.CLK_STATUS_EXT_FREQ)])] s t)) ∧
  (∀ (s : State) (amp : Int) (hz : Nat), (amp < 0 → refWindow s amp hz = none) ∧
    (0 ≤ amp → s.on Fd.CLK_STATUS_OCXO_RDY = true →
      (refWindow s amp hz = some 0 ↔ 9999800 ≤ hz ∧ hz ≤ 10000200) ∧
      (refWindow s amp hz = some 1 ↔ 99998000 ≤ hz ∧ hz ≤ 100002000))) ∧
  (∀ (s : State) (new : Nat), s.run = false → s.clk.move = none → moveDue s = some new → Does .sourceMove s (fun t =>
    t.clk = { s.clk with move := some ⟨s.get Fd.CLK_SRC_ACT, new, s.get (Fd.PLL_CTRL_REFMODE 0), 1, false⟩ } ∧
    t.get Fd.CLK_SRC_SWITCHING = 1 ∧ t.get Fd.CLK_STATUS_RAMPING = 1 ∧
    Frame [Fd.CLK_SRC_SWITCHING, Fd.CLK_STATUS_RAMPING] [.clk] [] s t)) ∧
  (∀ (s : State) (m : ClkMove), s.clk.move = some m → m.locked = false → m.exp < 6 → Does (.tread none) s (fun t =>
    t.clk = { s.clk with move := some { m with exp := m.exp + 1 } } ∧ Frame [Fd.CLK_STATUS_RAMPING] [.clk] [] s t)) ∧
  (∀ (s : State) (m : ClkMove), s.clk.move = some m → m.locked = false → m.exp = 6 → Does (.tread none) s (fun t =>
    t.clk = { s.clk with move := some { m with exp := 7 } } ∧ t.get (Fd.PLL_STATUS_LOCK 0) = 0 ∧
    Frame [Fd.CLK_STATUS_RAMPING, Fd.PLL_STATUS_LOCK 0] [.clk] [] s t)) ∧
  (∀ (s : State) (m : ClkMove) (us : BitVec 32) (new : Nat), s.clk.move = some m → m.locked = false → m.exp = 7 →
    s.on (Fd.PLL_STATUS_HOLD 0) = false → new = (if srcAvailable s m.new then m.new else 0) →
    Does (.pllRelock us) s (fun t => t.get Fd.CLK_SRC_ACT = new % 4 ∧ t.get (Fd.PLL_STATUS_LOCK 0) = 1 ∧
      t.clk = { s.clk with
        move := some { m with new := new, exp := 6, locked := true }
        refmode := m.refmode } ∧
      Frame [Fd.CLK_SRC_ACT, Fd.PLL_DIV_N 0, Fd.PLL_FOUT_KHZ 0, Fd.PLL_STATUS_LOCK 0, Fd.PLL_STATUS_REF_PRESENT 0] [.clk]
        [(0x0101, [.w4 m.old, .w4 new, .w4 m.refmode])] s t)) ∧
  (∀ (s : State) (m : ClkMove), s.clk.move = some m → m.locked = true → 1 < m.exp → Does (.tread none) s (fun t =>
    t.clk = { s.clk with move := some { m with exp := m.exp - 1 } } ∧ Frame [Fd.CLK_STATUS_RAMPING] [.clk] [] s t)) ∧
  (∀ (s : State) (m : ClkMove), s.clk.move = some m → m.locked = true → m.exp ≤ 1 → s.run = false →
    Does (.tread none) s (fun t => t.clk = { s.clk with move := none } ∧ t.get Fd.CLK_SRC_SWITCHING = 0 ∧
      Frame [Fd.CLK_SRC_SWITCHING, Fd.CLK_STATUS_RAMPING] [.clk] [] s t)) ∧
  (∀ (s : State) (p : Fin 4) (present : Bool), s.on (Fd.PLL_STATUS_LOCK p.val) = true → Does (.pllLoss p present) s (fun t =>
    t.get (Fd.PLL_STATUS_LOCK p.val) = 0 ∧ t.get (Fd.PLL_STATUS_HOLD p.val) = 1 ∧
    t.get (Fd.PLL_STATUS_REF_PRESENT p.val) = b2n present ∧
    t.get (Fd.PLL_HOLDS p.val) = min (s.get (Fd.PLL_HOLDS p.val) + 1) (2 ^ 32 - 1))) ∧
  (∀ (s : State) (p : Fin 4) (present : Bool), s.on (Fd.PLL_STATUS_LOCK p.val) = true → p ≠ 3 →
    Does (.pllLoss p present) s (fun t =>
    t.sys.spans = (if s.sys.counting = true ∧ p = 0 then ⟨Df.hld, 15, s.tRel, none⟩ :: s.sys.spans
      else if s.sys.counting = true ∧ p = 1 then ⟨Df.hld, 15, s.sys.next, none⟩ :: s.sys.spans else s.sys.spans) ∧
    Frame [Fd.PLL_STATUS_LOCK p.val, Fd.PLL_STATUS_HOLD p.val, Fd.PLL_STATUS_REF_PRESENT p.val, Fd.PLL_HOLDS p.val] [.sys, .clk]
      [(0x0105, [.w4 p.val, .t (clkNow s)])] s t)) ∧
  (∀ (s : State) (p : Fin 4) (us : BitVec 32), s.on (Fd.PLL_STATUS_HOLD p.val) = true → Does (.pllLock p us) s (fun t =>
    t.get (Fd.PLL_STATUS_HOLD p.val) = 0 ∧ t.get (Fd.PLL_STATUS_LOCK p.val) = 1 ∧ t.get (Fd.PLL_STATUS_REF_PRESENT p.val) = 1 ∧
    Frame [Fd.PLL_STATUS_LOCK p.val, Fd.PLL_STATUS_HOLD p.val, Fd.PLL_STATUS_REF_PRESENT p.val]
      (if p.val < 2 then [.sys] else []) [(0x0106, [.w4 p.val, .t (clkNow s), .w4 us.toNat])] s t)) ∧
  (∀ (s : State) (p : Fin 4) (us : BitVec 32), s.on (Fd.PLL_STATUS_HOLD p.val) = false →
    s.on (Fd.PLL_STATUS_LOCK p.val) = false → Does (.pllLock p us) s (fun t => t.get (Fd.PLL_STATUS_LOCK p.val) = 1 ∧
      t.get (Fd.PLL_STATUS_REF_PRESENT p.val) = 1 ∧
      Frame [Fd.PLL_STATUS_LOCK p.val, Fd.PLL_STATUS_REF_PRESENT p.val, Fd.PLL_DIV_N p.val, Fd.PLL_DIV_ODIV p.val,
        Fd.PLL_DIV_PD p.val, Fd.PLL_FOUT_KHZ p.val] [] [] s t)) ∧
  (∀ (s : State) (p : Fin 4), s.on (Fd.PLL_STATUS_HOLD p.val) = true → p.val ∉ s.clk.limited → Does (.holdLimit p) s (fun t =>
    t.clk = { s.clk with limited := p.val :: s.clk.limited } ∧ Frame [] [.clk] [(0x010A, [.w4 p.val])] s t)) ∧
  (∀ (s : State) (p : Fin 4) (want now : Nat), p ≠ 1 → want = s.get (Fd.PLL_PHASE p.val) → now = s.get (Fd.PLL_PHASE_ACT p.val) →
    Does (.pllPhaseStep p) s (fun t =>
      t.get (Fd.PLL_PHASE_ACT p.val) = (if now < want then now + 1 else if want < now then now - 1 else now) ∧
      Frame [Fd.PLL_PHASE_ACT p.val] [] [] s t)) ∧
  (∀ s : State, exec (.pllPhaseStep 1) s = .next s) ∧
  (∀ (s : State) (khz : Word), Does (.freqMeasure khz) s (fun t => t.get Fd.CLK_FREQ_KHZ = khz.toNat ∧
    Frame [Fd.CLK_FREQ_KHZ] [] [] s t))

/-- A request to gate a gateable domain sets its GATE bit and waits; once its unit is quiescent an H domain stops at once, with its
GSTAT bit, and an HR domain begins its ramp, whose sixth tread stops it. A timeout drops the request with event 0x0108. Ungating clears
the GATE and GSTAT bits; a domain whose ramp had begun comes up by its treads, any other at once. A domain that is never gated ignores
the request. -/
def Obligations.ClockDomainsGateAndReturn : Prop :=
  (∀ (s : State) (d : Fin 104), gateKind d.val ≠ 0 → s.gate d.val = none → Does (.gateRequest d) s (fun t =>
    t.gate d.val = some ⟨false, 0, false⟩ ∧ t.onBit (Fd.CLK_GATE (d.val / 32)) (d.val % 32) = true ∧
    (∀ e, e ≠ d.val → t.gate e = s.gate e) ∧
    (∀ i, i ≠ d.val % 32 → t.onBit (Fd.CLK_GATE (d.val / 32)) i = s.onBit (Fd.CLK_GATE (d.val / 32)) i) ∧
    Frame [Fd.CLK_GATE (d.val / 32), Fd.CLK_STATUS_RAMPING] [.clk] [] s t)) ∧
  (∀ (s : State) (d : Fin 104), gateKind d.val = 0 → exec (.gateRequest d) s = .next s) ∧
  (∀ (s : State) (d : Fin 104) (g : GateSt), s.gate d.val = some g → g.ack = false → g.up = false →
    unitIdle s (domainUnit d.val) = true → gateKind d.val = 1 → Does (.idleAck d) s (fun t =>
    t.gate d.val = some { g with ack := true } ∧ t.onBit (Fd.CLK_GSTAT (d.val / 32)) (d.val % 32) = true ∧
    domainGated t d.val = true ∧ (∀ e, e ≠ d.val → t.gate e = s.gate e) ∧
    Frame [Fd.CLK_GSTAT (d.val / 32), Fd.CLK_STATUS_RAMPING] [.clk] [] s t)) ∧
  (∀ (s : State) (d : Fin 104) (g : GateSt), s.gate d.val = some g → g.ack = false → g.up = false →
    unitIdle s (domainUnit d.val) = true → gateKind d.val ≠ 1 → Does (.idleAck d) s (fun t =>
    t.gate d.val = some { g with
      ack := true
      exp := 1 } ∧ (∀ e, e ≠ d.val → t.gate e = s.gate e) ∧
    Frame [Fd.CLK_STATUS_RAMPING] [.clk] [] s t)) ∧
  (∀ (s : State) (d : Fin 104) (g : GateSt), s.gate d.val = some g → g.up = true ∨ unitIdle s (domainUnit d.val) = false →
    exec (.idleAck d) s = .next s) ∧
  (∀ (s : State) (d : Fin 104) (g : GateSt), s.gate d.val = some g → g.ack = true → g.up = false → 0 < g.exp → g.exp < 6 →
    Does (.tread (some d)) s (fun t => t.gate d.val = some { g with exp := g.exp + 1 } ∧
      (∀ e, e ≠ d.val → t.gate e = s.gate e) ∧ Frame [Fd.CLK_STATUS_RAMPING] [.clk] [] s t)) ∧
  (∀ (s : State) (d : Fin 104) (g : GateSt), s.gate d.val = some g → g.ack = true → g.up = false → 6 ≤ g.exp →
    Does (.tread (some d)) s (fun t => t.onBit (Fd.CLK_GSTAT (d.val / 32)) (d.val % 32) = true ∧ t.clk = s.clk ∧
      Frame [Fd.CLK_GSTAT (d.val / 32), Fd.CLK_STATUS_RAMPING] [] [] s t)) ∧
  (∀ (s : State) (d : Fin 104) (g : GateSt), s.gate d.val = some g → g.ack = true → g.up = true → 0 < g.exp →
    Does (.tread (some d)) s (fun t => t.gate d.val = (if g.exp = 1 then none else some { g with exp := g.exp - 1 }) ∧
      (∀ e, e ≠ d.val → t.gate e = s.gate e) ∧ Frame [Fd.CLK_STATUS_RAMPING] [.clk] [] s t)) ∧
  (∀ (s : State) (d : Fin 104) (g : GateSt), s.gate d.val = some g → g.ack = false → g.up = false →
    Does (.gateTimeout d) s (fun t => t.gate d.val = none ∧ t.onBit (Fd.CLK_GATE (d.val / 32)) (d.val % 32) = false ∧
      (∀ e, e ≠ d.val → t.gate e = s.gate e) ∧
      Frame [Fd.CLK_GATE (d.val / 32), Fd.CLK_STATUS_RAMPING] [.clk] [(0x0108, [.w4 d.val])] s t)) ∧
  (∀ (s : State) (d : Fin 104) (g : GateSt), s.gate d.val = some g → Does (.ungate d) s (fun t =>
    t.gate d.val = (if g.ack = true ∧ gateKind d.val = 2 ∧ 0 < g.exp then some { g with up := true } else none) ∧
    t.onBit (Fd.CLK_GATE (d.val / 32)) (d.val % 32) = false ∧ t.onBit (Fd.CLK_GSTAT (d.val / 32)) (d.val % 32) = false ∧
    domainGated t d.val = false ∧ (∀ e, e ≠ d.val → t.gate e = s.gate e) ∧
    Frame [Fd.CLK_GATE (d.val / 32), Fd.CLK_GSTAT (d.val / 32), Fd.CLK_STATUS_RAMPING] [.clk] [] s t))

/-- Each stage of start-up ends in the next PHASE with event 0x1307: with its rails good the module enters 1 and locks the core PLL; with a
valid firmware copy it enters 2 with all its memory zero, with none 8, recovery; then 3, where a missing base image is shown as copy 3
and missing overlays as not valid, and a valid one gives its copy and GEN; then 4; 5 once the reference is not the TRO; 6 once stream time
runs; 7 once the start-up runs are done. A failed rail turns the module off with its failure latched. -/
def Obligations.StartUpGoesThroughItsPhases : Prop :=
  (∀ (s : State) (a b : Option Nat), s.pwr.rails = true → s.cfg.stage = 0 → Does (.startUpPhase true a b) s (fun t =>
    t.get Fd.CFG_STATUS_PHASE = 1 ∧ t.get Fd.PWR_STATUS_PGOOD = 1 ∧ t.get (Fd.PLL_STATUS_LOCK 0) = 1 ∧
    t.cfg = { s.cfg with stage := 1 } ∧
    Frame [Fd.CFG_STATUS_PHASE, Fd.PWR_STATUS_PGOOD, Fd.PLL_STATUS_LOCK 0, Fd.PLL_STATUS_REF_PRESENT 0, Fd.PLL_DIV_N 0,
      Fd.PLL_FOUT_KHZ 0] [.cfg] [(0x1307, [.w4 1])] s t)) ∧
  (∀ (s : State) (a b : Option Nat), s.pwr.rails = true → s.cfg.stage = 0 → Does (.startUpPhase false a b) s (fun t =>
    t.pwr.startFail = true ∧ t.pwr.latched = true ∧ t.pwr.rails = false ∧ t.get Fd.PWR_STATUS_AUX_ON = 1 ∧
    t.flash = s.flash ∧ t.pending = s.pending)) ∧
  (∀ (s : State) (ok : Bool) (a b : Option Nat) (k g : Nat), s.pwr.rails = true → s.cfg.stage = 1 →
    chooseCopy id a b = some (k, g) → Does (.startUpPhase ok a b) s (fun t => t.get Fd.CFG_STATUS_PHASE = 2 ∧
      t.get Fd.CFG_STATUS_FW_COPY = k ∧ t.cfg.stage = 2 ∧ (∀ x, x < 2 ^ 47 → Memory.byte t.mem x = 0#8) ∧
      (∀ x, 2 ^ 47 ≤ x → Memory.byte t.mem x = Memory.byte s.mem x) ∧ t.pending = s.pending)) ∧
  (∀ (s : State) (ok : Bool), s.pwr.rails = true → s.cfg.stage = 1 → Does (.startUpPhase ok none none) s (fun t =>
    t.get Fd.CFG_STATUS_PHASE = 8 ∧ t.get Fd.CFG_STATUS_FW_COPY = 3 ∧ t.get Fd.CFG_STATUS_RECOVERY = 1 ∧
    Frame [Fd.CFG_STATUS_PHASE, Fd.CFG_STATUS_FW_COPY, Fd.CFG_STATUS_RECOVERY] [.cfg]
      [(0x1301, [.w4 0, .w4 2]), (0x1307, [.w4 8])] s t)) ∧
  (∀ (s : State) (ok : Bool) (a b : Option Nat), s.pwr.rails = true → s.cfg.stage = 2 →
    (∀ k, k < 2 → flashImage s none (baseCopyAt k) = none) →
    (∀ i k, i < 64 → k < 2 → flashImage s (some i) (overlayCopyAt i k) = none) →
    Does (.startUpPhase ok a b) s (fun t => t.get Fd.CFG_STATUS_PHASE = 3 ∧ t.get Fd.CFG_STATUS_BASE_COPY = 3 ∧
      t.cfg.epochAuto = false ∧ (∀ i, i < 64 → t.get (Fd.CFG_OV_VALID i) = 0) ∧ SameMem s t ∧ t.flash = s.flash ∧
      t.pending = s.pending)) ∧
  (∀ (s : State) (k : Nat) (img c0 c1 : Image), flashImage s none (baseCopyAt 0) = some c0 →
    flashImage s none (baseCopyAt 1) = some c1 → chooseCopy Image.gen (some c0) (some c1) = some (k, img) → img.entries = [] →
    (applyBase s).get Fd.CFG_STATUS_BASE_COPY = k ∧ (applyBase s).get Fd.CFG_BASE_GEN = img.gen % 2 ^ 32 ∧
    (applyBase s).cfg.epochAuto = bit img.flags 0 ∧ (applyBase s).flash = s.flash ∧
    (bit img.flags 0 = true → bit img.flags 1 = true → (applyBase s).rd64 0x108 = img.epoch % 2 ^ 64)) ∧
  (∀ (s : State) (ok : Bool) (a b : Option Nat), s.pwr.rails = true → s.cfg.stage = 3 → Does (.startUpPhase ok a b) s (fun t =>
    t.get Fd.CFG_STATUS_PHASE = 4 ∧ t.cfg = { s.cfg with stage := 4 } ∧
    Frame [Fd.CFG_STATUS_PHASE] [.cfg] [(0x1307, [.w4 4])] s t)) ∧
  (∀ (s : State) (ok : Bool) (a b : Option Nat), s.pwr.rails = true → s.cfg.stage = 4 → s.get Fd.CLK_SRC_ACT ≠ 0 →
    s.cfg.epochAuto = false → Does (.startUpPhase ok a b) s (fun t => t.get Fd.CFG_STATUS_PHASE = 5 ∧
      t.cfg = { s.cfg with stage := 5 } ∧ Frame [Fd.CFG_STATUS_PHASE] [.cfg] [(0x1307, [.w4 5])] s t)) ∧
  (∀ (s : State) (ok : Bool) (a b : Option Nat), s.cfg.stage = 4 → s.get Fd.CLK_SRC_ACT = 0 →
    exec (.startUpPhase ok a b) s = .next s) ∧
  (∀ (s : State) (ok : Bool) (a b : Option Nat), s.pwr.rails = true → s.cfg.stage = 5 → s.run = true →
    Does (.startUpPhase ok a b) s (fun t => t.get Fd.CFG_STATUS_PHASE = 6 ∧ t.cfg.stage = 6 ∧ SameMem s t)) ∧
  (∀ (s : State) (ok : Bool) (a b : Option Nat), s.pwr.rails = true → s.cfg.stage = 6 → asyStartUpDone s = true →
    Does (.startUpPhase ok a b) s (fun t => t.get Fd.CFG_STATUS_PHASE = 7 ∧ t.cfg = { s.cfg with stage := 7 } ∧
      Frame [Fd.CFG_STATUS_PHASE] [.cfg] [(0x1307, [.w4 7])] s t)) ∧
  (∀ (s : State) (ok : Bool) (a b : Option Nat), s.pwr.rails = false → exec (.startUpPhase ok a b) s = .next s)

/-- MRESET below 90 ns is ignored, from 100 ns resets the module, between them may do either. A reset request waits for programming,
else drains the units and takes effect at RESET_COMPLETE. A module reset gives every register but those it keeps its reset value, zeroes
the module's memory, keeps the flash and enters PHASE 1 with its cause; an engine reset keeps HBM, zeroes the on-die memory and resumes at
PHASE 3. Programming writes the copy not in use and reports its result. Standby, entered from PHASE 5 or 7 with stream time stopped,
gates the idle domains and returns to the PHASE it left. -/
def Obligations.ResetsProgrammingAndStandby : Prop :=
  (∀ (s : State) (ns : Nat), (ns < 90 → exec (.mreset ns) s = .next s) ∧
    (100 ≤ ns → exec (.mreset ns) s = .next (moduleResetNow 3 s)) ∧
    (90 ≤ ns → ns < 100 → exec (.mreset ns) s = .next s.fresh ∨ exec (.mreset ns) s = .next (moduleResetNow 3 s.fresh))) ∧
  (∀ (s : State) (cause : Nat), cause < 16 → (moduleResetNow cause s).get Fd.CFG_STATUS_PHASE = 1 ∧
    (moduleResetNow cause s).get Fd.CFG_LAST_RESET_CAUSE = cause ∧ (moduleResetNow cause s).flash = s.flash ∧
    (moduleResetNow cause s).pending = s.pending ∧ (moduleResetNow cause s).cyk = State.reset.cyk ∧
    (moduleResetNow cause s).sys = State.reset.sys ∧ (moduleResetNow cause s).scr.drives = s.scr.drives ∧
    (moduleResetNow cause s).get Fd.CLK_STATUS_OCXO_RDY = s.get Fd.CLK_STATUS_OCXO_RDY ∧
    (∀ x, x < 2 ^ 47 → Memory.byte (moduleResetNow cause s).mem x = 0#8) ∧
    (∀ off, keptByModuleReset off = false → off ∉ [Fd.CLK_STATUS_OCXO_RDY.off, Fd.CFG_LAST_RESET_CAUSE.off,
      Fd.CFG_STATUS_PHASE.off, Fd.HIF_EVT_LOST.off, 0x20004, 0x20008, 0x20018] →
      (moduleResetNow cause s).rd off = (RegMap.resetWord off).toNat)) ∧
  (∀ (s : State), s.cfg.rst = none → s.cfg.prog.isSome = true →
    (Does .engineReset s (fun t => t.cfg = { s.cfg with
      rst := some 1
      rstDrain := false } ∧ Frame [] [.cfg] [] s t)) ∧
    (Does .moduleReset s (fun t => t.cfg = { s.cfg with
      rst := some 2
      rstDrain := false } ∧ Frame [] [.cfg] [] s t))) ∧
  (∀ (s : State), s.cfg.rst = none → s.cfg.prog = none →
    (Does .engineReset s (fun t => t.cfg.rst = some 1 ∧ t.cfg.rstDrain = true ∧ t.cfg.applies = [])) ∧
    (Does .moduleReset s (fun t => t.cfg.rst = some 2 ∧ t.cfg.rstDrain = true ∧ t.cfg.applies = []))) ∧
  (∀ s : State, s.cfg.rst.isSome = true → exec .engineReset s = .next s ∧ exec .moduleReset s = .next s) ∧
  (∀ (s : State) (timeout : Bool), s.cfg.rst = some 2 → s.cfg.rstDrain = true → timeout = true ∨ notQuiescent true s = 0 →
    exec (.resetComplete timeout) s = .next ((moduleResetNow 4 s).raise 0x1306 [.w4 2, .w4 (notQuiescent true s)])) ∧
  (∀ (s : State) (timeout : Bool), s.cfg.rst = some 1 → s.cfg.rstDrain = true → timeout = true ∨ notQuiescent false s = 0 →
    (∀ k, k < 2 → flashImage s none (baseCopyAt k) = none) →
    (∀ i k, i < 64 → k < 2 → flashImage s (some i) (overlayCopyAt i k) = none) →
    Does (.resetComplete timeout) s (fun t => t.get Fd.CFG_STATUS_PHASE = 3 ∧ t.get Fd.CFG_LAST_RESET_CAUSE = 5 ∧
      t.cyk = State.reset.cyk ∧ t.sys = State.reset.sys ∧ t.clk = s.clk ∧ t.ptr = s.ptr ∧ t.flash = s.flash ∧
      (∀ x, regionOf x = .sram → Memory.byte t.mem x = 0#8) ∧
      (∀ x, regionOf x ≠ .sram → Memory.byte t.mem x = Memory.byte s.mem x) ∧ t.pending = s.pending)) ∧
  (∀ (s : State) (bytes : List Byte) (target : Nat), s.on Fd.CFG_PROG_BUSY = false → s.get Fd.CFG_STATUS_PHASE ≠ 8 →
    target = s.get Fd.CFG_PROG_TARGET → bytes = s.load 0x010008000000 (s.get Fd.CFG_PROG_LEN) →
    Does .progStart s (fun t => t.get Fd.CFG_PROG_BUSY = 1 ∧
      t.cfg = { s.cfg with prog := some (target, bytes, if target = 65 then true
        else (readImage (if target = 0 then none else some (target - 1)) bytes).isSome) } ∧
      Frame [Fd.CFG_PROG_BUSY, Fd.CFG_STATUS_QUIESCENT] [.cfg] [] s t)) ∧
  (∀ s : State, s.on Fd.CFG_PROG_BUSY = true → Does .progStart s (fun t => Frame [] [] [(0x130B, [.w4 0x140020])] s t)) ∧
  (∀ (s : State) (bytes : List Byte) (g : Bool) (copy : Nat), s.cfg.prog = some (65, bytes, g) → s.cfg.rst = none →
    copy = (if s.get Fd.CFG_STATUS_FW_COPY = 0 then 1 else 0) → Does (.programmingComplete true true) s (fun t =>
      t.flashLoad (0x00400000 + copy * 0x00400000) bytes.length = bytes ∧ t.get Fd.CFG_PROG_BUSY = 0 ∧
      t.get Fd.CFG_PROG_RESULT = 0 ∧ t.cfg = { s.cfg with prog := none } ∧
      Frame [Fd.CFG_PROG_BUSY, Fd.CFG_PROG_RESULT, Fd.CFG_STATUS_QUIESCENT] [.cfg, .flash]
        [(0x1308, [.w4 65, .w4 0, .w4 copy])] s t)) ∧
  (∀ (s : State) (bytes new : List Byte) (copy : Nat) (c0 c1 : Option Image), s.cfg.prog = some (0, bytes, true) →
    s.cfg.rst = none → c0 = flashImage s none (baseCopyAt 0) → c1 = flashImage s none (baseCopyAt 1) →
    copy = copyToWrite c0 c1 →
    new = withGen (max ((c0.map Image.gen).getD 0) ((c1.map Image.gen).getD 0) + 1) bytes →
    Does (.programmingComplete true true) s (fun t => t.flashLoad (baseCopyAt copy) new.length = new ∧
      t.get Fd.CFG_PROG_BUSY = 0 ∧ t.get Fd.CFG_PROG_RESULT = 0 ∧
      Frame [Fd.CFG_PROG_BUSY, Fd.CFG_PROG_RESULT, Fd.CFG_STATUS_QUIESCENT] [.cfg, .flash]
        [(0x1308, [.w4 0, .w4 0, .w4 copy])] s t)) ∧
  (∀ (s : State) (bytes : List Byte) (target : Nat) (fo fv : Bool), s.cfg.prog = some (target, bytes, false) → target ≠ 65 →
    s.cfg.rst = none → Does (.programmingComplete fo fv) s (fun t => t.get Fd.CFG_PROG_RESULT = 1 ∧
      t.get Fd.CFG_PROG_BUSY = 0 ∧
      Frame [Fd.CFG_PROG_BUSY, Fd.CFG_PROG_RESULT, Fd.CFG_STATUS_QUIESCENT] [.cfg]
        [(0x1308, [.w4 target, .w4 1, .w4 3])] s t)) ∧
  (∀ s : State, s.run = false → s.get Fd.CFG_STATUS_PHASE = 5 ∨ s.get Fd.CFG_STATUS_PHASE = 7 → Does .standbyEnter s (fun t =>
    t.get Fd.CFG_STATUS_PHASE = 9 ∧ t.get Fd.CFG_STATUS_STANDBY_ACT = 1 ∧ t.get Fd.HBM_SR_REQ = 1 ∧
    t.cfg = { s.cfg with
      stage := 9
      standbyPrev := s.get Fd.CFG_STATUS_PHASE
      standbyGated := standbyDomains s } ∧ (∀ d ∈ standbyDomains s, (t.gate d).isSome = true) ∧ t.eseq = s.eseq + 2 ∧
    SameMem s t)) ∧
  (∀ s : State, s.run = true ∨ s.get Fd.CFG_STATUS_PHASE < 5 → Does .standbyEnter s (fun t =>
    t.get Fd.CFG_CTRL_STANDBY = 0 ∧ Frame [Fd.CFG_CTRL_STANDBY] [] [(0x1309, [.w4 2])] s t)) ∧
  (∀ s : State, s.on Fd.CFG_STATUS_STANDBY_ACT = true → s.cfg.standbyGated = [] → Does .standbyLeave s (fun t =>
    t.get Fd.CFG_STATUS_PHASE = s.cfg.standbyPrev % 16 ∧ t.cfg = { s.cfg with stage := s.cfg.standbyPrev } ∧
    t.get Fd.CFG_STATUS_STANDBY_ACT = 0 ∧ t.get Fd.CFG_CTRL_STANDBY = 0 ∧ t.get Fd.HBM_SR_REQ = 0 ∧
    Frame [Fd.CFG_STATUS_PHASE, Fd.CFG_STATUS_STANDBY_ACT, Fd.CFG_CTRL_STANDBY, Fd.HBM_SR_REQ] [.cfg]
      [(0x1307, [.w4 s.cfg.standbyPrev]), (0x1309, [.w4 1])] s t))

/-- A sample reads every monitor and counts a second; a ledger entry is a valid 128 bytes, written to both copies, and SEQ moves on. A
re-plan, however it is asked for, sets the class 0 margin and a target within 10 mV and 680 to 860 mV. The die temperature raises and
lowers the throttle level by one, HOT at 110.0 °C with event 0x1102, and begins a shutdown at 115.0 °C. A shutdown ends, once the units
are quiescent or its time is up, with a KIND 1 entry and the module off. A pipeline fault is taken over by CHS with the replay offset of
R582, a second one is not covered; the end of the catch-up frees CHS. -/
def Obligations.HealthWatchesAndShutsDown : Prop :=
  (∀ (s : State) (values : List Word), Does (.monitorSample values) s (fun t =>
    (∀ m, m < 64 → t.get (Fd.AGE_MON m) = (values.getD m 0).toNat) ∧ t.sys = { s.sys with seconds := s.sys.seconds + 1 } ∧
    t.get Fd.AGE_POM = (s.get Fd.AGE_POM + (s.age.powerSec + 1) / 60) % 2 ^ 32 ∧
    t.age.powerSec = (s.age.powerSec + 1) % 60 ∧
    Frame (Fd.AGE_POM :: (List.range 64).map Fd.AGE_MON) [.age, .sys] [] s t)) ∧
  (∀ (s : State), Does .ledgerPeriodic s (fun t => (∀ k, k < 2 →
      t.flashLoad (ledgerAt k (s.get Fd.AGE_LSEQ)) 128 = ledgerEntry s 0) ∧
    t.get Fd.AGE_LSEQ = (s.get Fd.AGE_LSEQ + 1) % 2 ^ 32 ∧ Frame [Fd.AGE_LSEQ] [.flash, .age] [] s t)) ∧
  (∀ (s : State) (kind : Nat), (ledgerEntry s kind).length = 128 ∧ ledgerValid (ledgerEntry s kind) = true ∧
    fieldAt (ledgerEntry s kind) 6 1 = kind % 256 ∧ fieldAt (ledgerEntry s kind) 8 4 = s.get Fd.AGE_LSEQ ∧
    fieldAt (ledgerEntry s kind) 0xC 4 = s.get Fd.AGE_POM) ∧
  (∀ (s : State) (p : PlanIn) (c : Instr), c = .replan p ∨ (c = .replanPeriod p ∧ s.on Fd.AGE_CTRL_AUTO = true) ∨
    (c = .retest p ∧ s.age.takeovers ≠ []) → s.age.replan = none → p.chsOk = true → s.on Fd.AGE_STATUS_CHS_FAIL = false →
    Does c s (fun t => t.age.replan.isSome = true ∧ t.get Fd.AGE_STATUS_QUIESCENT = 0 ∧
      (t.get Fd.AGE_VCORE_TARGET : Int) = clampI 680 860
        (clampI ((s.get Fd.AGE_VCORE_SET : Int) - 10) ((s.get Fd.AGE_VCORE_SET : Int) + 10) (vcoreNeed s)) ∧
      t.get (Fd.AGE_MARGIN_NOW 0) = encI 16 (satI 16 (860 - vcoreNeed s)) ∧ SameMem s t ∧ t.pending = s.pending)) ∧
  (∀ (s : State) (p : PlanIn), s.on Fd.AGE_CTRL_AUTO = false → exec (.replanPeriod p) s = .next s) ∧
  (∀ (s : State) (d : BitVec 16), 1000 ≤ d.toInt → d.toInt < 1050 →
    s.get Fd.AGE_STATUS_THROTTLE = max s.age.level s.pwr.coreLevel → Does (.thermalCheck d) s (fun t =>
      t.get Fd.AGE_TDIE = d.toNat ∧ t.get Fd.AGE_STATUS_HOT = 0 ∧ t.age = { s.age with tmax := max s.age.tmax d.toInt } ∧
      Frame [Fd.AGE_TDIE, Fd.AGE_STATUS_HOT] [.age] [] s t)) ∧
  (∀ (s : State) (d : BitVec 16), 1050 ≤ d.toInt → d.toInt < 1100 → s.get Fd.AGE_STATUS_THROTTLE = s.age.level →
    0 < s.age.level → s.age.level < 7 → s.pwr.coreLevel ≤ s.age.level → Does (.thermalCheck d) s (fun t =>
      t.age.level = s.age.level + 1 ∧ t.get Fd.AGE_STATUS_THROTTLE = s.age.level + 1 ∧ t.get Fd.CYK_STATUS_THROTTLED = 15 ∧
      Frame [Fd.AGE_TDIE, Fd.AGE_STATUS_THROTTLE, Fd.CYK_STATUS_THROTTLED] [.age]
        [(0x1101, [.w4 (s.age.level + 1), .w4 d.toNat])] s t)) ∧
  (∀ (s : State) (d : BitVec 16), d.toInt < 1000 → s.get Fd.AGE_STATUS_THROTTLE = s.age.level → 1 < s.age.level →
    s.age.level ≤ 7 → s.pwr.coreLevel < s.age.level → Does (.thermalCheck d) s (fun t =>
      t.age.level = s.age.level - 1 ∧ t.get Fd.AGE_STATUS_THROTTLE = s.age.level - 1 ∧ t.get Fd.AGE_STATUS_HOT = 0)) ∧
  (∀ (s : State) (d : BitVec 16), 1100 ≤ d.toInt → d.toInt < 1150 → s.on Fd.AGE_STATUS_HOT = false → s.age.level = 7 →
    s.get Fd.AGE_STATUS_THROTTLE = 7 → s.pwr.coreLevel ≤ 7 → Does (.thermalCheck d) s (fun t =>
      t.get Fd.AGE_STATUS_HOT = 1 ∧
      Frame [Fd.AGE_TDIE, Fd.AGE_STATUS_HOT] [.age] [(0x1102, [.w4 (encI 32 d.toInt)])] s t)) ∧
  (∀ (s : State) (d : BitVec 16), 1150 ≤ d.toInt → s.pwr.shut = none → Does (.thermalCheck d) s (fun t =>
    t.pwr.shut = some 2 ∧ t.pwr.shutTimedOut = false ∧ t.age.takeovers = [])) ∧
  (∀ (s : State) (cause : Nat), s.pwr.shut = some cause → s.pwr.shutTimedOut = true ∨ notQuiescent true s = 0 →
    Does .orderedShutdown s (fun t => t.pwr.accepted = true ∧ t.pwr.latched = (cause != 0) ∧ t.pwr.rails = false ∧
      t.pwr.shut = none ∧ t.get Fd.PWR_STATUS_AUX_ON = 1 ∧ t.get Fd.PWR_STATUS_PGOOD = 0 ∧
      (∀ k, k < 2 → t.flashLoad (ledgerAt k (s.get Fd.AGE_LSEQ)) 128 = ledgerEntry s 1) ∧
      (∀ x, x < 2 ^ 47 → Memory.byte t.mem x = 0#8) ∧ t.pending = s.pending)) ∧
  (∀ (s : State), s.pwr.shut.isSome = true → s.pwr.shutTimedOut = false → Does .shdnTimeout s (fun t =>
    t.pwr = { s.pwr with shutTimedOut := true } ∧
    Frame [] [.pwr] (if notQuiescent true s = 0 then [] else [(0x1111, [.w4 (notQuiescent true s)])]) s t)) ∧
  (∀ (s : State) (c : Fin 5) (need : Tick) (o : Nat), c.val < 4 → s.age.takeovers = [] → s.on Fd.AGE_STATUS_CHS_FAIL = false →
    s.asy.run = none → (∀ k, k < 4 → s.onBit Fd.ASY_STATUS_QUEUED k = false) →
    o = min 409600 (4096 * (((s.tRel - need).toNat + 8191) / 4096)) →
    Does (.frontEndFault c need) s (fun t =>
      t.age.takeovers = [{ ch := c.val, o := o, tx := s.tRel, phase := .covered, bad := false }] ∧
      t.get (Fd.AGE_OFFSET c.val) = o ∧ t.get Fd.ASY_STATUS_CHS_OWNER = 2 ∧ t.onBit Fd.AGE_STATUS_COVERED c.val = true ∧
      t.get Fd.AGE_FAULTS = min (s.get Fd.AGE_FAULTS + 1) (2 ^ Fd.AGE_FAULTS.width - 1) ∧ t.eseq = s.eseq + 2 ∧ SameMem s t)) ∧
  (∀ (s : State) (c : Fin 5) (need : Tick), c.val < 4 → s.age.takeovers ≠ [] → Does (.frontEndFault c need) s (fun t =>
    t.age.uncovered = c.val :: s.age.uncovered ∧ t.age.takeovers = s.age.takeovers ∧ t.eseq = s.eseq + 2 ∧ SameMem s t)) ∧
  (∀ (s : State) (need : Tick), s.age.takeovers = [] → s.asy.run = none →
    (∀ k, k < 4 → s.onBit Fd.ASY_STATUS_QUEUED k = false) → Does (.frontEndFault 4 need) s (fun t =>
      t.get Fd.AGE_STATUS_CHS_FAIL = 1 ∧ t.get Fd.ASY_STATUS_CHS_OWNER = 2 ∧ t.eseq = s.eseq + 2 ∧ SameMem s t)) ∧
  (∀ (s : State) (c : Fin 4) (x : Takeover) (lb : Tick), s.age.takeovers.find? (fun t => t.ch == c.val) = some x →
    x.phase = .staged lb → Does (.catchUpEnd c) s (fun t => t.get (Fd.AGE_OFFSET c.val) = 0 ∧
      t.onBit Fd.AGE_STATUS_COVERED c.val = false ∧ t.get Fd.ASY_STATUS_CHS_OWNER = 0 ∧
      t.age = { s.age with takeovers := s.age.takeovers.filter (fun t => t.ch != c.val) } ∧
      Frame [Fd.AGE_OFFSET c.val, Fd.AGE_STATUS_COVERED, Fd.ASY_STATUS_CHS_OWNER] [.age] [(0x1122, [.w4 c.val, .t lb])] s t))
end

