-- ==== Sys2Proof/Laws/Assoc.lean ====
section
/-! SUPPORT. The laws of the sparse maps: a read after a write, the canonical form, and equal maps from equal contents. -/

namespace Sys2Proof.Machine

@[simp] theorem Assoc.get_nil {α : Type} (d : α) (k : Nat) : Assoc.get d [] k = d := rfl

theorem Assoc.get_erase_same {α : Type} (d : α) (m : List (Nat × α)) (k : Nat) :
    Assoc.get d (Assoc.erase k m) k = d := by
  induction m with
  | nil => rfl
  | cons e m ih =>
    obtain ⟨k', v⟩ := e
    simp only [Assoc.erase]
    split <;> rename_i h
    · exact ih
    · simp [Assoc.get, h, ih]

theorem Assoc.get_erase_ne {α : Type} (d : α) (m : List (Nat × α)) {k j : Nat} (h : j ≠ k) :
    Assoc.get d (Assoc.erase k m) j = Assoc.get d m j := by
  induction m with
  | nil => rfl
  | cons e m ih =>
    obtain ⟨k', v⟩ := e
    simp only [Assoc.erase, Assoc.get]
    split <;> rename_i h'
    · subst h'; simp [Ne.symm h, ih]
    · simp [Assoc.get, ih]

theorem Assoc.get_insert_ne {α : Type} (d v : α) (m : List (Nat × α)) {k j : Nat} (h : j ≠ k) :
    Assoc.get d (Assoc.insert k v m) j = Assoc.get d m j := by
  induction m with
  | nil => simp [Assoc.insert, Assoc.get, Ne.symm h]
  | cons e m ih =>
    obtain ⟨k', v'⟩ := e
    simp only [Assoc.insert]
    split
    · simp [Assoc.get, Ne.symm h]
    · simp [Assoc.get, ih]

theorem Assoc.get_insert_erase {α : Type} (d v : α) (m : List (Nat × α)) (k : Nat) :
    Assoc.get d (Assoc.insert k v (Assoc.erase k m)) k = v := by
  induction m with
  | nil => simp [Assoc.insert, Assoc.erase, Assoc.get]
  | cons e m ih =>
    obtain ⟨k', v'⟩ := e
    simp only [Assoc.erase]
    split <;> rename_i h
    · exact ih
    · simp only [Assoc.insert]
      split
      · simp [Assoc.get]
      · simp [Assoc.get, h, ih]

/-- A key reads the value last put at it. -/
@[simp] theorem Assoc.get_put_same {α : Type} [DecidableEq α] (d : α) (m : List (Nat × α)) (k : Nat) (v : α) :
    Assoc.get d (Assoc.put d m k v) k = v := by
  unfold Assoc.put
  split <;> rename_i h
  · rw [Assoc.get_erase_same, h]
  · exact Assoc.get_insert_erase d v m k

/-- A put leaves every other key alone; the defaults of the two keys may differ. -/
theorem Assoc.get_put_ne {α : Type} [DecidableEq α] (d d' : α) (m : List (Nat × α)) {k j : Nat} (v : α) (h : j ≠ k) :
    Assoc.get d' (Assoc.put d m k v) j = Assoc.get d' m j := by
  unfold Assoc.put
  split
  · exact Assoc.get_erase_ne d' m h
  · rw [Assoc.get_insert_ne d' v _ h, Assoc.get_erase_ne d' m h]

/-! ### The canonical form -/

theorem Assoc.wfFrom_mono {α : Type} [DecidableEq α] {dflt : Nat → α} {b c : Nat} (h : c ≤ b) :
    ∀ {m : List (Nat × α)}, Assoc.wfFrom dflt (some b) m = true → Assoc.wfFrom dflt (some c) m = true
  | [], _ => rfl
  | (k, v) :: m, hw => by
    simp only [Assoc.wfFrom, Bool.and_eq_true, decide_eq_true_eq] at hw ⊢
    exact ⟨⟨by omega, hw.1.2⟩, hw.2⟩

theorem Assoc.wfFrom_erase {α : Type} [DecidableEq α] {dflt : Nat → α} (k : Nat) :
    ∀ {b : Option Nat} {m : List (Nat × α)}, Assoc.wfFrom dflt b m = true →
      Assoc.wfFrom dflt b (Assoc.erase k m) = true
  | b, [], _ => by cases b <;> rfl
  | none, (k', v) :: m, h => by
    simp only [Assoc.wfFrom, Bool.and_eq_true, decide_eq_true_eq] at h
    simp only [Assoc.erase]
    split
    · have := Assoc.wfFrom_erase k (Assoc.wfFrom_mono (Nat.zero_le _) h.2)
      revert this
      generalize Assoc.erase k m = e
      cases e with
      | nil => intro _; rfl
      | cons x e =>
        intro hx
        simp only [Assoc.wfFrom, Bool.and_eq_true, decide_eq_true_eq] at hx ⊢
        exact ⟨hx.1.2, hx.2⟩
    · simp only [Assoc.wfFrom, Bool.and_eq_true, decide_eq_true_eq]
      exact ⟨h.1, Assoc.wfFrom_erase k h.2⟩
  | some b, (k', v) :: m, h => by
    simp only [Assoc.wfFrom, Bool.and_eq_true, decide_eq_true_eq] at h
    simp only [Assoc.erase]
    split
    · exact Assoc.wfFrom_erase k (Assoc.wfFrom_mono (Nat.le_of_lt h.1.1) h.2)
    · simp only [Assoc.wfFrom, Bool.and_eq_true, decide_eq_true_eq]
      exact ⟨h.1, Assoc.wfFrom_erase k h.2⟩

theorem Assoc.wfFrom_insert {α : Type} [DecidableEq α] {dflt : Nat → α} {k : Nat} {v : α} (hv : v ≠ dflt k) :
    ∀ {b : Option Nat} {m : List (Nat × α)}, (∀ c, b = some c → c < k) → (∀ e ∈ m, e.1 ≠ k) →
      Assoc.wfFrom dflt b m = true → Assoc.wfFrom dflt b (Assoc.insert k v m) = true
  | none, [], _, _, _ => by simp [Assoc.insert, Assoc.wfFrom, hv]
  | some b, [], hb, _, _ => by simp [Assoc.insert, Assoc.wfFrom, hv, hb b rfl]
  | none, (k', v') :: m, _, hk, h => by
    simp only [Assoc.wfFrom, Bool.and_eq_true, decide_eq_true_eq] at h
    have hne : k' ≠ k := hk (k', v') (by simp)
    simp only [Assoc.insert]
    split
    · simp only [Assoc.wfFrom, Bool.and_eq_true, decide_eq_true_eq]
      exact ⟨hv, ⟨by assumption, h.1⟩, h.2⟩
    · simp only [Assoc.wfFrom, Bool.and_eq_true, decide_eq_true_eq]
      exact ⟨h.1, Assoc.wfFrom_insert hv (by intro c hc; cases hc; omega) (fun e he => hk e (by simp [he])) h.2⟩
  | some b, (k', v') :: m, hb, hk, h => by
    simp only [Assoc.wfFrom, Bool.and_eq_true, decide_eq_true_eq] at h
    have hne : k' ≠ k := hk (k', v') (by simp)
    simp only [Assoc.insert]
    split
    · simp only [Assoc.wfFrom, Bool.and_eq_true, decide_eq_true_eq]
      exact ⟨⟨hb b rfl, hv⟩, ⟨by assumption, h.1.2⟩, h.2⟩
    · simp only [Assoc.wfFrom, Bool.and_eq_true, decide_eq_true_eq]
      exact ⟨h.1, Assoc.wfFrom_insert hv (by intro c hc; cases hc; omega) (fun e he => hk e (by simp [he])) h.2⟩

theorem Assoc.not_mem_erase {α : Type} (k : Nat) (m : List (Nat × α)) : ∀ e ∈ Assoc.erase k m, e.1 ≠ k := by
  induction m with
  | nil => simp [Assoc.erase]
  | cons x m ih =>
    obtain ⟨k', v⟩ := x
    simp only [Assoc.erase]
    split <;> rename_i h
    · exact ih
    · intro e he
      rcases List.mem_cons.1 he with rfl | he
      · exact h
      · exact ih e he

/-- A put keeps the canonical form. -/
theorem Assoc.wf_put {α : Type} [DecidableEq α] {dflt : Nat → α} {m : List (Nat × α)} (k : Nat) (v : α)
    (h : Assoc.wf dflt m = true) : Assoc.wf dflt (Assoc.put (dflt k) m k v) = true := by
  unfold Assoc.put
  split <;> rename_i hv
  · exact Assoc.wfFrom_erase k h
  · exact Assoc.wfFrom_insert hv (by simp) (Assoc.not_mem_erase k m) (Assoc.wfFrom_erase k h)

end Sys2Proof.Machine
end

