-- ==== Sys2Proof/Laws/State.lean ====
section
/-! SUPPORT. What each named operation on State leaves and changes: one lemma per field per operation, so that no proof
unfolds a record update, and the laws of register words and fields. -/

namespace Sys2Proof.Machine

/-! ### Register words -/

/-- A register reads the word last written to it. -/
@[simp] theorem State.rd_wr_same (s : State) (a v : Nat) : (s.wr a v).rd a = v % 2 ^ 32 := by
  simp [State.rd, State.wr]

/-- A register write leaves every other register alone. -/
theorem State.rd_wr_ne (s : State) {a b : Nat} (v : Nat) (h : b ≠ a) : (s.wr a v).rd b = s.rd b := by
  simp [State.rd, State.wr, Assoc.get_put_ne _ _ _ _ h]

/-- A register read after a register write. -/
theorem State.rd_wr (s : State) (a v b : Nat) : (s.wr a v).rd b = if b = a then v % 2 ^ 32 else s.rd b := by
  split <;> rename_i h
  · subst h; simp
  · exact s.rd_wr_ne v h

/-- A register word has 32 bits (R5). -/
theorem State.rd_lt (s : State) (off : Nat) : s.rd off < 2 ^ 32 := BitVec.isLt _

@[simp] theorem State.wr_mem (s : State) (a v : Nat) : (s.wr a v).mem = s.mem := rfl
@[simp] theorem State.wr_pending (s : State) (a v : Nat) : (s.wr a v).pending = s.pending := rfl
@[simp] theorem State.wr_rsh (s : State) (a v : Nat) : (s.wr a v).rsh = s.rsh := rfl
@[simp] theorem State.wr_wsh (s : State) (a v : Nat) : (s.wr a v).wsh = s.wsh := rfl
@[simp] theorem State.wr_evq (s : State) (a v : Nat) : (s.wr a v).evq = s.evq := rfl
@[simp] theorem State.wr_eseq (s : State) (a v : Nat) : (s.wr a v).eseq = s.eseq := rfl
@[simp] theorem State.wr_free (s : State) (a v : Nat) : (s.wr a v).free = s.free := rfl
@[simp] theorem State.wr_past (s : State) (a v : Nat) : (s.wr a v).past = s.past := rfl
@[simp] theorem State.wr_sys (s : State) (a v : Nat) : (s.wr a v).sys = s.sys := rfl
@[simp] theorem State.wr_ing (s : State) (a v : Nat) : (s.wr a v).ing = s.ing := rfl
@[simp] theorem State.wr_dsp (s : State) (a v : Nat) : (s.wr a v).dsp = s.dsp := rfl
@[simp] theorem State.wr_asy (s : State) (a v : Nat) : (s.wr a v).asy = s.asy := rfl
@[simp] theorem State.wr_spx (s : State) (a v : Nat) : (s.wr a v).spx = s.spx := rfl
@[simp] theorem State.wr_trg (s : State) (a v : Nat) : (s.wr a v).trg = s.trg := rfl
@[simp] theorem State.wr_pwr (s : State) (a v : Nat) : (s.wr a v).pwr = s.pwr := rfl
@[simp] theorem State.wr_hk (s : State) (a v : Nat) : (s.wr a v).hk = s.hk := rfl
@[simp] theorem State.wr_flash (s : State) (a v : Nat) : (s.wr a v).flash = s.flash := rfl
@[simp] theorem State.wr_cfg (s : State) (a v : Nat) : (s.wr a v).cfg = s.cfg := rfl
@[simp] theorem State.wr_age (s : State) (a v : Nat) : (s.wr a v).age = s.age := rfl
@[simp] theorem State.wr_hoop (s : State) (a v : Nat) : (s.wr a v).hoop = s.hoop := rfl
@[simp] theorem State.wr_den (s : State) (a v : Nat) : (s.wr a v).den = s.den := rfl
@[simp] theorem State.wr_gal (s : State) (a v : Nat) : (s.wr a v).gal = s.gal := rfl
@[simp] theorem State.wr_scr (s : State) (a v : Nat) : (s.wr a v).scr = s.scr := rfl
@[simp] theorem State.wr_wvr (s : State) (a v : Nat) : (s.wr a v).wvr = s.wvr := rfl
@[simp] theorem State.wr_tly (s : State) (a v : Nat) : (s.wr a v).tly = s.tly := rfl
@[simp] theorem State.wr_cyk (s : State) (a v : Nat) : (s.wr a v).cyk = s.cyk := rfl
@[simp] theorem State.wr_clk (s : State) (a v : Nat) : (s.wr a v).clk = s.clk := rfl
@[simp] theorem State.wr_hbm (s : State) (a v : Nat) : (s.wr a v).hbm = s.hbm := rfl
@[simp] theorem State.wr_hif (s : State) (a v : Nat) : (s.wr a v).hif = s.hif := rfl
@[simp] theorem State.wr_ptr (s : State) (a v : Nat) : (s.wr a v).ptr = s.ptr := rfl
@[simp] theorem State.wr_byo (s : State) (a v : Nat) : (s.wr a v).byo = s.byo := rfl

/-! ### Fields of register words -/

/-- A field of a word reads what was put in it. -/
theorem Fld.get_put_same (f : Fld) (w v : Nat) : f.get (f.put w v) = v % 2 ^ f.width := by
  obtain ⟨off, lo, width⟩ := f
  simp only [Fld.get, Fld.put, bits]
  have h0 : 0 < 2 ^ lo := Nat.two_pow_pos lo
  have hp : 2 ^ (lo + width) = 2 ^ lo * 2 ^ width := Nat.pow_add 2 lo width
  have e : w % 2 ^ lo + v % 2 ^ width * 2 ^ lo + w / 2 ^ (lo + width) * 2 ^ (lo + width)
      = w % 2 ^ lo + 2 ^ lo * (v % 2 ^ width + 2 ^ width * (w / 2 ^ (lo + width))) := by rw [hp]; ring
  rw [e, Nat.add_mul_div_left _ _ h0, Nat.div_eq_of_lt (Nat.mod_lt _ h0), Nat.zero_add,
    Nat.add_mul_mod_self_left, Nat.mod_mod]

/-- A field put in a word leaves the fields below it alone. -/
theorem Fld.get_put_below (f g : Fld) (w v : Nat) (h : g.lo + g.width ≤ f.lo) : g.get (f.put w v) = g.get w := by
  obtain ⟨off, lo, width⟩ := f
  obtain ⟨off', lo', width'⟩ := g
  simp only [Fld.get, Fld.put, bits] at *
  obtain ⟨k, rfl⟩ := Nat.exists_eq_add_of_le h
  set A := 2 ^ lo' with hA
  set B := 2 ^ width' with hB
  set C := 2 ^ k
  have hA0 : 0 < A := Nat.two_pow_pos lo'
  have hB0 : 0 < B := Nat.two_pow_pos width'
  have p1 : 2 ^ (lo' + width' + k) = A * B * C := by rw [Nat.pow_add, Nat.pow_add]
  have p2 : 2 ^ (lo' + width' + k + width) = A * B * C * 2 ^ width := by rw [Nat.pow_add, p1]
  rw [p2, p1]
  have m : ∀ x : Nat, x / A % B = x % (A * B) / A := fun x => (Nat.mod_mul_right_div_self x A B).symm
  rw [m, m w]
  congr 1
  have e : w % (A * B * C) + v % 2 ^ width * (A * B * C) + w / (A * B * C * 2 ^ width) * (A * B * C * 2 ^ width)
      = w % (A * B * C) + (A * B) * (v % 2 ^ width * C + w / (A * B * C * 2 ^ width) * (C * 2 ^ width)) := by ring
  rw [e, Nat.add_mul_mod_self_left, Nat.mod_mul_right_mod]

/-- A field put in a word leaves the fields above it alone. -/
theorem Fld.get_put_above (f g : Fld) (w v : Nat) (h : f.lo + f.width ≤ g.lo) : g.get (f.put w v) = g.get w := by
  obtain ⟨off, lo, width⟩ := f
  obtain ⟨off', lo', width'⟩ := g
  simp only [Fld.get, Fld.put, bits] at *
  obtain ⟨k, rfl⟩ := Nat.exists_eq_add_of_le h
  congr 1
  rw [Nat.pow_add 2 (lo + width) k, ← Nat.div_div_eq_div_mul, ← Nat.div_div_eq_div_mul]
  congr 1
  have hP : 0 < 2 ^ (lo + width) := Nat.two_pow_pos _
  have hlt : w % 2 ^ lo + v % 2 ^ width * 2 ^ lo < 2 ^ (lo + width) := by
    have h1 : w % 2 ^ lo < 2 ^ lo := Nat.mod_lt _ (Nat.two_pow_pos _)
    have h2 : v % 2 ^ width + 1 ≤ 2 ^ width := Nat.mod_lt _ (Nat.two_pow_pos _)
    have h3 : (v % 2 ^ width + 1) * 2 ^ lo ≤ 2 ^ width * 2 ^ lo := Nat.mul_le_mul_right _ h2
    have h4 : 2 ^ (lo + width) = 2 ^ width * 2 ^ lo := by rw [Nat.pow_add, Nat.mul_comm]
    rw [h4]; nlinarith
  rw [Nat.add_mul_div_right _ _ hP, Nat.div_eq_of_lt hlt, Nat.zero_add]

/-- A word with a field replaced keeps to 32 bits. -/
theorem Fld.put_lt (f : Fld) (w v : Nat) (hf : f.lo + f.width ≤ 32) (hw : w < 2 ^ 32) : f.put w v < 2 ^ 32 := by
  obtain ⟨off, lo, width⟩ := f
  simp only [Fld.put] at *
  obtain ⟨k, hk⟩ := Nat.exists_eq_add_of_le hf
  have hlt : w % 2 ^ lo + v % 2 ^ width * 2 ^ lo < 2 ^ (lo + width) := by
    have h1 : w % 2 ^ lo < 2 ^ lo := Nat.mod_lt _ (Nat.two_pow_pos _)
    have h2 : v % 2 ^ width + 1 ≤ 2 ^ width := Nat.mod_lt _ (Nat.two_pow_pos _)
    have h3 : (v % 2 ^ width + 1) * 2 ^ lo ≤ 2 ^ width * 2 ^ lo := Nat.mul_le_mul_right _ h2
    have h4 : 2 ^ (lo + width) = 2 ^ width * 2 ^ lo := by rw [Nat.pow_add, Nat.mul_comm]
    rw [h4]; nlinarith
  have h5 : w / 2 ^ (lo + width) < 2 ^ k := by
    rw [Nat.div_lt_iff_lt_mul (Nat.two_pow_pos _), ← Nat.pow_add, Nat.add_comm k, ← hk]; exact hw
  have h6 : (w / 2 ^ (lo + width) + 1) * 2 ^ (lo + width) ≤ 2 ^ k * 2 ^ (lo + width) := Nat.mul_le_mul_right _ h5
  have h7 : (2 : Nat) ^ 32 = 2 ^ k * 2 ^ (lo + width) := by rw [hk, Nat.pow_add, Nat.mul_comm]
  rw [h7]; nlinarith

/-- A field reads what was last set in it. -/
theorem State.get_set_same (s : State) (f : Fld) (v : Nat) (h : f.lo + f.width ≤ 32) :
    (s.set f v).get f = v % 2 ^ f.width := by
  simp only [State.get, State.set, State.rd_wr_same]
  rw [Nat.mod_eq_of_lt (Fld.put_lt f _ v h (s.rd_lt f.off)), Fld.get_put_same]

/-- Setting a field leaves every field apart from it alone. -/
theorem State.get_set_apart (s : State) (f g : Fld) (v : Nat) (hf : f.lo + f.width ≤ 32) (h : Fld.apart f g = true) :
    (s.set f v).get g = s.get g := by
  simp only [Fld.apart, Bool.or_eq_true, bne_iff_ne, ne_eq, decide_eq_true_eq] at h
  simp only [State.get, State.set, State.rd_wr]
  split <;> rename_i ho
  · rw [Nat.mod_eq_of_lt (Fld.put_lt f _ v hf (s.rd_lt f.off)), ← ho]
    rcases h with (h | h) | h
    · exact absurd ho.symm h
    · exact Fld.get_put_above f g _ v h
    · exact Fld.get_put_below f g _ v h
  · rfl

/-- Setting a field leaves every other register word alone. -/
theorem State.rd_set_ne (s : State) (f : Fld) (v : Nat) {off : Nat} (h : off ≠ f.off) : (s.set f v).rd off = s.rd off :=
  s.rd_wr_ne _ h

@[simp] theorem State.set_mem (s : State) (f : Fld) (v : Nat) : (s.set f v).mem = s.mem := rfl
@[simp] theorem State.set_pending (s : State) (f : Fld) (v : Nat) : (s.set f v).pending = s.pending := rfl
@[simp] theorem State.set_rsh (s : State) (f : Fld) (v : Nat) : (s.set f v).rsh = s.rsh := rfl
@[simp] theorem State.set_wsh (s : State) (f : Fld) (v : Nat) : (s.set f v).wsh = s.wsh := rfl
@[simp] theorem State.set_evq (s : State) (f : Fld) (v : Nat) : (s.set f v).evq = s.evq := rfl
@[simp] theorem State.set_eseq (s : State) (f : Fld) (v : Nat) : (s.set f v).eseq = s.eseq := rfl
@[simp] theorem State.set_free (s : State) (f : Fld) (v : Nat) : (s.set f v).free = s.free := rfl
@[simp] theorem State.set_past (s : State) (f : Fld) (v : Nat) : (s.set f v).past = s.past := rfl
@[simp] theorem State.set_sys (s : State) (f : Fld) (v : Nat) : (s.set f v).sys = s.sys := rfl
@[simp] theorem State.set_ing (s : State) (f : Fld) (v : Nat) : (s.set f v).ing = s.ing := rfl
@[simp] theorem State.set_dsp (s : State) (f : Fld) (v : Nat) : (s.set f v).dsp = s.dsp := rfl
@[simp] theorem State.set_asy (s : State) (f : Fld) (v : Nat) : (s.set f v).asy = s.asy := rfl
@[simp] theorem State.set_spx (s : State) (f : Fld) (v : Nat) : (s.set f v).spx = s.spx := rfl
@[simp] theorem State.set_trg (s : State) (f : Fld) (v : Nat) : (s.set f v).trg = s.trg := rfl
@[simp] theorem State.set_pwr (s : State) (f : Fld) (v : Nat) : (s.set f v).pwr = s.pwr := rfl
@[simp] theorem State.set_hk (s : State) (f : Fld) (v : Nat) : (s.set f v).hk = s.hk := rfl
@[simp] theorem State.set_flash (s : State) (f : Fld) (v : Nat) : (s.set f v).flash = s.flash := rfl
@[simp] theorem State.set_cfg (s : State) (f : Fld) (v : Nat) : (s.set f v).cfg = s.cfg := rfl
@[simp] theorem State.set_age (s : State) (f : Fld) (v : Nat) : (s.set f v).age = s.age := rfl
@[simp] theorem State.set_hoop (s : State) (f : Fld) (v : Nat) : (s.set f v).hoop = s.hoop := rfl
@[simp] theorem State.set_den (s : State) (f : Fld) (v : Nat) : (s.set f v).den = s.den := rfl
@[simp] theorem State.set_gal (s : State) (f : Fld) (v : Nat) : (s.set f v).gal = s.gal := rfl
@[simp] theorem State.set_scr (s : State) (f : Fld) (v : Nat) : (s.set f v).scr = s.scr := rfl
@[simp] theorem State.set_wvr (s : State) (f : Fld) (v : Nat) : (s.set f v).wvr = s.wvr := rfl
@[simp] theorem State.set_tly (s : State) (f : Fld) (v : Nat) : (s.set f v).tly = s.tly := rfl
@[simp] theorem State.set_cyk (s : State) (f : Fld) (v : Nat) : (s.set f v).cyk = s.cyk := rfl
@[simp] theorem State.set_clk (s : State) (f : Fld) (v : Nat) : (s.set f v).clk = s.clk := rfl
@[simp] theorem State.set_hbm (s : State) (f : Fld) (v : Nat) : (s.set f v).hbm = s.hbm := rfl
@[simp] theorem State.set_hif (s : State) (f : Fld) (v : Nat) : (s.set f v).hif = s.hif := rfl
@[simp] theorem State.set_ptr (s : State) (f : Fld) (v : Nat) : (s.set f v).ptr = s.ptr := rfl
@[simp] theorem State.set_byo (s : State) (f : Fld) (v : Nat) : (s.set f v).byo = s.byo := rfl

/-! ### Events -/

/-- Everything that raising an event can do: it takes the next ESEQ; either it joins the events that wait for the event
ring, and no register changes, or, with the host interface disabled, it is counted as lost. -/
theorem State.raise_elim {p : State → Prop} (s : State) (code : Nat) (data : List EvItem)
    (kept : s.on Fd.HIF_CTRL_EN = true → p { s with evq := s.evq ++ [⟨code, s.eseq, data⟩], eseq := s.eseq + 1 })
    (lost : ∀ v, s.on Fd.HIF_CTRL_EN = false →
      p { s.wr 0xE0064 v with eseq := s.eseq + 1, hif := { s.hif with lost := s.hif.lost + 1 } }) :
    p (s.raise code data) := by
  unfold State.raise
  split <;> rename_i h
  · exact kept h
  · exact lost _ (Bool.eq_false_iff.2 h)

/-- The next ESEQ after an event (R457). -/
@[simp] theorem State.raise_eseq (s : State) (code : Nat) (data : List EvItem) :
    (s.raise code data).eseq = s.eseq + 1 :=
  s.raise_elim (p := fun t => t.eseq = s.eseq + 1) code data (fun _ => rfl) (fun _ _ => rfl)

/-- An event that the ring can take waits for it. -/
theorem State.raise_evq (s : State) (code : Nat) (data : List EvItem) (h : s.on Fd.HIF_CTRL_EN = true) :
    (s.raise code data).evq = s.evq ++ [⟨code, s.eseq, data⟩] :=
  s.raise_elim (p := fun t => t.evq = s.evq ++ [⟨code, s.eseq, data⟩]) code data (fun _ => rfl)
    (fun _ h' => absurd (h.symm.trans h') Bool.false_ne_true.symm)

/-- An event changes no register but HIF.EVT_LOST. -/
theorem State.raise_rd (s : State) (code : Nat) (data : List EvItem) {off : Nat} (h : off ≠ 0xE0064) :
    (s.raise code data).rd off = s.rd off :=
  s.raise_elim (p := fun t => t.rd off = s.rd off) code data (fun _ => rfl) (fun v _ => s.rd_wr_ne v h)

/-- An event changes no field of another register. -/
theorem State.raise_get (s : State) (code : Nat) (data : List EvItem) (f : Fld) (h : f.off ≠ 0xE0064) :
    (s.raise code data).get f = s.get f := by
  simp only [State.get, s.raise_rd code data h]

@[simp] theorem State.raise_pending (s : State) (code : Nat) (data : List EvItem) : (s.raise code data).pending = s.pending :=
  s.raise_elim (p := fun t => t.pending = s.pending) code data (fun _ => rfl) (fun _ _ => rfl)
@[simp] theorem State.raise_rsh (s : State) (code : Nat) (data : List EvItem) : (s.raise code data).rsh = s.rsh :=
  s.raise_elim (p := fun t => t.rsh = s.rsh) code data (fun _ => rfl) (fun _ _ => rfl)
@[simp] theorem State.raise_wsh (s : State) (code : Nat) (data : List EvItem) : (s.raise code data).wsh = s.wsh :=
  s.raise_elim (p := fun t => t.wsh = s.wsh) code data (fun _ => rfl) (fun _ _ => rfl)
@[simp] theorem State.raise_mem (s : State) (code : Nat) (data : List EvItem) : (s.raise code data).mem = s.mem :=
  s.raise_elim (p := fun t => t.mem = s.mem) code data (fun _ => rfl) (fun _ _ => rfl)
@[simp] theorem State.raise_free (s : State) (code : Nat) (data : List EvItem) : (s.raise code data).free = s.free :=
  s.raise_elim (p := fun t => t.free = s.free) code data (fun _ => rfl) (fun _ _ => rfl)
@[simp] theorem State.raise_past (s : State) (code : Nat) (data : List EvItem) : (s.raise code data).past = s.past :=
  s.raise_elim (p := fun t => t.past = s.past) code data (fun _ => rfl) (fun _ _ => rfl)
@[simp] theorem State.raise_sys (s : State) (code : Nat) (data : List EvItem) : (s.raise code data).sys = s.sys :=
  s.raise_elim (p := fun t => t.sys = s.sys) code data (fun _ => rfl) (fun _ _ => rfl)
@[simp] theorem State.raise_ing (s : State) (code : Nat) (data : List EvItem) : (s.raise code data).ing = s.ing :=
  s.raise_elim (p := fun t => t.ing = s.ing) code data (fun _ => rfl) (fun _ _ => rfl)
@[simp] theorem State.raise_dsp (s : State) (code : Nat) (data : List EvItem) : (s.raise code data).dsp = s.dsp :=
  s.raise_elim (p := fun t => t.dsp = s.dsp) code data (fun _ => rfl) (fun _ _ => rfl)
@[simp] theorem State.raise_asy (s : State) (code : Nat) (data : List EvItem) : (s.raise code data).asy = s.asy :=
  s.raise_elim (p := fun t => t.asy = s.asy) code data (fun _ => rfl) (fun _ _ => rfl)
@[simp] theorem State.raise_spx (s : State) (code : Nat) (data : List EvItem) : (s.raise code data).spx = s.spx :=
  s.raise_elim (p := fun t => t.spx = s.spx) code data (fun _ => rfl) (fun _ _ => rfl)
@[simp] theorem State.raise_trg (s : State) (code : Nat) (data : List EvItem) : (s.raise code data).trg = s.trg :=
  s.raise_elim (p := fun t => t.trg = s.trg) code data (fun _ => rfl) (fun _ _ => rfl)
@[simp] theorem State.raise_pwr (s : State) (code : Nat) (data : List EvItem) : (s.raise code data).pwr = s.pwr :=
  s.raise_elim (p := fun t => t.pwr = s.pwr) code data (fun _ => rfl) (fun _ _ => rfl)
@[simp] theorem State.raise_hk (s : State) (code : Nat) (data : List EvItem) : (s.raise code data).hk = s.hk :=
  s.raise_elim (p := fun t => t.hk = s.hk) code data (fun _ => rfl) (fun _ _ => rfl)
@[simp] theorem State.raise_flash (s : State) (code : Nat) (data : List EvItem) : (s.raise code data).flash = s.flash :=
  s.raise_elim (p := fun t => t.flash = s.flash) code data (fun _ => rfl) (fun _ _ => rfl)
@[simp] theorem State.raise_cfg (s : State) (code : Nat) (data : List EvItem) : (s.raise code data).cfg = s.cfg :=
  s.raise_elim (p := fun t => t.cfg = s.cfg) code data (fun _ => rfl) (fun _ _ => rfl)
@[simp] theorem State.raise_age (s : State) (code : Nat) (data : List EvItem) : (s.raise code data).age = s.age :=
  s.raise_elim (p := fun t => t.age = s.age) code data (fun _ => rfl) (fun _ _ => rfl)
@[simp] theorem State.raise_hoop (s : State) (code : Nat) (data : List EvItem) : (s.raise code data).hoop = s.hoop :=
  s.raise_elim (p := fun t => t.hoop = s.hoop) code data (fun _ => rfl) (fun _ _ => rfl)
@[simp] theorem State.raise_den (s : State) (code : Nat) (data : List EvItem) : (s.raise code data).den = s.den :=
  s.raise_elim (p := fun t => t.den = s.den) code data (fun _ => rfl) (fun _ _ => rfl)
@[simp] theorem State.raise_gal (s : State) (code : Nat) (data : List EvItem) : (s.raise code data).gal = s.gal :=
  s.raise_elim (p := fun t => t.gal = s.gal) code data (fun _ => rfl) (fun _ _ => rfl)
@[simp] theorem State.raise_scr (s : State) (code : Nat) (data : List EvItem) : (s.raise code data).scr = s.scr :=
  s.raise_elim (p := fun t => t.scr = s.scr) code data (fun _ => rfl) (fun _ _ => rfl)
@[simp] theorem State.raise_wvr (s : State) (code : Nat) (data : List EvItem) : (s.raise code data).wvr = s.wvr :=
  s.raise_elim (p := fun t => t.wvr = s.wvr) code data (fun _ => rfl) (fun _ _ => rfl)
@[simp] theorem State.raise_tly (s : State) (code : Nat) (data : List EvItem) : (s.raise code data).tly = s.tly :=
  s.raise_elim (p := fun t => t.tly = s.tly) code data (fun _ => rfl) (fun _ _ => rfl)
@[simp] theorem State.raise_cyk (s : State) (code : Nat) (data : List EvItem) : (s.raise code data).cyk = s.cyk :=
  s.raise_elim (p := fun t => t.cyk = s.cyk) code data (fun _ => rfl) (fun _ _ => rfl)
@[simp] theorem State.raise_clk (s : State) (code : Nat) (data : List EvItem) : (s.raise code data).clk = s.clk :=
  s.raise_elim (p := fun t => t.clk = s.clk) code data (fun _ => rfl) (fun _ _ => rfl)
@[simp] theorem State.raise_hbm (s : State) (code : Nat) (data : List EvItem) : (s.raise code data).hbm = s.hbm :=
  s.raise_elim (p := fun t => t.hbm = s.hbm) code data (fun _ => rfl) (fun _ _ => rfl)
@[simp] theorem State.raise_ptr (s : State) (code : Nat) (data : List EvItem) : (s.raise code data).ptr = s.ptr :=
  s.raise_elim (p := fun t => t.ptr = s.ptr) code data (fun _ => rfl) (fun _ _ => rfl)
@[simp] theorem State.raise_byo (s : State) (code : Nat) (data : List EvItem) : (s.raise code data).byo = s.byo :=
  s.raise_elim (p := fun t => t.byo = s.byo) code data (fun _ => rfl) (fun _ _ => rfl)

/-! ### Memory bytes -/

/-- A byte reads what was last put there. -/
@[simp] theorem Memory.byte_put_same (m : List Host.Cell) (a : Nat) (v : Byte) : Memory.byte (Memory.put m a v) a = v :=
  Assoc.get_put_same _ _ _ _

/-- A put leaves every other byte alone. -/
theorem Memory.byte_put_ne (m : List Host.Cell) {a b : Nat} (v : Byte) (h : b ≠ a) :
    Memory.byte (Memory.put m a v) b = Memory.byte m b := Assoc.get_put_ne _ _ _ _ h

/-- A store leaves the bytes outside it alone. -/
theorem Memory.byte_store_out (m : List Host.Cell) (a : Nat) (bs : List Byte) {b : Nat}
    (h : b < a ∨ a + bs.length ≤ b) : Memory.byte (Memory.store m a bs) b = Memory.byte m b := by
  induction bs generalizing m a with
  | nil => rfl
  | cons x bs ih =>
    simp only [List.length_cons] at h
    rw [Memory.store, ih _ (a + 1) (by omega), Memory.byte_put_ne _ _ (by omega)]

/-- A store is read back, byte by byte. -/
theorem Memory.byte_store_in (m : List Host.Cell) (a : Nat) (bs : List Byte) {i : Nat} (h : i < bs.length) :
    Memory.byte (Memory.store m a bs) (a + i) = bs[i] := by
  induction bs generalizing m a i with
  | nil => simp at h
  | cons x bs ih =>
    cases i with
    | zero => rw [Memory.store, Memory.byte_store_out _ _ _ (by omega)]; simp
    | succ i =>
      have := ih (Memory.put m a x) (a + 1) (i := i) (by simpa using h)
      rw [Memory.store, show a + (i + 1) = a + 1 + i by omega, this]
      simp

/-- A put keeps memory in canonical form. -/
theorem Memory.wf_put {m : List Host.Cell} (a : Nat) (v : Byte) (h : Memory.wf m = true) :
    Memory.wf (Memory.put m a v) = true := Assoc.wf_put (dflt := fun _ => 0#8) a v h

/-- A store keeps memory in canonical form. -/
theorem Memory.wf_store {m : List Host.Cell} (a : Nat) (bs : List Byte) (h : Memory.wf m = true) :
    Memory.wf (Memory.store m a bs) = true := by
  induction bs generalizing m a with
  | nil => exact h
  | cons x bs ih => exact ih (a + 1) (Memory.wf_put a x h)

/-- What `State.store` leaves: it writes its bytes and ends poison, and keeps the canonical form. -/
theorem State.store_wf {s : State} (a : Nat) (bs : List Byte) (h : Memory.wf s.mem = true) :
    Memory.wf (s.store a bs).mem = true := Memory.wf_store a bs h

/-- A register write keeps the register map in canonical form. -/
theorem State.wr_wf {s : State} (a v : Nat) (h : Assoc.wf RegMap.resetWord s.regs = true) :
    Assoc.wf RegMap.resetWord (s.wr a v).regs = true := Assoc.wf_put (dflt := RegMap.resetWord) a _ h

end Sys2Proof.Machine
end

