-- ==== Sys2Proof/Laws/Bytes.lean ====
section
/-! SUPPORT. Byte lists: a store is loaded back, a little-endian number is read back, and a checked block passes its check. -/

namespace Sys2Proof.Machine

/-- What was stored is loaded. -/
theorem Memory.load_eq (m : List Host.Cell) (a : Nat) (bs : List Byte)
    (h : ∀ i (hi : i < bs.length), Memory.byte m (a + i) = bs[i]) : Memory.load m a bs.length = bs := by
  induction bs generalizing a with
  | nil => rfl
  | cons b bs ih =>
    have h0 := h 0 (by simp)
    have h1 := ih (a + 1) (fun i hi => by
      have := h (i + 1) (by simpa using hi)
      rw [show a + 1 + i = a + (i + 1) by omega, this]
      simp)
    simp only [List.length_cons, Memory.load, h1]
    simpa using h0

/-- The bytes of a number are as many as asked for. -/
@[simp] theorem le_length (n v : Nat) : (le n v).length = n := by
  induction n generalizing v with
  | zero => rfl
  | succ n ih => simp [le, ih]

/-- A number that fits is read back. -/
theorem ofLe_le (n v : Nat) (h : v < 256 ^ n) : ofLe (le n v) = v := by
  induction n generalizing v with
  | zero => simp at h; simp [le, ofLe, h]
  | succ n ih =>
    have : v / 256 < 256 ^ n := by rw [Nat.pow_succ] at h; omega
    simp only [le, ofLe, ih _ this, BitVec.toNat_ofNat]
    omega

/-- A bit step of the CRC stays within 32 bits. -/
theorem crcStep_lt {c : Nat} (h : c < 2 ^ 32) : crcStep c < 2 ^ 32 := by
  unfold crcStep
  split
  · exact Nat.xor_lt_two_pow (by omega) (by decide)
  · omega

/-- The CRC of a byte stays within 32 bits. -/
theorem crcByte_lt {c : Nat} (b : Byte) (h : c < 2 ^ 32) : crcByte c b < 2 ^ 32 := by
  have : Nat.xor c b.toNat < 2 ^ 32 := Nat.xor_lt_two_pow h (by have := b.isLt; omega)
  exact crcStep_lt (crcStep_lt (crcStep_lt (crcStep_lt (crcStep_lt (crcStep_lt (crcStep_lt (crcStep_lt this)))))))

/-- CRC-32C has 32 bits. -/
theorem crc32c_lt (bs : List Byte) : crc32c bs < 2 ^ 32 := by
  have : ∀ c, c < 2 ^ 32 → bs.foldl crcByte c < 2 ^ 32 := by
    induction bs with
    | nil => exact fun c h => h
    | cons b bs ih => exact fun c h => ih _ (crcByte_lt b h)
  exact Nat.xor_lt_two_pow (this _ (by decide)) (by decide)

/-- A block followed by its CRC-32C passes the check. -/
theorem crcGood_withCrc (bs : List Byte) : crcGood (withCrc bs) = true := by
  have h : ofLe (le 4 (crc32c bs)) = crc32c bs := ofLe_le 4 _ (crc32c_lt bs)
  simp [crcGood, withCrc, h]

end Sys2Proof.Machine
end

