-- ==== Sys2Proof/Laws/Frame.lean ====
section
/-! SUPPORT. How frames compose: one lemma per named operation, so that the frame of a meaning follows the meaning's own
chain of operations. -/

namespace Sys2Proof.Safety

open Sys2Proof.Machine


theorem numbered_append (n : Nat) (a b : List (Nat × List EvItem)) :
    numbered n (a ++ b) = numbered n a ++ numbered (n + a.length) b := by
  induction a generalizing n with
  | nil => simp [numbered]
  | cons e a ih => simp [numbered, ih, Nat.add_comm, Nat.add_left_comm]

/-- A state is in its own frame. -/
theorem Frame.refl (fs : List Fld) (parts : List Part) (s : State) : Frame fs parts [] s s := by
  refine ⟨fun _ _ => rfl, fun _ => rfl, rfl, fun u _ _ => ?_, rfl, ?_⟩
  · cases u <;> first | rfl | exact ⟨rfl, rfl⟩
  · simp [numbered]

/-- Setting a listed field keeps the frame. -/
theorem Frame.set {fs : List Fld} {parts : List Part} {evs : List (Nat × List EvItem)} {s t : State} (f : Fld) (v : Nat)
    (h : Frame fs parts evs s t) (hm : f ∈ fs := by simp) (hf : f.lo + f.width ≤ 32 := by decide) :
    Frame fs parts evs s (t.set f v) := by
  obtain ⟨hr, hmem, hp, hu, he⟩ := h
  refine ⟨fun g hg => ?_, hmem, hp, fun u h1 h2 => ?_, he⟩
  · rw [t.get_set_apart f g v hf (hg f ?_), hr g hg]
    split <;> simp [hm]
  · have := hu u h1 h2
    cases u <;> exact this

/-- Raising an event adds it to the frame's events. -/
theorem Frame.raise {fs : List Fld} {parts : List Part} {evs : List (Nat × List EvItem)} {s t : State} (code : Nat)
    (data : List EvItem) (h : Frame fs parts evs s t) (hen : ∀ f ∈ fs, f.apart Fd.HIF_CTRL_EN = true := by decide) :
    Frame fs parts (evs ++ [(code, data)]) s (t.raise code data) := by
  obtain ⟨hr, hmem, hp, hu, he⟩ := h
  have hon : t.on Fd.HIF_CTRL_EN = s.on Fd.HIF_CTRL_EN := by
    unfold State.on
    rw [hr]
    intro f hf
    split at hf
    · exact hen f hf
    · rcases List.mem_cons.1 hf with rfl | hf
      · decide
      · exact hen f hf
  have hsub : ∀ g : Fld, (∀ f ∈ (if (evs ++ [(code, data)]).isEmpty then fs else Fd.HIF_EVT_LOST :: fs), f.apart g = true) →
      Fd.HIF_EVT_LOST.apart g = true ∧ ∀ f ∈ (if evs.isEmpty then fs else Fd.HIF_EVT_LOST :: fs), f.apart g = true := by
    intro g hg
    have hl : ∀ f ∈ Fd.HIF_EVT_LOST :: fs, f.apart g = true := by
      intro f hf; apply hg; simpa using hf
    refine ⟨hl _ (by simp), fun f hf => hl f ?_⟩
    split at hf
    · exact List.mem_cons_of_mem _ hf
    · exact hf
  refine ⟨fun g hg => ?_, fun a => by rw [State.raise_mem]; exact hmem a, by rw [State.raise_pending]; exact hp,
    fun u h1 h2 => ?_, ?_, ?_⟩
  · obtain ⟨h1, h2⟩ := hsub g hg
    rw [← hr g h2]
    refine State.raise_elim (p := fun x => x.get g = t.get g) t code data (fun _ => rfl) (fun v _ => ?_)
    simp only [State.get]
    simp only [Fld.apart, Bool.or_eq_true, bne_iff_ne, ne_eq, decide_eq_true_eq] at h1
    rcases h1 with (h1 | h1) | h1
    · exact congrArg g.get (t.rd_wr_ne v (Ne.symm h1))
    · by_cases ho : g.off = 0xE0064
      · have : ∀ w, w < 2 ^ 32 → g.get w = 0 := by
          intro w hw
          simp only [Fld.get, bits]
          rw [Nat.div_eq_of_lt (lt_of_lt_of_le hw (Nat.pow_le_pow_right (by decide) h1)), Nat.zero_mod]
        exact (this _ (State.rd_lt _ _)).trans (this _ (State.rd_lt _ _)).symm
      · exact congrArg g.get (t.rd_wr_ne v ho)
    · by_cases ho : g.off = 0xE0064
      · have hw : g.width = 0 := by simp at h1; exact h1.2
        have : ∀ w, g.get w = 0 := by intro w; simp [Fld.get, bits, hw, Nat.mod_one]
        exact (this _).trans (this _).symm
      · exact congrArg g.get (t.rd_wr_ne v ho)
  · have hne : u ≠ .hif := h2 (by simp)
    have := hu u h1 (fun _ => hne)
    revert hne this
    cases u <;> intro hne this <;> simp_all [SamePart]
  · rw [State.raise_eseq, he.1]; simp; omega
  · refine State.raise_elim (p := fun x => x.evq = _) t code data (fun h => ?_) (fun v h => ?_)
    · rw [hon] at h
      simp only [h, if_true, numbered_append, numbered, he.1]
      rw [he.2, h]; simp
    · rw [hon] at h
      rw [h]
      have := he.2
      rw [h] at this
      exact this

/-- The register map, memory, the queue and the events unchanged. -/
theorem Frame.upd {fs : List Fld} {parts : List Part} {evs : List (Nat × List EvItem)} {s t t' : State}
    (h : Frame fs parts evs s t) (h1 : t'.regs = t.regs) (h2 : t'.mem = t.mem) (h3 : t'.pending = t.pending)
    (h4 : t'.eseq = t.eseq) (h5 : t'.evq = t.evq) (h6 : ∀ u, u ∉ parts → SamePart t t' u) :
    Frame fs parts evs s t' := by
  obtain ⟨hr, hmem, hp, hu, he⟩ := h
  refine ⟨fun g hg => ?_, fun a => by rw [h2]; exact hmem a, h3.trans hp, fun u a b => ?_, h4.trans he.1, h5.trans he.2⟩
  · rw [← hr g hg]; simp only [State.get, State.rd, h1]
  · have x := hu u a b
    have y := h6 u a
    cases u <;> simp_all [SamePart]

theorem Frame.sys {fs : List Fld} {parts : List Part} {evs : List (Nat × List EvItem)} {s t : State} (x)
    (h : Frame fs parts evs s t) (hm : Part.sys ∈ parts := by simp) : Frame fs parts evs s { t with sys := x } :=
  h.upd rfl rfl rfl rfl rfl (fun u hu => by cases u <;> first | rfl | exact ⟨rfl, rfl⟩ | exact absurd hm hu)

theorem Frame.ing {fs : List Fld} {parts : List Part} {evs : List (Nat × List EvItem)} {s t : State} (x)
    (h : Frame fs parts evs s t) (hm : Part.ing ∈ parts := by simp) : Frame fs parts evs s { t with ing := x } :=
  h.upd rfl rfl rfl rfl rfl (fun u hu => by cases u <;> first | rfl | exact ⟨rfl, rfl⟩ | exact absurd hm hu)

theorem Frame.dsp {fs : List Fld} {parts : List Part} {evs : List (Nat × List EvItem)} {s t : State} (x)
    (h : Frame fs parts evs s t) (hm : Part.dsp ∈ parts := by simp) : Frame fs parts evs s { t with dsp := x } :=
  h.upd rfl rfl rfl rfl rfl (fun u hu => by cases u <;> first | rfl | exact ⟨rfl, rfl⟩ | exact absurd hm hu)

theorem Frame.asy {fs : List Fld} {parts : List Part} {evs : List (Nat × List EvItem)} {s t : State} (x)
    (h : Frame fs parts evs s t) (hm : Part.asy ∈ parts := by simp) : Frame fs parts evs s { t with asy := x } :=
  h.upd rfl rfl rfl rfl rfl (fun u hu => by cases u <;> first | rfl | exact ⟨rfl, rfl⟩ | exact absurd hm hu)

theorem Frame.spx {fs : List Fld} {parts : List Part} {evs : List (Nat × List EvItem)} {s t : State} (x)
    (h : Frame fs parts evs s t) (hm : Part.spx ∈ parts := by simp) : Frame fs parts evs s { t with spx := x } :=
  h.upd rfl rfl rfl rfl rfl (fun u hu => by cases u <;> first | rfl | exact ⟨rfl, rfl⟩ | exact absurd hm hu)

theorem Frame.trg {fs : List Fld} {parts : List Part} {evs : List (Nat × List EvItem)} {s t : State} (x)
    (h : Frame fs parts evs s t) (hm : Part.trg ∈ parts := by simp) : Frame fs parts evs s { t with trg := x } :=
  h.upd rfl rfl rfl rfl rfl (fun u hu => by cases u <;> first | rfl | exact ⟨rfl, rfl⟩ | exact absurd hm hu)

theorem Frame.pwr {fs : List Fld} {parts : List Part} {evs : List (Nat × List EvItem)} {s t : State} (x)
    (h : Frame fs parts evs s t) (hm : Part.pwr ∈ parts := by simp) : Frame fs parts evs s { t with pwr := x } :=
  h.upd rfl rfl rfl rfl rfl (fun u hu => by cases u <;> first | rfl | exact ⟨rfl, rfl⟩ | exact absurd hm hu)

theorem Frame.hk {fs : List Fld} {parts : List Part} {evs : List (Nat × List EvItem)} {s t : State} (x)
    (h : Frame fs parts evs s t) (hm : Part.hk ∈ parts := by simp) : Frame fs parts evs s { t with hk := x } :=
  h.upd rfl rfl rfl rfl rfl (fun u hu => by cases u <;> first | rfl | exact ⟨rfl, rfl⟩ | exact absurd hm hu)

theorem Frame.flash {fs : List Fld} {parts : List Part} {evs : List (Nat × List EvItem)} {s t : State} (x)
    (h : Frame fs parts evs s t) (hm : Part.flash ∈ parts := by simp) : Frame fs parts evs s { t with flash := x } :=
  h.upd rfl rfl rfl rfl rfl (fun u hu => by cases u <;> first | rfl | exact ⟨rfl, rfl⟩ | exact absurd hm hu)

theorem Frame.cfg {fs : List Fld} {parts : List Part} {evs : List (Nat × List EvItem)} {s t : State} (x)
    (h : Frame fs parts evs s t) (hm : Part.cfg ∈ parts := by simp) : Frame fs parts evs s { t with cfg := x } :=
  h.upd rfl rfl rfl rfl rfl (fun u hu => by cases u <;> first | rfl | exact ⟨rfl, rfl⟩ | exact absurd hm hu)

theorem Frame.age {fs : List Fld} {parts : List Part} {evs : List (Nat × List EvItem)} {s t : State} (x)
    (h : Frame fs parts evs s t) (hm : Part.age ∈ parts := by simp) : Frame fs parts evs s { t with age := x } :=
  h.upd rfl rfl rfl rfl rfl (fun u hu => by cases u <;> first | rfl | exact ⟨rfl, rfl⟩ | exact absurd hm hu)

theorem Frame.hoop {fs : List Fld} {parts : List Part} {evs : List (Nat × List EvItem)} {s t : State} (x)
    (h : Frame fs parts evs s t) (hm : Part.hoop ∈ parts := by simp) : Frame fs parts evs s { t with hoop := x } :=
  h.upd rfl rfl rfl rfl rfl (fun u hu => by cases u <;> first | rfl | exact ⟨rfl, rfl⟩ | exact absurd hm hu)

theorem Frame.den {fs : List Fld} {parts : List Part} {evs : List (Nat × List EvItem)} {s t : State} (x)
    (h : Frame fs parts evs s t) (hm : Part.den ∈ parts := by simp) : Frame fs parts evs s { t with den := x } :=
  h.upd rfl rfl rfl rfl rfl (fun u hu => by cases u <;> first | rfl | exact ⟨rfl, rfl⟩ | exact absurd hm hu)

theorem Frame.gal {fs : List Fld} {parts : List Part} {evs : List (Nat × List EvItem)} {s t : State} (x)
    (h : Frame fs parts evs s t) (hm : Part.gal ∈ parts := by simp) : Frame fs parts evs s { t with gal := x } :=
  h.upd rfl rfl rfl rfl rfl (fun u hu => by cases u <;> first | rfl | exact ⟨rfl, rfl⟩ | exact absurd hm hu)

theorem Frame.scr {fs : List Fld} {parts : List Part} {evs : List (Nat × List EvItem)} {s t : State} (x)
    (h : Frame fs parts evs s t) (hm : Part.scr ∈ parts := by simp) : Frame fs parts evs s { t with scr := x } :=
  h.upd rfl rfl rfl rfl rfl (fun u hu => by cases u <;> first | rfl | exact ⟨rfl, rfl⟩ | exact absurd hm hu)

theorem Frame.wvr {fs : List Fld} {parts : List Part} {evs : List (Nat × List EvItem)} {s t : State} (x)
    (h : Frame fs parts evs s t) (hm : Part.wvr ∈ parts := by simp) : Frame fs parts evs s { t with wvr := x } :=
  h.upd rfl rfl rfl rfl rfl (fun u hu => by cases u <;> first | rfl | exact ⟨rfl, rfl⟩ | exact absurd hm hu)

theorem Frame.tly {fs : List Fld} {parts : List Part} {evs : List (Nat × List EvItem)} {s t : State} (x)
    (h : Frame fs parts evs s t) (hm : Part.tly ∈ parts := by simp) : Frame fs parts evs s { t with tly := x } :=
  h.upd rfl rfl rfl rfl rfl (fun u hu => by cases u <;> first | rfl | exact ⟨rfl, rfl⟩ | exact absurd hm hu)

theorem Frame.cyk {fs : List Fld} {parts : List Part} {evs : List (Nat × List EvItem)} {s t : State} (x)
    (h : Frame fs parts evs s t) (hm : Part.cyk ∈ parts := by simp) : Frame fs parts evs s { t with cyk := x } :=
  h.upd rfl rfl rfl rfl rfl (fun u hu => by cases u <;> first | rfl | exact ⟨rfl, rfl⟩ | exact absurd hm hu)

theorem Frame.clk {fs : List Fld} {parts : List Part} {evs : List (Nat × List EvItem)} {s t : State} (x)
    (h : Frame fs parts evs s t) (hm : Part.clk ∈ parts := by simp) : Frame fs parts evs s { t with clk := x } :=
  h.upd rfl rfl rfl rfl rfl (fun u hu => by cases u <;> first | rfl | exact ⟨rfl, rfl⟩ | exact absurd hm hu)

theorem Frame.hbm {fs : List Fld} {parts : List Part} {evs : List (Nat × List EvItem)} {s t : State} (x)
    (h : Frame fs parts evs s t) (hm : Part.hbm ∈ parts := by simp) : Frame fs parts evs s { t with hbm := x } :=
  h.upd rfl rfl rfl rfl rfl (fun u hu => by cases u <;> first | rfl | exact ⟨rfl, rfl⟩ | exact absurd hm hu)

theorem Frame.hif {fs : List Fld} {parts : List Part} {evs : List (Nat × List EvItem)} {s t : State} (x)
    (h : Frame fs parts evs s t) (hm : Part.hif ∈ parts := by simp) : Frame fs parts evs s { t with hif := x } :=
  h.upd rfl rfl rfl rfl rfl (fun u hu => by cases u <;> first | rfl | exact ⟨rfl, rfl⟩ | exact absurd hm hu)

theorem Frame.ptr {fs : List Fld} {parts : List Part} {evs : List (Nat × List EvItem)} {s t : State} (x)
    (h : Frame fs parts evs s t) (hm : Part.ptr ∈ parts := by simp) : Frame fs parts evs s { t with ptr := x } :=
  h.upd rfl rfl rfl rfl rfl (fun u hu => by cases u <;> first | rfl | exact ⟨rfl, rfl⟩ | exact absurd hm hu)

theorem Frame.byo {fs : List Fld} {parts : List Part} {evs : List (Nat × List EvItem)} {s t : State} (x)
    (h : Frame fs parts evs s t) (hm : Part.byo ∈ parts := by simp) : Frame fs parts evs s { t with byo := x } :=
  h.upd rfl rfl rfl rfl rfl (fun u hu => by cases u <;> first | rfl | exact ⟨rfl, rfl⟩ | exact absurd hm hu)

theorem Frame.past {fs : List Fld} {parts : List Part} {evs : List (Nat × List EvItem)} {s t : State} (x)
    (h : Frame fs parts evs s t) (hm : Part.past ∈ parts := by simp) : Frame fs parts evs s { t with past := x } :=
  h.upd rfl rfl rfl rfl rfl (fun u hu => by cases u <;> first | rfl | exact ⟨rfl, rfl⟩ | exact absurd hm hu)

end Sys2Proof.Safety
end

