-- ==== Sys2Proof/WellFormed.lean ====
section
/-! DEFINITION. Which commands can come: the limits of their operands that their types do not say. -/

namespace Sys2Proof

/-- The limits of a command's operands beyond their types. -/
def Instr.wf : Instr → Bool
  -- R6, R449: an access addresses at least one byte, and BAR2 ends at 256 MiB
  | .registerWrite _ data => !data.isEmpty
  | .bar2Access off write n => match write with
    | some bs => !bs.isEmpty && decide (off.toNat + bs.length ≤ 2 ^ 28)
    | none => n != 0 && decide (off.toNat + n.toNat ≤ 2 ^ 28)
  -- R482: a request lies within one 64-byte line
  | .memoryRequest _ addr write _ => match write with
    | some bs => !bs.isEmpty && decide (addr.toNat % 64 + bs.length ≤ 64)
    | none => true
  -- R100: 16 ticks of each of the four channels
  | .beatRelease beat => beat.length == 4 && beat.all (fun c => c.length == 16)
  -- R488: 128 pseudo-channels and ten ports
  | .hotWindow counts ports => counts.length == 128 && ports.length == 10
  -- R459, R521: a command entry has 64 bytes
  | .remoteCommand _ _ _ cmd => cmd.length == 64
  -- R448: speeds 1 to 5
  | .hostLinkUp _ speed => speed != 0
  -- R572: 64 monitors
  | .monitorSample values => values.length == 64
  -- R524: an element has at most 8,256 bytes
  | .receiveElement _ _ _ _ _ _ _ _ _ _ _ payload => decide (payload.length ≤ 8256)
  | _ => true

end Sys2Proof
end

