-- ==== Sys2Proof/Tests/Slice0.lean ====
section
/-! SUPPORT. The model's own tests: ill-formed commands that `Instr.wf` refuses, Cykin words written out from chapter 16's
encodings, and for every statement with hypotheses a small state that meets them all, with what one command does to it. -/

namespace Sys2Proof.Tests

set_option Elab.async false

open Sys2Proof.Machine Sys2Proof.Safety

/-- The reset state with some fields set. -/
def st (l : List (Fld × Nat)) : State := l.foldl (fun s e => s.set e.1 e.2) State.reset

/-- Whether a command answers a next state that passes a test. -/
def does (c : Instr) (s : State) (p : State → Bool) : Bool :=
  match exec c s with
  | .next t => p t
  | _ => false

/-- The codes of the events that wait. -/
def evs (s : State) : List Nat := s.evq.map (fun e => e.code)

/-! ### Register access and units -/

/-- A state in PHASE 7 with the host interface enabled. -/
def up (l : List (Fld × Nat)) : State := st ([(Fd.CFG_STATUS_PHASE, 7), (Fd.HIF_CTRL_EN, 1)] ++ l)

theorem wit_step : ({ State.reset with pending := [.vinLow, .ocxoReady] } : State).pending = .vinLow :: [.ocxoReady] ∧
    State.reset.pending = [] := by decide +kernel

theorem wit_registers : 4 ≤ (up []).get Fd.CFG_STATUS_PHASE ∧ (up []).get Fd.CFG_STATUS_PHASE ≤ 7 ∧
    does (.registerWrite 0x12B#26 [5#8]) (up []) (fun t => t.rd 0x128 == 5 * 2 ^ 24) = true ∧
    does (.lowWordWrite 0x108#26 9#32) (up []) (fun t => writeShadow t 0x108 == 9 && t.rd 0x108 == 0) = true ∧
    does (.highWordWrite 0x10C#26 3#32) (holdLow 0x108 9 (up [])) (fun t => t.rd64 0x108 == 9 + 3 * 2 ^ 32) = true ∧
    does .clampClear (up [(Fd.SYS_CLAMP_COUNT, 4)]) (fun t => t.get Fd.SYS_CLAMP_COUNT == 0) = true := by decide +kernel

theorem wit_pairs : (0x100#26).toNat % 4 = 0 ∧
    (RegMap.find 0x100).any (fun r => r.1.pair == .low .any) = true ∧ regsGated (up []) 0x100 = false ∧
    (RegMap.find 0x104).any (fun r => r.1.pair == .high) = true ∧ regsGated (up []) 0x104 = false ∧
    does (.lowWordRead 0x100#26) (up [(Fd.SYS_ST_NOW_LO, 7), (Fd.SYS_ST_NOW_HI, 2)]) (fun t =>
      t.hif.readData == [7#8, 0#8, 0#8, 0#8] && (busRead 0x104 t).1 == 2) = true := by decide +kernel

theorem wit_clears : regsGated (up []) (cntClearAt .cyk) = false ∧ phaseBlocks (up []) (cntClearAt .cyk) = false ∧
    regsGated (up []) (satClearAt .zb) = false ∧ phaseBlocks (up []) (satClearAt .zb) = false ∧
    does (.cntClear .cyk) (up [(Fd.COR_ILOST 127, 5)]) (fun t => (countersOf .cyk).all (fun f => t.get f == 0)) = true ∧
    does (.satClear .zb) (up [(Fd.ZC_SAT 63, 5)]) (fun t => (satCountersOf .zb).all (fun f => t.get f == 0)) = true ∧
    does (.cntClear .ptr) (up [(⟨0xF010C, 0, 32⟩, 5)]) (fun t => (countersOf .ptr).all (fun f => t.get f == 0)) = true ∧
    does (.cntClear .byo) (up [(Fd.RX_LATE 7, 5)]) (fun t => (countersOf .byo).all (fun f => t.get f == 0)) = true := by
  decide +kernel

theorem wit_quiescent : State.reset.asy.run = none ∧ State.reset.dsp.zc = [] ∧ State.reset.spx.traces = [] ∧
    State.reset.trg.tus = [] ∧ State.reset.hoop = [] ∧ State.reset.den.sg = [] ∧
    (∀ c, c < 4 → (st [(Fd.DEN_STATUS_QUIESCENT 0, 1), (Fd.DEN_STATUS_QUIESCENT 1, 1), (Fd.DEN_STATUS_QUIESCENT 2, 1),
      (Fd.DEN_STATUS_QUIESCENT 3, 1)]).on (Fd.DEN_STATUS_QUIESCENT c) = true) ∧
    State.reset.get Fd.SCR_STATUS_STATE = 0 ∧ engState State.reset 0 = 0 ∧ State.reset.hif.due = [] ∧
    State.reset.ptr.fences = [] ∧ State.reset.hbm.waiting = [] ∧ State.reset.age.replan = none ∧
    State.reset.cfg.applies = [] := by decide +kernel

theorem wit_quiescent_cores : (∀ n, n < 128 → coreLive State.reset n = false) ∧
    (∀ k, k < 9 → State.reset.on (Fd.EV_CFG_EN k) = false) ∧ (∀ f, f < 16 → State.reset.on (Fd.FD_CTRL_EN f) = false) ∧
    ([UnitId.asy, .trg, .hoop, .scr, .wvr, .tly, .cyk, .hif, .ptr, .hbm, .byo, .age, .cfg].all (fun u =>
      does (.unitQuiescent u) State.reset (fun t => (unitQuiescent.filter (fun x => t.on x.2)).length != 0))) = true := by
  decide +kernel

theorem wit_quiescent_gallery : ({ State.reset with gal := { State.reset.gal with begun := true, retired := true } } : State).gal.begun
    = true ∧ does (.unitQuiescent .gal) { (State.reset.set Fd.GAL_STATUS_QUIESCENT 0) with
      gal := { State.reset.gal with begun := true, retired := true } } (fun t => t.on Fd.GAL_STATUS_QUIESCENT) = true := by
  decide +kernel

/-! ### Stream time -/

/-- Ingest enabled and locked, the polarity decided, SYSREF periodic. -/
def ing (l : List (Fld × Nat)) : State :=
  let s := up ([(Fd.ING_CTRL_EN, 1), (Fd.PLL_STATUS_LOCK 1, 1), (Fd.ING_SR_CFG_PERIODIC, 1), (Fd.CLK_SRC_ACT, 1)] ++ l)
  { s with ing := { s.ing with polDone := true } }

/-- Stream time running at a stamp. -/
def running (next : Tick) (l : List (Fld × Nat)) : State :=
  let s := ing ([(Fd.SYS_ST_STATUS_RUN, 1), (Fd.ING_SR_STATUS_LEMC_SET, 1), (Fd.SYS_ST_STATUS_SYSREF_OK, 1)] ++ l)
  { s with sys := { s.sys with counting := true, next := next } }

theorem wit_arm_refused : (running 0 []).run = true ∧
    does .epochArm (running 0 []) (fun t => evs t == [0x11] && !t.sys.armed) = true := by decide +kernel
theorem wit_arm_taken : (up []).run = false ∧ (up []).sys.committed = none ∧
    does .epochArm (up []) (fun t => t.sys.armed && evs t == []) = true := by decide +kernel
theorem wit_stop : (running 0 []).sys.counting = true ∧
    does .epochStop (running 0 []) (fun t => t.sys.stopReq) = true := by decide +kernel
theorem wit_broadcast : (up [(Fd.BYO_STATUS_ROOT, 1)]).on Fd.BYO_STATUS_ROOT = true ∧ (up [(Fd.BYO_STATUS_ROOT, 1)]).run = false ∧
    does .epochBroadcast (up [(Fd.BYO_STATUS_ROOT, 1)]) (fun t => t.sys.armWait == 1 && t.sys.msgDue) = true := by decide +kernel

/-- Ingest with an armed epoch. -/
def armed : State := let s := ing [(Fd.SYS_EPOCH_LO, 77)]; { s with sys := { s.sys with armed := true } }

theorem wit_capture : armed.ingEn = true ∧ armed.ing.polDone = true ∧ armed.on (Fd.PLL_STATUS_LOCK 1) = true ∧
    armed.on Fd.ING_SR_STATUS_LEMC_SET = false ∧ armed.run = false ∧ armed.sys.committed = none ∧
    armed.get Fd.CLK_SRC_ACT ≠ 0 ∧ armed.sys.armWait = 0 ∧
    does .sysrefCapture armed (fun t => t.sys.committed == some 77#64 && t.get Fd.ING_SR_STATUS_LEMC_SET == 1) = true := by
  decide +kernel
theorem wit_capture_off_grid : (running 4096 []).sys.counting = true ∧
    ((running 4096 []).ing.iclk + 2) % embClocks (running 4096 []) ≠ (running 4096 []).ing.lemc % embClocks (running 4096 []) ∧
    does .sysrefCapture (running 4096 []) (fun t => t.get Fd.SYS_ST_STATUS_ALIGN_ERR == 1 && evs t == [0x15]) = true := by
  decide +kernel
theorem wit_fabric_loaded : (ing [(Fd.SYS_ST_STATUS_SYSREF_OK, 1)]).on Fd.SYS_ST_STATUS_SYSREF_OK = true ∧
    (ing [(Fd.SYS_ST_STATUS_SYSREF_OK, 1)]).run = false ∧
    does (.fabricEpochMessage 5 3 0) (ing [(Fd.SYS_ST_STATUS_SYSREF_OK, 1)]) (fun t => t.sys.armValue == some 5#64) = true := by
  decide +kernel
theorem wit_fabric_compared : (running 0 []).run = true ∧ (running 0 []).get Fd.CLK_SRC_ACT ≠ 0 ∧
    tadd 5 (0 * sysrefTicks (running 0 [])) ≠ tadd (running 0 []).ing.lastMark (sysrefTicks (running 0 [])) ∧
    tadd 0 (1 * sysrefTicks (running 0 [])) = tadd (running 0 []).ing.lastMark (sysrefTicks (running 0 [])) ∧
    does (.fabricEpochMessage 5 3 0) (running 0 []) (fun t => evs t == [0x13]) = true ∧
    does (.fabricEpochMessage 0 3 1) (running 0 []) (fun t => evs t == [0x12]) = true := by decide +kernel
theorem wit_sysref_lost : (ing []).on Fd.ING_SR_CFG_PERIODIC = true ∧
    does .periodicSysrefLost (ing []) (fun t => evs t == [0x14]) = true := by decide +kernel

/-- A committed epoch. -/
def committed : State := { ing [] with sys := { State.reset.sys with committed := some 64, commitSrc := 1 } }

theorem wit_applied : committed.sys.committed = some 64 ∧ committed.run = false ∧
    committed.on Fd.CFG_STATUS_STANDBY_ACT = false ∧
    does .epochApplied committed (fun t => t.sys.next == 64 && t.run && t.sys.counting && evs t == [0x10] &&
      t.get Fd.SYS_ST_STATUS_EPOCH_SRC == 1 && t.sys.base == 64 && t.sys.committed == none) = true := by decide +kernel

/-- Units draining after a stop. -/
def draining : State := { ing [(Fd.SYS_ST_STATUS_RUN, 1)] with sys := { State.reset.sys with draining := true, armAfterStop := true } }

theorem wit_stopped : draining.sys.draining = true ∧ draining.scr.pb = none ∧ drained draining = true ∧
    does .streamTimeStopped draining (fun t => !t.run && t.sys.armed) = true := by decide +kernel

theorem wit_hold : does (.holdWrite true) (up []) (fun t => t.get Fd.SYS_LAND_CTRL_HOLD == 1) = true := by decide +kernel

/-- Stream time at a decision point with one change pending. -/
def deciding (hold : Nat) : State :=
  let s := running (65536 - 1024) [(Fd.SYS_LAND_CTRL_HOLD, hold)]
  { s with sys := { s.sys with pend := [⟨0, .field, 0x50000, 0, 1, 1, false⟩] } }

theorem wit_decision : (deciding 0).sys.counting = true ∧ (deciding 0).sys.decided = none ∧
    nextDecision (deciding 0) = (deciding 0).sys.next ∧
    does .decisionPoint (deciding 0) (fun t => t.sys.pend.all (fun e => e.taken) && t.sys.decided == some 65536) = true ∧
    does .decisionPoint (deciding 1) (fun t => t.sys.pend.all (fun e => !e.taken)) = true := by decide +kernel

/-- Stream time at a landing with one change of SYS.LANDING_CFG taken. -/
def landingDue : State :=
  let s := running 65536 []
  { s with sys := { s.sys with decided := some 65536, pend := [⟨0, .field, 0x118, 0, 5, 12, true⟩] } }

theorem wit_landing : landingDue.sys.counting = true ∧ landingDue.sys.decided = some landingDue.sys.next ∧
    landingDue.sys.stopTaken = false ∧ playbackEndsAt landingDue.sys.next landingDue = none ∧
    does (.landing none) landingDue (fun t => t.get Fd.SYS_LANDING_CFG_K == 12 && !t.sys.fresh && t.sys.pend == [] &&
      t.get Fd.SYS_LAND_CTRL_COUNT == 0 && evs t == [0x17]) = true := by decide +kernel
theorem wit_land_entry : (⟨0, .field, 0x118, 0, 5, 12, true⟩ : PendEntry).kind = .field ∧
    (⟨0, .field, 0x118, 0, 5, 12, true⟩ : PendEntry).lo + (⟨0, .field, 0x118, 0, 5, 12, true⟩ : PendEntry).width ≤ 32 := by
  decide +kernel

/-! ### Power, pins, housekeeping -/

/-- A state with another power part. -/
def pw (l : List (Fld × Nat)) (f : PwrSt → PwrSt) : State := { up l with pwr := f (up l).pwr }

theorem wit_accept : (up []).pwr.accepted = false ∧ (up []).on Fd.PWR_STATUS_MOD_EN = false ∧
    does .vinAccepted (up []) (fun t => t.pwr.accepted && t.on Fd.PWR_STATUS_AUX_ON) = true ∧
    does .vinLow (up []) (fun t => evs t == [0x1204]) = true := by decide +kernel
theorem wit_overvoltage : (up []).pwr.accum = 0 ∧ (pw [] fun p => { p with accum := 5 }).pwr.accum ≠ 0 ∧
    does .vinOvervoltage (up []) (fun t => evs t == [0x1201]) = true ∧
    does (.vinBelow61V 97) (pw [] fun p => { p with accum := 5 }) (fun t => t.pwr.accum == 100 && t.get Fd.PWR_OV_ACCUM == 100) = true ∧
    (up []).on Fd.PWR_STATUS_OV_ACTIVE = false ∧
    does .ovAccumClear (pw [] fun p => { p with accum := 5 }) (fun t => t.pwr.accum == 0) = true := by decide +kernel
theorem wit_power_off : (pw [(Fd.PWR_STATUS_OV_ACTIVE, 1)] id).on Fd.PWR_STATUS_OV_ACTIVE = true ∧
    does .vinPowerLoss (running 0 [(Fd.CLK_STATUS_OCXO_RDY, 1)]) (fun t => !t.run && !t.on Fd.PWR_STATUS_PGOOD &&
      !t.on Fd.CLK_STATUS_OCXO_RDY && !t.pwr.accepted) = true ∧
    does .ovDisconnect (pw [(Fd.PWR_STATUS_OV_ACTIVE, 1)] id) (fun t => t.pwr.latched && t.pwr.accum == 100 &&
      !t.on Fd.PWR_STATUS_PGOOD) = true := by decide +kernel
theorem wit_rise : (pw [] fun p => { p with accepted := true }).pwr.rails = false ∧
    (pw [] fun p => { p with accepted := true }).pwr.latched = false ∧
    does (.modEnRise 0) (pw [] fun p => { p with accepted := true, disc := true }) (fun t => t.pwr.rails &&
      t.get Fd.CFG_LAST_RESET_CAUSE == 2 && t.on Fd.PWR_STATUS_AUX_ON) = true := by decide +kernel
theorem wit_shutdown : (pw [] fun p => { p with rails := true }).pwr.shut = none ∧
    (pw [] fun p => { p with rails := true }).pwr.rails = true ∧
    does .modEnFall (pw [] fun p => { p with rails := true }) (fun t => t.pwr.shut == some 0) = true := by
  decide +kernel
theorem wit_shutdown_ov : (pw [(Fd.PWR_STATUS_OV_ACTIVE, 1)] id).pwr.accum < 80 ∧ (pw [(Fd.PWR_STATUS_OV_ACTIVE, 1)] id).pwr.shut = none ∧
    does .ovShutdown (pw [(Fd.PWR_STATUS_OV_ACTIVE, 1)] id) (fun t => t.pwr.shut == some 3) = true := by
  decide +kernel
theorem wit_phase : phaseFailed (up []) 5 = false ∧
    (railPhases (railOf (5 : Fin 40).val)).2.2 < phasesLeft (up []) (railOf (5 : Fin 40).val) ∧
    does (.phaseFail 5 0) (up []) (fun t => phaseFailed t 5 && evs t == [0x1220]) = true := by decide +kernel
theorem wit_phase_short : phaseFailed (up [(Fd.PWR_PHASE_FAIL_LO, 2)]) 0 = false ∧
    phasesLeft (up [(Fd.PWR_PHASE_FAIL_LO, 2)]) (railOf (0 : Fin 40).val) ≤ (railPhases (railOf (0 : Fin 40).val)).2.2 ∧
    railOf (0 : Fin 40).val ≠ 1 ∧
    does (.phaseFail 0 0) (up [(Fd.PWR_PHASE_FAIL_LO, 2)]) (fun t => t.pwr.shut == some 1) = true := by
  decide +kernel
theorem wit_regulation : does (.railLeavesRegulation 3) (up [(Fd.PWR_STATUS_PGOOD, 1)]) (fun t => !t.on Fd.PWR_STATUS_PGOOD) = true := by
  decide +kernel

theorem wit_trip : (up []).onBit (pinBit (37 : Fin 38).val).1 (pinBit (37 : Fin 38).val).2 = false ∧
    does (.pinTrip 37) (up [(Fd.PWR_STATUS_AUX_ON, 1)]) (fun t => t.get Fd.PWR_SHORT == 32 && evs t == [0x1210] &&
      !t.on Fd.PWR_STATUS_AUX_ON && t.pwr.hiz == [37]) = true := by decide +kernel
theorem wit_retry : (up [(Fd.PWR_RETRY_CFG_LATCH, 0)]).on Fd.PWR_RETRY_CFG_LATCH = false ∧
    (3 : Fin 38).val ∈ (pw [(Fd.PWR_RETRY_CFG_LATCH, 0)] fun p => { p with hiz := [3] }).pwr.hiz ∧
    does (.pinRetry 3) (pw [(Fd.PWR_RETRY_CFG_LATCH, 0)] fun p => { p with hiz := [3] }) (fun t => t.pwr.hiz == [] && t.pwr.watch == [3]) = true ∧
    (3 : Fin 38).val ∈ (pw [] fun p => { p with watch := [3] }).pwr.watch ∧
    does (.pinHeld 3) (pw [] fun p => { p with watch := [3] }) (fun t => t.pwr.watch == [] && evs t == [0x1211]) = true := by decide +kernel
theorem wit_short_clear :
    does (.pinShortClear true 3#32) (up [(Fd.PWR_PAT_SHORT, 6)]) (fun t => t.get Fd.PWR_PAT_SHORT == 4) = true ∧
    does (.pinShortClear false 3#32) (up [(Fd.PWR_SHORT, 6)]) (fun t => t.get Fd.PWR_SHORT == 4) = true := by decide +kernel
theorem wit_sense : (up [(Fd.PWR_STATUS_SNS_LOCAL, 1)]).on Fd.PWR_STATUS_SNS_LOCAL = true ∧
    does (.senseCheck true true) (up []) (fun t => evs t == [0x1230, 0x1230]) = true ∧
    does (.senseCheck false false) (up [(Fd.PWR_STATUS_SNS_LOCAL, 1)]) (fun t => evs t == [0x1231]) = true := by decide +kernel

/-- A state with another housekeeping part. -/
def hks (l : List (Fld × Nat)) (f : HkSt → HkSt) : State := { up l with hk := f (up l).hk }

theorem wit_ref : (hks [] fun h => { h with refCount := true }).hk.refCount = true ∧
    (up [(Fd.HK_CTRL_REF_EN, 1)]).on Fd.HK_CTRL_REF_EN = true ∧ (up []).on Fd.HK_CTRL_REF_EN = false ∧
    Fd.HK_CTRL_REF_EN.get (2#32).toNat = 1 ∧ Fd.HK_CTRL_REF_EN.get (0#32).toNat = 0 ∧
    does (.registerWrite 0x120100#26 (le 4 2)) (up []) (fun t => t.hk.refCount && t.on Fd.HK_CTRL_REF_EN) = true ∧
    does (.registerWrite 0x120100#26 (le 4 2)) (up [(Fd.HK_CTRL_REF_EN, 1), (Fd.HK_CTRL_REF_RDY, 1)]) (fun t =>
      !t.hk.refCount && t.on Fd.HK_CTRL_REF_RDY) = true ∧
    does (.registerWrite 0x120100#26 (le 4 0)) (up [(Fd.HK_CTRL_REF_EN, 1), (Fd.HK_CTRL_REF_RDY, 1)]) (fun t =>
      !t.hk.refCount && !t.on Fd.HK_CTRL_REF_RDY) = true := by decide +kernel

/-- Housekeeping running with slot 4 on the timer and slot 2 on an edge. -/
def slots : List (Fld × Nat) := [(Fd.HK_CTRL_RUN, 1), (Fd.HK_SLOT_EN 4, 1), (Fd.HK_SLOT_EN 2, 1), (Fd.HK_SLOT_TRIG 2, 1)]

theorem wit_scan : (up slots).on Fd.HK_CTRL_RUN = true ∧ (hks slots fun h => { h with scan := [4] }).hk.scan ≠ [] ∧
    (up slots).hk.scan = [] ∧ (up slots).hk.busy = none ∧
    (List.range 24).filter (fun n => (up slots).on (Fd.HK_SLOT_EN n) && !(up slots).on (Fd.HK_SLOT_TRIG n)) = [4] ∧
    does (.hkTimerScan false) (up slots) (fun t => t.hk.busy == some 4) = true ∧
    does (.hkTimerScan false) (hks slots fun h => { h with scan := [4] }) (fun t => t.get Fd.HK_COUNTS_TSKIP == 1) = true := by
  decide +kernel
theorem wit_pwm : (up slots).on (Fd.HK_SLOT_EN 2) = true ∧ (up slots).on (Fd.HK_SLOT_TRIG 2) = true ∧ (up slots).hk.sets = [] ∧
    (hks slots fun h => { h with busy := some 4 }).hk.busy.isSome = true ∧
    does (.hkPwmConversion 2) (up slots) (fun t => t.hk.busy == some 2) = true ∧
    does (.hkPwmConversion 2) (hks slots fun h => { h with busy := some 4 }) (fun t => t.get Fd.HK_COUNTS_PSKIP == 1) = true := by
  decide +kernel

/-- A set of two conversions of channel 9, one done with code 100. -/
def oneDone : HkSet := ⟨BitVec.ofNat 32 (9 * 2 ^ 24 + 1 * 2 ^ 14), 100, 1, false⟩

theorem wit_result : (hks slots fun h => { h with busy := some 2, sets := [(2, oneDone)] }).hk.busy = some 2 ∧
    2 ^ bits oneDone.cfg.toNat 14 4 ≤ oneDone.done + 1 ∧
    does (.hkConversionEnd 103#12 false) (hks slots fun h => { h with busy := some 2, sets := [(2, oneDone)] }) (fun t =>
      t.get (Fd.HK_RES_VALUE 2) == 101 && t.get (Fd.HK_RES_CH 2) == 9 && t.get (Fd.HK_RES_SEQ 2) == 1) = true ∧
    does .countClear (up [(Fd.HK_COUNTS_TSKIP, 3)]) (fun t => t.rd 0x120108 == 0) = true := by decide +kernel

/-! ### Ingest and Assayer -/

/-- Another ingest part. -/
def ingP (s : State) (f : IngSt → IngSt) : State := { s with ing := f s.ing }

theorem wit_ingest : (up [(Fd.ING_CTRL_CH_EN, 5)]).ingEn = false ∧ (ing []).ingEn = true ∧
    (ingP (ing []) fun i => { i with polDone := false }).ing.polDone = false ∧
    does .ingEnable (up [(Fd.ING_CTRL_CH_EN, 5)]) (fun t => t.lane 0 == 1 && t.lane 16 == 0 && t.lane 47 == 1 && t.chan 2 == 1 &&
      t.chan 3 == 0) = true ∧
    does (.sysrefPolarityDecision 2049) (ingP (ing []) fun i => { i with polDone := false }) (fun t => evs t == [0x207]) = true ∧
    does (.sysrefPolarityDecision 2048) (ingP (ing []) fun i => { i with polDone := false }) (fun t => evs t == []) = true ∧
    does .ingDisable (running 0 [(Fd.ING_CTRL_CH_EN, 5)]) (fun t => t.lane 0 == 0 && t.chan 0 == 1 && t.chan 1 == 0) = true := by
  decide +kernel

theorem wit_scan_edge : (ing []).on Fd.ING_SR_CFG_PERIODIC = true ∧ (ing []).run = false ∧ (up []).ingEn = false ∧
    (ing [(Fd.ING_SR_PHASE_SCANNING, 1)]).on Fd.ING_SR_PHASE_SCANNING = true ∧
    ((5 : Fin 256).val + 256 - (250 : Fin 256).val) % 256 < 16 ∧
    does .srScan (ing []) (fun t => t.on Fd.ING_SR_PHASE_SCANNING) = true ∧ does .srScan (up []) (fun t => evs t == [0x206]) = true ∧
    does (.srScanEnd (some (250, 5))) (ing [(Fd.ING_SR_PHASE_SCANNING, 1)]) (fun t => t.get Fd.ING_SR_PHASE_EDGE == 255 &&
      t.get Fd.ING_SR_PHASE_PHASE == 127 && evs t == [0x205]) = true ∧
    does (.srScanEnd none) (ing [(Fd.ING_SR_PHASE_SCANNING, 1)]) (fun t => evs t == [0x206]) = true ∧
    does .srPhaseStep (ing [(Fd.ING_SR_PHASE_PHASE, 9)]) (fun t => t.ing.capPhase == 1) = true := by decide +kernel

/-- Ingest with one lane in a state. -/
def laneIs (l v : Nat) (more : List (Fld × Nat)) : State := ing ([(laneFld l, v), (Fd.ING_SR_STATUS_LEMC_SET, 1)] ++ more)

theorem wit_lanes : (laneIs 9 1 []).lane (9 : Fin 64).val = 1 ∧ (laneIs 40 2 []).lane (40 : Fin 64).val = 2 ∧
    (laneIs 3 5 []).lane (3 : Fin 64).val = 5 ∧ 1 ≤ (laneIs 3 3 []).lane (3 : Fin 64).val ∧ (laneIs 3 3 []).lane (3 : Fin 64).val ≤ 3 ∧
    does (.laneSyncHeaderLock 9) (laneIs 9 1 []) (fun t => t.lane 9 == 2) = true ∧
    does (.lanePilotFound 40 true 100) (laneIs 40 2 []) (fun t => t.lane 40 == 3 && t.get Fd.ING_POL_INV_HI == 256 &&
      evs t == [0x20B]) = true ∧
    does (.laneFaultRecovery 3) (laneIs 3 5 []) (fun t => t.lane 3 == 1) = true ∧
    does (.laneLockLost 3) (laneIs 3 3 []) (fun t => t.lane 3 == 1) = true := by decide +kernel
theorem wit_lane_join : (laneIs 3 3 [(Fd.ING_RBD, 400)]).on Fd.ING_SR_STATUS_LEMC_SET = true ∧
    (laneIs 3 3 [(Fd.ING_RBD, 400)]).lane (3 : Fin 64).val = 3 ∧ arrivalFits (laneIs 3 3 [(Fd.ING_RBD, 400)]) 1000 = true ∧
    does (.laneJoin 3 1000) (laneIs 3 3 [(Fd.ING_RBD, 400)]) (fun t => t.lane 3 == 4) = true := by decide +kernel
theorem wit_lane_fault : (laneIs 17 4 [(chanFld 1, 3)]).lane (17 : Fin 64).val = 4 ∧
    (laneIs 17 4 [(chanFld 1, 3)]).chan ((17 : Fin 64).val / 16) = 3 ∧ (laneIs 17 4 [(chanFld 1, 2)]).chan ((17 : Fin 64).val / 16) ≠ 3 ∧
    does (.laneFault [(17, 2)]) (laneIs 17 4 [(chanFld 1, 3)]) (fun t => t.lane 17 == 5 && evs t == [0x201]) = true ∧
    does (.laneFault [(17, 2)]) (laneIs 17 4 [(chanFld 1, 2)]) (fun t => t.lane 17 == 5 && evs t == [0x201, 0x202] && t.chan 1 == 3) =
      true := by decide +kernel

/-- Channel 0 enabled in mode 7 (four lanes), all in EMBLOCK with arrivals measured. -/
def locked : State :=
  ingP (ing [(Fd.ING_CTRL_CH_EN, 1), (Fd.ING_MODE, 7), (chanFld 0, 1), (laneFld 0, 3), (laneFld 1, 3), (laneFld 2, 3), (laneFld 3, 3)])
    fun i => { i with autoDue := true, arr := [(0, 100), (1, 120), (2, 110), (3, 90)] }

theorem wit_rbd : locked.ingEn = true ∧ locked.ing.autoDue = true ∧ (enabledChans locked).all (chanLocked locked) = true ∧
    ((enabledChans locked).filter (chanLocked locked)).isEmpty = false ∧
    (enabledChans locked).flatMap (fun c => (usedLanes locked c).filterMap
      (fun l => (locked.ing.arr.find? (fun e => e.1 == l)).map Prod.snd)) = [100, 120, 110, 90] ∧
    minN? [100, 120, 110, 90] = some 90 ∧ maxL [100, 120, 110, 90] + locked.im.hold ≤ 90 + locked.im.cap - 32 ∧
    does .autoRbd locked (fun t => t.get Fd.ING_RBD == (120 + 1056 + 192 + 15) / 16) = true ∧
    does .autoRbdTimeout locked (fun t => t.get Fd.ING_RBD == (120 + 1056 + 192 + 15) / 16) = true := by decide +kernel
theorem wit_multiblock : (laneIs 17 4 []).lane (17 : Fin 64).val = 4 ∧ look [] (laneIs 17 4 []).ing.mbFlagged (17 : Fin 64).val = [] ∧
    (running 0 [(laneFld 17, 4), (Fd.ING_CRC_LIMIT, 2)]).sys.counting = true ∧
    (running 0 [(laneFld 17, 4), (Fd.ING_CRC_LIMIT, 2)]).lane (17 : Fin 64).val = 4 ∧
    1 < (running 0 [(laneFld 17, 4), (Fd.ING_CRC_LIMIT, 2)]).get Fd.ING_CRC_LIMIT ∧
    does (.multiblock 17 3 true) (running 0 [(laneFld 17, 4), (Fd.ING_CRC_LIMIT, 2)]) (fun t => evs t == [0x20A] &&
      t.sys.spans.length == 1 && t.get (Fd.ING_ERR_CRC 1) == 1) = true := by decide +kernel
theorem wit_align_fail : locked.chan (0 : Fin 4).val ≠ 0 ∧ locked.chan (0 : Fin 4).val ≠ 2 ∧
    lanesIn locked (0 : Fin 4).val [3, 4] = true ∧ (usedLanes locked (0 : Fin 4).val).any (fun l => locked.lane l = 3) = true ∧
    does (.channelAlignFail 0) locked (fun t => t.chan 0 == 4 && evs t == [0x204]) = true ∧
    does .errClear (up [(Fd.ING_ERR_CRC 3, 7)]) (fun t => t.rd 0x3006C == 0) = true := by decide +kernel

/-- Assayer enabled with channel 2 UP. -/
def asyUp : State := up [(Fd.ASY_CTRL_EN, 1), (chanFld 2, 2)]

/-- The same with a run of channel 2 in a phase. -/
def asyIn (p : AsyPhase) : State :=
  let r : AsyRun := ⟨2, p, 0, true, 0, 0, 0, false, false, CoefSet.identity 1, [0, 0, 0, 0, 0], false, 0, 0, none⟩
  { asyUp with asy := { asyUp.asy with run := some r } }

theorem wit_assayer : asyUp.get Fd.ASY_STATUS_QUEUED = 0 ∧ asyUp.asy.run = none ∧ asyUp.asy.applying = [] ∧
    deferReason asyUp (2 : Fin 4).val = none ∧ asyUp.onBit Fd.ASY_STATUS_DEFERRED (2 : Fin 4).val = false ∧
    deferReason asyUp (1 : Fin 4).val = some 2 ∧ asyUp.asy.deferred = [] ∧
    does (.asyReq 4#4) asyUp (fun t => t.get Fd.ASY_STATUS_CH == 2 && t.asy.run.isSome) = true ∧
    does (.asyReq 2#4) asyUp (fun t => evs t == [0x304] && t.get Fd.ASY_STATUS_QUEUED == 2) = true ∧
    (asyIn .shadow).get Fd.ASY_STATUS_QUEUED = 0 ∧
    does .asyAbort (asyIn .shadow) (fun t => t.asy.run.isNone && evs t == [0x308]) = true ∧
    does .asyAbort (asyIn .cover) (fun t => t.asy.run.any (fun r => r.abort == some 1)) = true := by decide +kernel

/-- The same in COVER with a window of one flagged sample. -/
def asyFlagged : State :=
  let s := (asyIn .cover).set Fd.ASY_CFG_WIN 0
  { s with dsp := { s.dsp with streams := [(2, [⟨0, 1, 0, 4, 0⟩])] } }

theorem wit_assayer_window : asyFlagged.asy.run.any (fun r => r.phase == .cover && !r.done && r.abort.isNone && decide (r.repeats < 4) &&
      decide (2 ^ asyFlagged.get Fd.ASY_CFG_WIN ≤ (windowOf (asyFlagged.stream r.ch) r.win (2 ^ asyFlagged.get Fd.ASY_CFG_WIN)).length) &&
      (windowOf (asyFlagged.stream r.ch) r.win (2 ^ asyFlagged.get Fd.ASY_CFG_WIN)).foldl (fun a x => Nat.lor a x.fl) 0 % 64 != 0) = true ∧
    does (.estimationIteration []) asyFlagged (fun t => evs t == [0x307, 0x307, 0x307, 0x307, 0x307] &&
      t.asy.run.any (fun r => r.repeats == 1) && t.get (Fd.ASY_RESULT_CODES 2) == 0x44444) = true := by decide +kernel

theorem wit_assayer_flash : ({ asyUp with asy := { asyUp.asy with toFlash := [⟨2, 5, CoefSet.identity 1, CoefSet.identity 1, 64, 0, 0, 0⟩] } } :
    State).asy.toFlash ≠ [] ∧
    does .asyFlashRecordWrite { asyUp with asy := { asyUp.asy with toFlash := [⟨2, 5, CoefSet.identity 1, CoefSet.identity 1, 64, 0, 0, 0⟩] } }
      (fun t => evs t == [0x30B] && t.asy.toFlash.isEmpty && !t.flash.isEmpty) = true := by decide +kernel

/-! ### Memory -/

/-- Another memory part. -/
def hbmP (s : State) (f : HbmSt → HbmSt) : State := { s with hbm := f s.hbm }

theorem wit_bar2 : ([1#8, 2#8] : List Byte).length ≤ 2 ^ 28 - (0x3F#28).toNat ∧
    bar2At (0x3F#28).toNat (up [(⟨0xE0050, 0, 32⟩, 0x10000000)]) + 2 ≤ 0x17FE000000 ∧ (2#12).toNat ≤ 2 ^ 28 - (0x3F#28).toNat ∧
    does (.bar2Access 0x3F#28 (some [1#8, 2#8]) 0#12) (up [(⟨0xE0050, 0, 32⟩, 0x10000000)]) (fun t =>
      t.mem == [(0x1000003F, 1#8), (0x10000040, 2#8)]) = true ∧
    does (.bar2Access 0x3F#28 none 2#12) { up [(⟨0xE0050, 0, 32⟩, 0x10000000)] with mem := [(0x1000003F, 1#8), (0x10000040, 2#8)] }
      (fun t => t.hif.readData == [1#8, 2#8]) = true := by decide +kernel
theorem wit_memory : (up []).get Fd.HBM_STATUS_SR = 0 ∧ (4 : Fin 11).val < 10 ∧ (0x3F#48).toNat % 64 + 1 ≤ 64 ∧
    (0x3F#48).toNat + 1 ≤ 0x17FE000000 ∧ (0x17FFFFFFC0#48).toNat < 0x1800000000 ∧ regionOf (0x1800000000#48).toNat = .undecoded ∧
    does (.memoryRequest 4 0x3F#48 (some [7#8]) 0) (up []) (fun t => t.mem == [(63, 7#8)]) = true ∧
    does (.memoryRequest 4 0x40#48 none 1) (up []) (fun t => evs t == [0xF02]) = true ∧
    does (.memoryRequest 4 0x41#48 none 2) (up []) (fun t => evs t == [0xF03] && t.get Fd.HBM_UE_INFO_PORT == 4 &&
      t.rd64 0x100050 == 64) = true ∧
    does (.memoryRequest 10 0x1800000000#48 none 0) (up []) (fun t => evs t == [0xF01] && t.get Fd.HBM_ADDR_ERR == 1) = true := by
  decide +kernel
theorem wit_memory_asleep : (up [(Fd.HBM_STATUS_SR, 2)]).get Fd.HBM_STATUS_SR ≠ 0 ∧
    does (.memoryRequest 4 0x3F#48 none 0) (up [(Fd.HBM_STATUS_SR, 2)]) (fun t => t.hbm.waiting.length == 1 &&
      t.get Fd.HBM_STATUS_SR == 3) = true := by decide +kernel
theorem wit_refresh : (hbmP (up []) fun h => { h with owed := [(5, 7)] }).owed (5 : Fin 128).val < 8 ∧
    does (.refresh 5 true) (hbmP (up []) fun h => { h with owed := [(5, 7)] }) (fun t => t.owed 5 == 8) = true ∧
    does (.refresh 5 false) (hbmP (up []) fun h => { h with owed := [(5, 7)] }) (fun t => t.owed 5 == 0) = true := by decide +kernel
theorem wit_temperature : (up []).onBit Fd.HBM_STATUS_DBLREF (2 : Fin 4).val = false ∧ 850 ≤ sext 16 (850#16).toNat ∧
    sext 16 (849#16).toNat < 850 ∧
    does (.stackTempRead 2 960#16) (hbmP (up []) fun h => { h with owed := [(95, 3)] }) (fun t => evs t == [0xF05] &&
      t.get Fd.HBM_STATUS_TLIMIT == 4 && t.owed 95 == 0) = true ∧
    does (.stackTempRead 2 849#16) (up []) (fun t => evs t == []) = true := by decide +kernel
theorem wit_retraining : (up [(Fd.HBM_RETRAIN_EN, 1)]).on Fd.HBM_RETRAIN_EN = true ∧
    does (.retrainingPass [3, 9]) (up [(Fd.HBM_RETRAIN_EN, 1)]) (fun t => evs t == [0xF07, 0xF07]) = true := by decide +kernel

/-- Accesses of one busy pseudo-channel. -/
def busy : List Nat := (List.range 128).map (fun i => if i = 77 then 1000 else 1)

theorem wit_hot : busy.length = 128 ∧ 4 * sumL busy < 128 * maxL busy ∧
    (hbmP (up []) fun h => { h with hot := 999 }).hbm.hot = 999 ∧ (hbmP (up []) fun h => { h with hot := 999 }).hbm.hotDone = false ∧
    (hbmP (up [(Fd.HBM_CTRL_HOT_EN, 1)]) fun h => { h with hot := 999 }).on Fd.HBM_CTRL_HOT_EN = true ∧
    does (.hotWindow busy [0, 9, 3, 0, 0, 0, 0, 0, 0, 0]) (hbmP (up [(Fd.HBM_CTRL_HOT_EN, 1)]) fun h => { h with hot := 999 }) (fun t =>
      t.get Fd.HBM_HOT_PC == 77 && t.get Fd.HBM_HOT_PORT == 1 && evs t == [0xF04]) = true := by decide +kernel
theorem wit_self_refresh : (up [(Fd.HBM_SR_REQ, 1)]).on Fd.HBM_SR_REQ = true ∧ (up [(Fd.HBM_SR_REQ, 1)]).run = false ∧
    (up [(Fd.SYS_ST_STATUS_RUN, 1)]).run = true ∧ (up [(Fd.HBM_SCRUB_HOURS, 1)]).get Fd.HBM_SCRUB_HOURS ≠ 0 ∧
    does (.srReq true) (up [(Fd.SYS_ST_STATUS_RUN, 1)]) (fun t => evs t == [0xF0B]) = true ∧
    does (.srReq true) (up []) (fun t => t.on Fd.HBM_SR_REQ) = true ∧
    does .selfRefreshEntry (up [(Fd.HBM_SR_REQ, 1)]) (fun t => t.get Fd.HBM_STATUS_SR == 2 && evs t == [0xF08]) = true ∧
    does (.selfRefreshExit 250#16 9) (up [(Fd.HBM_STATUS_SR, 2)]) (fun t => t.get Fd.HBM_SR_LAT == 250 && evs t == [0xF09]) = true ∧
    does .scrubPass (up [(Fd.HBM_SCRUB_HOURS, 1)]) (fun t => evs t == [0xF0C]) = true := by decide +kernel

/-! ### The sample stream, actions, frames, triggers -/

/-- One beat of four silent channels. -/
def beat : List (List (Code16 × Code16)) := List.replicate 4 (List.replicate 16 (0, 0))

/-- Stream time running with the next landing decided. -/
def flowing (next : Tick) (l : List (Fld × Nat)) : State :=
  let s := running next l
  { s with sys := { s.sys with decided := some 65536 } }

theorem wit_beat : (ing []).sys.counting = false ∧ (ing []).ing.upDue = 0 ∧
    does (.beatRelease beat) (ing []) (fun t => t.ing.iclk == 1 && t.sys.next == 0) = true ∧
    (flowing 65520 []).sys.counting = true ∧ (flowing 65520 []).scr.pb = none ∧ (flowing 65520 []).ing.upDue = 0 ∧
    (flowing 65520 []).sys.decided = some 65536 ∧ (∀ k, k < 16 → tadd (flowing 65520 []).sys.next k ≠ 65536) ∧
    (∀ c, c < 4 → (flowing 65520 []).chan c = 0) ∧ (flowing 65520 []).dsp = DspSt.init ∧ (flowing 65520 []).trg.cmp = [] ∧
    (flowing 65520 []).past = [] ∧ (flowing 65520 []).get Fd.TRG_CTRL_EN = 0 ∧ (flowing 65520 []).hoop = [] ∧
    (flowing 65520 []).wvr = WvrSt.init ∧ engState (flowing 65520 []) 0 = 0 ∧ engState (flowing 65520 []) 1 = 0 ∧
    (flowing 65520 []).get Fd.SCR_STATUS_STATE ≠ 1 ∧
    does (.beatRelease beat) (flowing 65520 []) (fun t => t.sys.next == 65536 && t.rd64 0x100 == 65520) = true := by
  decide +kernel
theorem wit_release : (flowing 7 [(chanFld 2, 2)]).scr.pb = none ∧ (flowing 7 [(chanFld 2, 2)]).chan 2 = 2 ∧
    (flowing 7 [(chanFld 2, 2)]).chan 1 = 0 ∧ (flowing 7 [(chanFld 2, 3)]).chan 2 = 3 ∧
    ((flowing 7 [(chanFld 2, 3)]).ing.zeroFrom.find? (fun z => z.1 == 2)).any (fun z => tlt 7 z.2) = false ∧
    (releasedSample (flowing 7 [(chanFld 2, 3)]) 2 7 (5, 6)).any (fun x => x.i == 0 && x.fl == Df.ing) = true ∧
    ((releaseTo 2 ⟨7, 1, 0, 4, 0⟩ (flowing 7 [])).stream 2).length = 1 := by decide +kernel

/-- A full pending store. -/
def full : State :=
  let s := up []
  { s with sys := { s.sys with pend := List.replicate 4096 ⟨0, .field, 0x50000, 0, 1, 1, false⟩ } }

theorem wit_actions : actionOf (up []) (.force 7) = some (0x711C0, 9) ∧ actionOf (up [(Fd.TU_CTRL_ARMMODE 0, 0)]) (.arm 0) = some (0x71000, 8) ∧
    actionOf (up []) (.hoopArm 3) = some (0x81300, 9) ∧ actionOf (up []) (.denClear 1) = some (0x90100, 1) ∧
    actionOf (up []) (.tctrlClear 2 3) = some (0x609C0, 16) ∧
    (up []).sys.pend.length < 4096 ∧ (up []).sys.pend.any (fun p => p.same .action 0x711C0 9) = false ∧
    does (.force 7) (up []) (fun t => t.get Fd.SYS_LAND_CTRL_COUNT == 1 &&
      t.sys.pend.any (fun p => p.same .action 0x711C0 9) && (t.sys.pend.length == 1) &&
      does (.force 7) t (fun u => u.sys.pend.length == 1 && u.sys.arrivals == 2)) = true ∧
    actionOf full (.force 7) = some (0x711C0, 9) ∧ 4096 ≤ full.sys.pend.length ∧
    full.sys.pend.any (fun p => p.same .action 0x711C0 9) = false ∧
    does (.force 7) full (fun t => t.get Fd.SYS_LAND_CTRL_OVF == 1 && evs t == [0x16]) = true ∧
    (up [(Fd.TU_CTRL_ARMMODE 5, 1)]).on (Fd.TU_CTRL_ARMMODE (5 : Fin 8).val) = true := by decide +kernel

/-- A spectral channel with a frame of four samples to deliver, past a stop. -/
def framed : State :=
  let g : SpxSeg := ⟨0, 2, 0, 0, 0, 0, 1, 0, 0, [], 8, 0, none, some 9⟩
  let s := up []
  { s with spx := { s.spx with segs := [(1, [g])] }, dsp := { s.dsp with streams := [(5, [⟨8, 4000, 0, 0, 0⟩])] } }

/-- A window memory in use. -/
def windowed : State :=
  let g : SpxSeg := ⟨0, 2, 12, 0, 0, 0, 1, 0, 0, [], 8, 0, none, none⟩
  let s := up []
  { s with spx := { s.spx with segs := [(1, [g])] } }

theorem wit_frames : readyFrame framed (1 : Fin 4).val = some (⟨0, 2, 0, 0, 0, 0, 1, 0, 0, [], 8, 0, none, some 9⟩, 8) ∧
    framed.past = [] ∧ framed.spx.traces = [] ∧ (∀ k, k < 4 → framed.get (Fd.TR_TCTRL_EN (1 : Fin 4).val k) = 0) ∧
    framed.get Fd.TRG_CTRL_EN = 0 ∧ framed.hoop = [] ∧ framed.den = DenAll.init ∧
    framed.get (Fd.SG_CTRL_EN (1 : Fin 4).val) = 0 ∧
    does (.spxFrame 1) framed (fun t => (look [] t.spx.frames 1).map (fun f => (f.t, f.marks, f.bins.length)) == [(8, 2, 4)]) =
      true := by decide +kernel
theorem wit_data_ports : uwinInUse (up [(Fd.SPXG_UWIN_ADDR, 32768)]) = false ∧ uwinInUse windowed = true ∧
    does (.uwinData (some 0xFFFFFFFF#32)) (up [(Fd.SPXG_UWIN_ADDR, 32768)]) (fun t => t.get Fd.SPXG_UWIN_ADDR == 0 &&
      (Assoc.get 0#32 t.spx.uwin 32768).toNat == 0xFFFFF) = true ∧
    does (.uwinData (some 1)) windowed (fun t => evs t == [0x506] && t.get Fd.SPXG_UWIN_ADDR == 1) = true ∧
    bankInUse (up [(Fd.TRG_MASK_ADDR, 32767)]) (32767 / 8192) (32767 / 4096 % 2) = false ∧
    bankInUse (up [(Fd.TRG_MASK_ADDR, 32767), (Fd.MASK_CTRL_EN 3, 1), (Fd.MASK_CTRL_BANK 3, 1)]) (32767 / 8192) (32767 / 4096 % 2) =
      true ∧
    does (.maskData (some 9)) (up [(Fd.TRG_MASK_ADDR, 32767)]) (fun t => t.get Fd.TRG_MASK_ADDR == 0 &&
      t.get Fd.TRG_MASK_DATA == 0x7FFF8000 && Assoc.get 0#32 t.trg.mask 32767 == 9) = true ∧
    does (.maskData (some 9)) (up [(Fd.TRG_MASK_ADDR, 32767), (Fd.MASK_CTRL_EN 3, 1), (Fd.MASK_CTRL_BANK 3, 1)])
      (fun t => evs t == [0x608]) = true := by decide +kernel

/-- Triggering enabled while stream time runs. -/
def trg (l : List (Fld × Nat)) : State := flowing 100 ([(Fd.TRG_CTRL_EN, 1)] ++ l)

/-- A log of two slots whose one free slot is open or not. -/
def logging (rd : Nat) : State :=
  trg [(Fd.TU_CTRL_EN 0, 1), (Fd.TU_SRC_A 0, 0x19), (Fd.TRG_XLOG_SIZE, 2), (Fd.TRG_XLOG_WR, 1), (Fd.TRG_XLOG_RD, rd)]

theorem wit_trigger_inputs : (look TinSt.empty (trg []).trg.tins (2 : Fin 4).val).level ≠ true ∧ (trg []).sys.counting = true ∧
    (trg []).on Fd.TRG_XLOG_STATUS_PLAYBACK = false ∧
    srcOn (trg [(Fd.TIN_CFG_EN 2, 1)]) (0x19 + 2) (tadd (trg []).sys.next 15) = true ∧
    (trg [(Fd.TIN_CFG_EN 2, 1)]).get (Fd.TIN_CFG_EDGE 2) = 0 ∧
    (look TinSt.empty (trg []).trg.tins 2).lastEv = none ∧ srcSelected (trg [(Fd.TIN_CFG_EN 2, 1)]) (0x19 + 2) = false ∧
    does (.trigInEdge 2 true 15) (trg [(Fd.TIN_CFG_EN 2, 1), (Fd.TIN_OFF 2, 2 ^ 32 - 3)]) (fun t =>
      (t.src 0x1B).evs.map (fun e => e.t) == [112]) = true ∧
    (up []).sys.counting = false ∧ does (.trigInEdge 2 true 15) (up []) (fun t => (t.src 0x1B).evs == []) = true ∧
    (look TinSt.empty (up []).trg.tins 2).level = false ∧
    srcOn (trg []) (0x25 + 15) (trg []).tRel = true ∧
    tle (fabHorizon (trg [(Fd.TRG_FAB_HZ, 90)])) 10 = true ∧ tle (fabHorizon (trg [(Fd.TRG_FAB_HZ, 90)])) 9 = false ∧
    srcSelected (trg []) (0x25 + 15) = false ∧ (trg []).sys.windows = [] ∧
    does (.fabricTriggerMessage 15 9 1) (trg [(Fd.TRG_FAB_HZ, 90)]) (fun t =>
      (t.src 0x34).evs.map (fun e => (e.t, e.late)) == [(10, true)] && evs t == [0x604]) = true ∧
    (logging 1).run = true ∧ srcSelected (logging 1) 0x19 = true ∧ 2 ≤ (logging 1).get Fd.TRG_XLOG_SIZE ∧
    ((logging 1).get Fd.TRG_XLOG_WR + 2 - (logging 1).get Fd.TRG_XLOG_RD) % 2 + 1 ≠ 2 ∧
    ((logging 0).get Fd.TRG_XLOG_WR + 2 - (logging 0).get Fd.TRG_XLOG_RD) % 2 + 1 = 2 ∧
    (xlog 0x19 ⟨5, 0, false, false, 0⟩ (logging 1)).get Fd.TRG_XLOG_WR = 0 ∧
    (xlog 0x19 ⟨5, 0, false, false, 0⟩ (logging 0)).get Fd.TRG_XLOG_STATUS_OVF = 1 := by decide +kernel

/-- A trigger unit as it stands in a state. -/
def unit (s : State) (n : Nat) (u : TuSt) : State := { s with trg := { s.trg with tus := [(n, u)] } }

/-- An armed unit that has handled through 50. -/
def armedTu : TuSt := ⟨.armed, some 50, none, 0, none, [], 0⟩

theorem wit_trigger_units : ((unit (trg []) 6 armedTu).tu 6).done = some 50 ∧ ((unit (trg []) 6 armedTu).tu 6).st ≠ .stalled ∧
    tuReported (unit (trg []) 6 armedTu) 6 51 = some 99 ∧ tle (tmin 60 (relPoint (trg []))) 50 = false ∧
    tle (tmin (tmin 60 (relPoint (trg []))) 99) 50 = false ∧ tuInstant (unit (trg []) 6 armedTu) 6 51 = none ∧
    does (.triggerUnitStep 6 60) (unit (trg []) 6 armedTu) (fun t => (t.tu 6).done == some 60) = true ∧
    tle (tmin 50 (relPoint (trg []))) 50 = true ∧
    ((unit (trg [(Fd.TU_COUNT 6, 2)]) 6 armedTu).tu 6).count + 1 < (unit (trg [(Fd.TU_COUNT 6, 2)]) 6 armedTu).getAt 55 (Fd.TU_COUNT 6) ∧
    2 ≤ (trg [(Fd.TRG_RING_SLOTS, 2), (Fd.TRG_WR, 1), (Fd.TRG_RD, 1)]).get Fd.TRG_RING_SLOTS ∧
    (trgRingWrite ⟨1, 5, 5, 0x19, 0, 0, 0, 3⟩ (trg [(Fd.TRG_RING_SLOTS, 2), (Fd.TRG_WR, 1), (Fd.TRG_RD, 1)])).get Fd.TRG_WR = 0 ∧
    (1 + 2 - 0) % 2 + 1 = 2 ∧
    (trgRingWrite ⟨1, 5, 5, 0x19, 0, 0, 0, 3⟩ (trg [(Fd.TRG_RING_SLOTS, 2), (Fd.TRG_WR, 1)])).get Fd.TRG_LOST = 1 ∧
    (trgRingWrite ⟨1, 5, 5, 0x19, 0, 0, 0, 3⟩ (trg [(Fd.TRG_RING_SLOTS, 2), (Fd.TRG_WR, 1)])).get Fd.TRG_RD = 1 := by
  decide +kernel

/-- A unit that waits on line 4 of a core that halts. -/
def onLine : State :=
  unit (trg [(Fd.TU_SRC_A 6, 0x39), (Fd.CYK_TLINE_EN 4, 1), (Fd.COR_STATUS_STATE 0, 3)]) 6 armedTu

/-- A pin with one pulse from 20 to 30. -/
def pulsing (started : Bool) : State :=
  let s := trg []
  { s with trg := { s.trg with touts := [(1, ⟨[(20, 30)], started, false⟩)] } }

theorem wit_trigger_outputs : tuWaitsOn onLine (6 : Fin 8).val = some 4 ∧ (onLine.tu 6).st ≠ .off ∧ (onLine.tu 6).st ≠ .stalled ∧
    does (.cykTimeout 6) onLine (fun t => evs t == [0x602] && (t.tu 6).st == .stalled && t.get (Fd.TU_STATUS_STATE 6) == 4) = true ∧
    ((pulsing false).tout 1).queue = [(20, 30)] ∧ ((pulsing false).tout 1).inPulse = false ∧ tle 20 (pulsing false).tRel = true ∧
    does (.trigOutEdge 1) (pulsing false) (fun t => (t.tout 1).inPulse && (t.tout 1).queue == [(20, 30)]) = true ∧
    ((pulsing true).tout 1).inPulse = true ∧ tle 30 (pulsing true).tRel = true ∧
    does (.trigOutEdge 1) (pulsing true) (fun t => !(t.tout 1).inPulse && (t.tout 1).queue == []) = true := by decide +kernel

/-! ### Hoop, density, Gallery -/

/-- A writer of channel 1's corrected stream as it stands over one delivered sample. -/
def hoopAt (f : HwSt → HwSt) : State :=
  let s := flowing 100 [(Fd.HW_SIZE 5, 2), (Fd.HW_NSEG 5, 1), (⟨0x81508, 0, 32⟩, 0x200000), (Fd.HW_CTRL_TUMASK 5, 1)]
  { s with dsp := { s.dsp with streams := [(5, [⟨40, 3, 0, 0, 0⟩])] }, hoop := [(5, f (HwSt.empty 5))] }

/-- A header that waits. -/
def header : HwHeader := ⟨0x300000, [1, 2, 3], 9, 40, 0, none, ⟨9, 0x300000, 0, 0, 0, 2, 0, 1, 40, 40, 0⟩⟩

theorem wit_hoop : ((hoopAt fun h => { h with st := .armed }).hw (5 : Fin 8).val).acts = [] ∧
    (nextElem (hoopAt fun h => { h with st := .armed }) 5).any (fun e => e.t == 40 && e.bytes == [3, 0]) = true ∧
    (unitsReported (hoopAt fun h => { h with st := .armed }) 5 40 || stagingFull (hoopAt fun h => { h with st := .armed }) 5) = true ∧
    mapped (hoopAt fun h => { h with st := .armed }) 5 0 40 = [] ∧ tlt 40 (HwSt.empty 5).start = false ∧
    (HwSt.empty 5).rec' = none ∧ (HwSt.empty 5).armEv = none ∧
    does (.elementCommit 5) (hoopAt fun h => { h with st := .armed, k := 2 ^ 20 + 1 }) (fun t => t.mem == [(0x200002, 3)] &&
      (t.hw 5).k == 2 ^ 20 + 2) = true ∧
    does (.elementCommit 5) (hoopAt id) (fun t => (t.hw 5).last == 40 && t.mem == []) = true ∧
    ((hoopAt fun h => { h with headers := [header] }).hw 5).headers = header :: [] ∧ header.fl = 0 ∧
    does (.recordHeaderWrite 5) (hoopAt fun h => { h with headers := [header] }) (fun t => evs t == [0x702] && t.mem.length == 3 &&
      t.get (Fd.HW_RECORDS 5) == 1) = true ∧
    ((hoopAt fun h => { h with st := .done }).hw 5).st = .done ∧
    does (.hoopGeometryWrite 5 1 0) (hoopAt id) (fun t => t.get (Fd.HW_SIZE 5) == 2) = true ∧
    does (.hoopGeometryWrite 5 1 6) (hoopAt fun h => { h with st := .armed }) (fun t => t.get (Fd.HW_PSIZE 5) == 6 &&
      t.get (Fd.HW_SIZE 5) == 2 && t.get (Fd.HW_STATUS_PENDING 5) == 1) = true := by decide +kernel

/-- A density channel with three counters whose next pass, at 16, is due. -/
def den (l : List (Fld × Nat)) (f : DenSt → DenSt) : State :=
  let s := flowing 100 l
  { s with den := { s.den with ch := [(2, f { DenSt.empty with plane := [(0, 1), (5, 7), (4194303, 65535)], on := [(0, true)], plog := 4 })] } }

theorem wit_density : nextPass ((den [] id).denCh (2 : Fin 4).val) ((den [] id).denCh 2).cur = 16 ∧
    ((den [] id).sys.counting || (den [] id).sys.draining) = true ∧ tle (16 - 1) (framesThrough (den [] id) 2) = true ∧
    tle 16 (den [] id).tRel = true ∧ (den [] id).past = [] ∧ ((den [] id).denCh 2).walk = none ∧
    denOn ((den [] id).denCh 2) (16 - 1) = true ∧ ((den [] id).denCh 2).restarts = [] ∧
    (den [(Fd.DEN_PASS_SNAPDIV 2, 0)] id).get (Fd.DEN_PASS_SNAPDIV 2) = 0 ∧ (den [(Fd.DEN_DMUL 2, 65535)] id).get (Fd.DEN_DMUL 2) < 65536 ∧
    does (.densityPass 2) (den [(Fd.DEN_PASS_SNAPDIV 2, 0), (Fd.DEN_DMUL 2, 32768)] id) (fun t => (t.denCh 2).plane == [(5, 3), (4194303, 32767)] &&
      (t.denCh 2).walk == some none) = true ∧
    (den [(Fd.DEN_PASS_SNAPDIV 2, 1), (Fd.DEN_DMUL 2, 65536)] id).get (Fd.DEN_PASS_SNAPDIV 2) ≠ 0 ∧
    (16 : Tick).toNat / 2 ^ passLog ((den [] id).denCh 2) 16 %
      (den [(Fd.DEN_PASS_SNAPDIV 2, 1), (Fd.DEN_DMUL 2, 65536)] id).get (Fd.DEN_PASS_SNAPDIV 2) = 0 ∧
    (den [(Fd.DEN_PASS_SNAPDIV 2, 1), (Fd.DEN_DMUL 2, 65536)] id).get (Fd.DEN_DMUL 2) = 65536 ∧
    (∀ e ∈ ((den [] id).denCh 2).plane, e.1 < 2 ^ 22) ∧
    does (.densityPass 2) (den [(Fd.DEN_PASS_SNAPDIV 2, 1), (Fd.DEN_DMUL 2, 65536)] id) (fun t =>
      t.get (Fd.DEN_SNAP_SEQ 2) == 1 && (t.denCh 2).walk == some (some 16) && t.mem ==
        [(0x010007000000, 1), (0x01000700000A, 7), (0x0100077FFFFE, 255), (0x0100077FFFFF, 255)]) = true ∧
    denOn ((den [] fun d => { d with on := [(16, true)] }).denCh 2) (16 - 1) = false ∧
    does (.densityPass 2) (den [] fun d => { d with on := [(16, true)] }) (fun t => (t.denCh 2).cur == 16) = true ∧
    ((den [] fun d => { d with walk := some (some 16) }).denCh 2).walk = some (some 16) ∧
    does (.snapshotCopyEnd 2) (den [(Fd.DEN_SNAP_SEQ 2, 2 ^ 32 - 1)] fun d => { d with walk := some (some 16) }) (fun t =>
      evs t == [0x802] && t.get (Fd.DEN_SNAP_SEQ 2) == 0) = true ∧
    ((den [] fun d => { d with walk := some none }).denCh 2).walk = some none ∧
    does (.passWalkEnd 2) (den [] fun d => { d with walk := some none }) (fun t => (t.denCh 2).walk == none && evs t == []) =
      true := by decide +kernel

/-- Gallery enabled in frame 9. -/
def gal (l : List (Fld × Nat)) (f : GalSt → GalSt) : State :=
  let s := up ([(Fd.GAL_CTRL_EN, 1), (Fd.GAL_STATUS_QUIESCENT, 0), (Fd.GAL_VTIM0_VACT, 3), (Fd.GAL_HTIM0_HACT, 4)] ++ l)
  { s with gal := f { s.gal with frame := 9, begun := true } }

/-- The same with an overlay pane over its top left corner. -/
def shown : State :=
  gal [] fun g => { g with latched := true, panes := [(6, { PaneSt.empty with cur := ⟨[4, 0, 0x20002], 0, 0, 0, []⟩ })] }

theorem wit_gallery : (up []).on Fd.GAL_CTRL_EN = false ∧ (up [(Fd.GAL_STATUS_HPD, 1)]).on Fd.GAL_STATUS_HPD = true ∧
    does .galEnable (up [(Fd.GAL_STATUS_HPD, 1), (Fd.GAL_LATCH_SEQ, 7)]) (fun t => t.gal.training && t.get Fd.GAL_LATCH_SEQ == 0) = true ∧
    (gal [] id).on Fd.GAL_CTRL_EN = true ∧
    does .galDisable (gal [] fun g => { g with retired := true }) (fun t => t.get Fd.GAL_STATUS_QUIESCENT == 1) = true ∧
    does (.commit 0x81) (up []) (fun t => t.get Fd.GAL_ARMED == 0x81 && (t.pane 7).armed.isSome && (t.pane 6).armed.isNone) = true ∧
    (gal [] id).gal.begun = true ∧ (gal [] id).gal.latched = false ∧
    does .latch (gal [(Fd.GAL_ARMED, 1)] id) (fun t => t.get Fd.GAL_LATCH_SEQ == 9 && t.get Fd.GAL_ARMED == 0) = true ∧
    (gal [] id).gal.retired = false ∧ (gal [] fun g => { g with aborted := true }).gal.aborted = true ∧
    does .frameRetire (gal [(Fd.GAL_CTRL_RETIRE_EVT, 1)] fun g => { g with aborted := true }) (fun t => evs t == [0x909] &&
      t.get Fd.GAL_RETIRE_SEQ == 9) = true ∧
    (gal [] id).gal.aborted = false ∧ (gal [] id).get Fd.GAL_VTIM0_VACT ≤ (gal [] id).get Fd.GAL_LINE + 9 ∧
    does .frameRetire (gal [] id) (fun t => t.get Fd.GAL_RETIRE_SEQ == 9) = true ∧
    (2#12).toNat ≠ 0 ∧ (2#12).toNat < (gal [] id).get Fd.GAL_VTIM0_VACT ∧ (gal [] id).on Fd.GAL_STATUS_QUIESCENT = false ∧
    does (.lineStart 2 true) (gal [] id) (fun t => t.get Fd.GAL_LINE == 2 && t.gal.scan.length == 4) = true ∧
    shown.gal.aborted = false ∧ shown.gal.latched = true ∧ shown.gal.begun = true ∧ shown.on Fd.GAL_STATUS_QUIESCENT = false ∧
    (List.range 8).any (fun k => paneFetched shown k (1#12).toNat) = true ∧ shown.gal.fetched ≤ (1#12).toNat ∧
    does (.lineStart 1 false) shown (fun t => evs t == [0x905] && t.gal.aborted && t.get Fd.GAL_UNDERRUNS == 1) = true ∧
    does (.palData none) (up [(Fd.GAL_PAL_ADDR, 16383)]) (fun t => t.get Fd.GAL_PAL_ADDR == 0) = true ∧
    palInUse (up [(Fd.GAL_PAL_ADDR, 1024)]) (1024 / 2048) (1024 / 1024 % 2) = false ∧
    palInUse (up [(Fd.GAL_PAL_ADDR, 1023)]) (1023 / 2048) (1023 / 1024 % 2) = true ∧
    does (.palData (some 5)) (up [(Fd.GAL_PAL_ADDR, 1024)]) (fun t => Assoc.get 0#32 t.gal.pal 1024 == 5) = true ∧
    does (.palData (some 5)) (up [(Fd.GAL_PAL_ADDR, 1023)]) (fun t => evs t == [0x907]) = true := by decide +kernel
theorem wit_gallery_link : (gal [(Fd.GAL_STATUS_HPD, 1)] id).on Fd.GAL_STATUS_HPD = true ∧ (gal [] id).on Fd.GAL_STATUS_HPD = false ∧
    does (.hpdConnect [0x12] [0x00, 0xFF, 0xFF, 0xFF, 0xFF, 0xFF, 0xFF, 0x00] true) (gal [] id) (fun t => evs t == [0x901] &&
      t.on Fd.GAL_STATUS_EDID_VALID && t.rd 0xA0100 == 0x12 && t.rd 0xA0204 == 0x00FFFFFF && t.gal.training) = true ∧
    does .hpdUnplug (gal [(Fd.GAL_STATUS_HPD, 1), (Fd.GAL_STATUS_LINK_UP, 1)] id) (fun t => evs t == [0x902] &&
      t.get Fd.GAL_STATUS_LINK_UP == 0) = true ∧
    does (.irqHpd true) (gal [(Fd.GAL_STATUS_HPD, 1), (Fd.GAL_STATUS_LINK_UP, 1)] id) (fun t => t.gal.training) = true ∧
    does .retrain (gal [(Fd.GAL_STATUS_HPD, 1)] id) (fun t => t.gal.training && evs t == []) = true ∧
    (gal [] fun g => { g with training := true }).gal.training = true ∧
    does (.linkTrainingEnd 2 3 [.crFail 1, .locked]) (gal [(Fd.GAL_CTRL_MAXLANES, 2), (Fd.GAL_CTRL_MAXRATE, 3), (Fd.GAL_PCLK_KHZ, 25000)]
      fun g => { g with training := true }) (fun t => evs t == [0x903] && t.get Fd.GAL_STATUS_LANES == 0) = true := by
  decide +kernel

/-! ### Scrivener -/

/-- Another recorder part. -/
def scr (l : List (Fld × Nat)) (f : ScrSt → ScrSt) : State := let s := up l; { s with scr := f s.scr }

/-- A run of stream 4 that records channel 1 in 16 bits. -/
def strRun (comp : Bool) : StrSt := ⟨0, none, 0, 1, 16, comp, 0, 0, 0, 0, none⟩

/-- A recording whose stream 4 has one sample for a block of one sample. -/
def recording (comp : Bool) (stage : Nat) : State :=
  let s := scr [(Fd.SCR_STATUS_STATE, 1), (Fd.SCR_CTRL_BLK, 1), (Fd.SCR_STAGE_SIZE, stage)] fun x =>
    { x with streams := [(4, [strRun comp])] }
  { s with dsp := { s.dsp with streams := [(1, [⟨40, 3, 0, 0, 0⟩])] } }

/-- A folio that engine 15 holds, of a payload of one byte. -/
def heldFolio : Folio := ⟨4, 6, 0, 40, 40, 1, 0, 0, 0, [7], none, some 15, [], 0⟩

/-- Coded data of that payload: bytes 7 and 256 have codes of one bit. -/
def coded : List Byte := (List.range 165).map (fun i => if i = 3 then 0x10 else if i = 128 then 0x01 else if i = 164 then 0x20 else 0)

theorem wit_blocks : (4 : Fin 16).val ≠ 15 ∧ look [] (recording true 128).scr.streams (4 : Fin 16).val = strRun true :: [] ∧
    (strRun true).kind < 2 ∧ (strRun true).gap = none ∧
    1 = 2 ^ (recording true 128).get Fd.SCR_CTRL_BLK * 8 / ((strRun true).width * streamComps (recording true 128) 0 1) ∧
    1 ≤ (sampElems (recording true 128) (strRun true)).length ∧
    (sampElems (recording true 128) (strRun true)).take 1 = [⟨40, 3, 0, 0, 0⟩] ∧
    stagingShort (recording true 128) (rawFolio (packSamples 16 false [⟨40, 3, 0, 0, 0⟩]).length) = false ∧
    does (.blockClose 4) (recording true 128) (fun t => t.scr.folios.map (fun f => (f.sid, f.payload, f.engine)) == [(4, [3, 0], some 0)]) =
      true ∧
    (recording true 64).sys.windows = [] ∧ [(⟨40, 3, 0, 0, 0⟩ : Samp)].head? = some ⟨40, 3, 0, 0, 0⟩ ∧
    stagingShort (recording true 64) (rawFolio (packSamples 16 false [⟨40, 3, 0, 0, 0⟩]).length) = true ∧
    does (.blockClose 4) (recording true 64) (fun t => evs t == [0xA08] && t.get Fd.SCR_GAPS == 1) = true := by decide +kernel
theorem wit_folios : (scr [] fun x => { x with folios := [heldFolio] }).scr.folios.find? (fun f => f.engine == some (15 : Fin 16).val) =
      some heldFolio ∧
    decodeData heldFolio.payload.length coded = some heldFolio.payload ∧
    does (.compressionEnd 15 coded) (scr [] fun x => { x with folios := [heldFolio] }) (fun t =>
      t.scr.folios.all (fun f => f.raw == some 1 && f.engine.isNone)) = true ∧
    decodeData heldFolio.payload.length [] ≠ some heldFolio.payload ∧
    does (.compressionEnd 15 []) (scr [] fun x => { x with folios := [heldFolio] }) (fun t => t.get Fd.SCR_VFAIL == 1 &&
      t.age.engOut == [15] && t.scr.folios.all (fun f => f.raw == some 2)) = true ∧
    (scr [] fun x => { x with folios := [{ heldFolio with bytes := [1, 2] }] }).scr.folios = { heldFolio with bytes := [1, 2] } :: [] ∧
    does .folioWriteEnd (scr [] fun x => { x with folios := [{ heldFolio with bytes := [1, 2] }] }) (fun t => t.scr.off == 2 &&
      t.scr.written == some 6 && t.scr.folios == []) = true ∧
    (driveStore 3 5 [1, 2] (up [])).drive 3 = [(5, 1), (6, 2)] ∧
    (up [(Fd.SCR_STATUS_STATE, 2)]).get Fd.SCR_STATUS_STATE = 2 ∧
    does .ckptFlush (scr [(Fd.SCR_STATUS_STATE, 2)] fun x => { x with written := some 3 }) (fun t => t.scr.flushed == some 3) = true ∧
    (scr [] fun x => { x with streams := [(4, [])] }).scr.streams.all (fun e => e.2.isEmpty) = true ∧
    does .recordingClosed (scr [(Fd.SCR_STATUS_STATE, 2)] fun x => { x with streams := [(4, [])] }) (fun t => evs t == [0xA06] &&
      t.get Fd.SCR_STATUS_STATE == 0) = true ∧
    does .scrDisable (up [(Fd.SCR_STATUS_STATE, 1)]) (fun t => t.scr.closeReq == some 3) = true := by decide +kernel

/-- A playback of the drive at port 0 whose stream 4 feeds channel 1. -/
def pbRun (f : PbSt → PbSt) : PbSt :=
  f ⟨40, 9, [0], 0, [(4, 1, 16)], 0, none, false, none, [], [], [], [], [], false, none, none⟩

/-- A state in that playback. -/
def playing (l : List (Fld × Nat)) (f : PbSt → PbSt) : State :=
  scr ([(Fd.SCR_CTRL_EN, 1), (Fd.SCR_STATUS_STATE, 3), (Fd.SCR_CTRL_PB, 1), (⟨0xB0018, 0, 32⟩, 9)] ++ l) fun x =>
    { x with pb := some (pbRun f) }

/-- Read-ahead of one beat. -/
def ahead : List (Nat × List PbRun) := [(4, [⟨40, 16, List.replicate 16 (3, 0), false, 0⟩])]

/-- An idle recorder with the drive of port 0. -/
def idle : State := up [(Fd.SCR_CTRL_EN, 1), (Fd.SCR_CTRL_DRV_EN, 1), (⟨0xB0018, 0, 32⟩, 9)]

/-- The closed label of recording 9. -/
def label : List Byte :=
  labelBytes { idle with scr := { idle.scr with tRec := 40, used := [0], label := zeros 16 } } 0 0 1

/-- A label in place is the volume's label. -/
theorem volLabel_driveStore (lb : List Byte) (len : lb.length = 4096) (good : crcGood lb = true) (magic : fieldAt lb 0 4 = 0x56524353)
    (version : fieldAt lb 4 2 = 1) (one : fieldAt lb 6 1 = 1) : volLabel (driveStore 0 0 lb idle) = some lb := by
  have load : Memory.load ((driveStore 0 0 lb idle).drive 0) 0 4096 = lb := by
    have h := Memory.load_eq ((driveStore 0 0 lb idle).drive 0) 0 lb fun i h => Memory.byte_store_in [] 0 lb h
    rwa [len] at h
  have first : readLabel (driveStore 0 0 lb idle) 0 0 = some lb := by
    unfold readLabel
    rw [show 0 * 128 * 4096 = 0 from rfl, load]
    exact if_pos ⟨magic, version, good⟩
  have empty (k : Nat) (h : 524288 ≤ k) : Memory.byte ((driveStore 0 0 lb idle).drive 0) k = 0#8 :=
    Memory.byte_store_out [] 0 lb (by omega)
  have blank (m : List Host.Cell) (a : Nat) : fieldAt (Memory.load m a 4096) 0 4 =
      ofLe [Memory.byte m a, Memory.byte m (a + 1), Memory.byte m (a + 1 + 1), Memory.byte m (a + 1 + 1 + 1)] := rfl
  have second : readLabel (driveStore 0 0 lb idle) 0 1 = none := by
    unfold readLabel
    refine if_neg fun h => absurd h.1 ?_
    rw [blank, empty _ (by decide), empty _ (by decide), empty _ (by decide), empty _ (by decide)]
    decide
  have used : usedPorts (driveStore 0 0 lb idle) = [0] :=
    (show usedPorts idle = [0] by decide +kernel)
  simp [volLabel, used, chooseLabel, first, second, one]
theorem wit_playback_label : volLabel (driveStore 0 0 label idle) = some label := by
  refine volLabel_driveStore label ?_ (crcGood_withCrc _) (by decide +kernel) (by decide +kernel) (by decide +kernel)
  simp only [label, labelBytes, withCrc, zeros, List.length_append, le_length, List.length_flatMap, List.length_take, List.length_drop,
    List.length_replicate]
  decide +kernel
theorem wit_playback_start : (up [(Fd.SCR_CTRL_EN, 0)]).on Fd.SCR_CTRL_EN = false ∧
    does .playbackStart (up [(Fd.SCR_CTRL_EN, 0)]) (fun t => evs t == [0xA0E]) = true ∧
    (driveStore 0 0 label idle).get Fd.SCR_STATUS_STATE = 0 ∧ (driveStore 0 0 label idle).on Fd.SCR_CTRL_EN = true ∧
    (driveStore 0 0 label idle).ingEn = false ∧ (driveStore 0 0 label idle).run = false := by decide +kernel

/-- The first folio of recording 9, as long as what it holds. -/
def recorded : State :=
  let s := playing [] id
  let f : Folio := ⟨4, 0, 0, 40, 40, 1, 0, 0, 0, [3, 0], some 0, none, [], 0⟩
  driveStore 0 (256 * 4096) (folioHeader 9 { f with marks := 2 } 2 86 ++ storedBlock 0 [3, 0]) s

theorem wit_playback_read : (playing [] id).scr.pb = some (pbRun id) ∧ (pbRun id).done = false ∧
    (nextFolio (playing [] id) ⟨[0], 0, 9⟩ (volPages (playing [] id) ⟨[0], 0, 9⟩ - 0 / 4096) 0 none false).isNone = true ∧
    does (.playbackFolioRead true) (playing [] id) (fun t => t.scr.pb.any (fun p => p.done)) = true ∧
    (nextFolio recorded ⟨[0], 0, 9⟩ (volPages recorded ⟨[0], 0, 9⟩ - 0 / 4096) 0 none false).any (fun r => r.2 == 86 &&
      r.1.sid == 4 && r.1.greason == 0 && r.1.t0 == look 40 (pbRun id).expect 4) = true ∧
    (pbRun id).streams.find? (fun x => x.1 == 4) = some (4, 1, 16) ∧
    does (.playbackFolioRead true) recorded (fun t => t.scr.pb.any (fun p => p.off == 86 &&
      (look [] p.ahead 4) == [⟨40, 1, [(3, 0)], false, 0⟩])) = true := by decide +kernel
theorem wit_playback_end : (playing [] fun p => { p with ahead := ahead }).scr.pb = some (pbRun fun p => { p with ahead := ahead }) ∧
    pbReady (pbRun fun p => { p with ahead := ahead }) 40 = true ∧ (pbRun id).running = false ∧ (pbRun id).stopReq = none ∧
    (playing [] id).on Fd.CFG_STATUS_STANDBY_ACT = false ∧
    does .playbackStopWrite (playing [] id) (fun t => t.scr.pb.any (fun p => p.stopReq == some 2)) = true ∧
    (up []).scr.pb = none ∧ does .playbackStopWrite (up [(Fd.SCR_CTRL_PB, 1)]) (fun t => !t.on Fd.SCR_CTRL_PB) = true ∧
    (pbRun fun p => { p with running := true, ended := some 2 }).running = true ∧
    (playing [] id).sys.counting = false ∧ drained (playing [] id) = true ∧ (playing [] id).sys.armAfterStop = false ∧
    does .playbackEnd (playing [] fun p => { p with running := true, ended := some 2 }) (fun t => t.scr.pb.isNone &&
      (evs t).contains 0xA0C && t.get Fd.SCR_STATUS_STATE == 0) = true ∧
    does .scrDisable (playing [] id) (fun t => !t.on Fd.SCR_CTRL_EN && t.scr.pb.any (fun p => p.stopReq == some 2)) = true := by
  decide +kernel
theorem wit_drives : (up [(Fd.SCR_CTRL_DRV_EN, 8), (Fd.DRV_STATUS_STATE 3, 1)]).onBit Fd.SCR_CTRL_DRV_EN (3 : Fin 4).val = true ∧
    (up [(Fd.DRV_STATUS_STATE 3, 1)]).get (Fd.DRV_STATUS_STATE 3) = 1 ∧ driveLive (up [(Fd.SCR_CTRL_DRV_EN, 8), (Fd.DRV_STATUS_STATE 3, 2)]) 3 = true ∧
    does (.driveBringup 3 2 5 (2 ^ 40) true 0) (up [(Fd.SCR_CTRL_DRV_EN, 8), (Fd.DRV_STATUS_STATE 3, 1)]) (fun t => evs t == [0xA01] &&
      t.rd64 0xB04CC == 2 ^ 40 && t.get (Fd.DRV_STATUS_STATE 3) == 2) = true ∧
    does (.driveBringup 3 2 5 9 true 1) (up [(Fd.SCR_CTRL_DRV_EN, 8), (Fd.DRV_STATUS_STATE 3, 1)]) (fun t => evs t == [0xA02] &&
      t.get (Fd.DRV_STATUS_REASON 3) == 1) = true ∧
    does (.nvmeCompletion 3 1 0) (scr [(Fd.SCR_CTRL_DRV_EN, 8), (Fd.DRV_STATUS_STATE 3, 2)] fun x => { x with retried := [(3, 1), (3, 2)] })
      (fun t => t.scr.retried == [(3, 2)]) = true ∧
    does (.nvmeCompletion 3 1 4) (up [(Fd.SCR_CTRL_DRV_EN, 8), (Fd.DRV_STATUS_STATE 3, 2)]) (fun t => t.scr.retried == [(3, 1)]) = true ∧
    [(3, 1)].contains (3, (1#8).toNat) = true ∧
    (up [(Fd.SCR_STATUS_STATE, 1)]).get Fd.SCR_STATUS_STATE = 1 ∧ [3].contains (3 : Fin 4).val = true ∧
    does (.smartPoll 3 310 4) (up [(Fd.DRV_STATUS_STATE 3, 2)]) (fun t => t.get (Fd.DRV_SMART_TEMP 3) == 310 && evs t == [0xA04]) = true := by
  decide +kernel

/-! ### Weaver -/

/-- Weaver enabled with stream time at 1000, ST_NOW 984 and engine 1 in a state. -/
def wvr (state : Nat) (l : List (Fld × Nat)) (f : EngSt → EngSt) : State :=
  let s := flowing 1000 ([(Fd.WVR_CTRL_EN, 1), (Fd.ENG_STATUS_STATE 1, state), (Fd.WVR_JDELAY, 4096), (Fd.SYS_ST_NOW_LO, 984)] ++ l)
  { s with wvr := { s.wvr with eng := [(1, f EngSt.empty)] } }

/-- A pattern entry of one granule that takes the host's jumps, with passes to repeat. -/
def pat (rep : Nat) : WvEntry := ⟨0, 1, 1, 4, rep, 5, false, 7, 0, 0⟩

theorem wit_weaver_start : engState (wvr 1 [] id) (1 : Fin 2).val ≠ 0 ∧
    does (.start 1) (wvr 1 [] id) (fun t => evs t == [0xB0B]) = true ∧ does (.armTrig 1) (wvr 3 [] id) (fun t => evs t == [0xB0B]) = true ∧
    engState (wvr 0 [] id) (1 : Fin 2).val = 0 ∧
    does (.start 1) (wvr 0 [(Fd.SYS_CLAMP_COUNT, 5)] id) (fun t => t.rdT 0xC015C == 66560 && engState t 1 == 2 &&
      t.get Fd.SYS_CLAMP_COUNT == 6) = true ∧
    does (.start 1) (wvr 0 [(⟨0xC0148, 0, 32⟩, 66656)] id) (fun t => t.rdT 0xC015C == 66624 || t.rdT 0xC015C == 66688) = true ∧
    does (.armTrig 1) (wvr 0 [(Fd.ENG_START_ENTRY 1, 4095)] id) (fun t => engState t 1 == 1 && (t.engine 1).cur == 4095) =
      true := by decide +kernel
theorem wit_weaver_requests : engState (wvr 1 [] id) (1 : Fin 2).val = 1 ∧ engState (wvr 2 [] id) (1 : Fin 2).val = 2 ∧
    engState (wvr 3 [] id) (1 : Fin 2).val = 3 ∧ (wvr 2 [] id).sys.counting = true ∧ ((wvr 2 [] id).engine (1 : Fin 2).val).first = none ∧
    (wvr 3 [] id).sys.windows = [] ∧ bit ((wvr 1 [] fun e => { e with ent := pat 0 }).engine (1 : Fin 2).val).ent.cond 2 = true ∧
    does (.stop 1) (wvr 1 [] id) (fun t => evs t == [0xB02] && engState t 1 == 0) = true ∧
    does (.stop 1) (wvr 2 [] id) (fun t => (t.engine 1).reqs == [⟨5080, 0, some 1⟩]) = true ∧
    does (.jump 1) (wvr 2 [] id) (fun t => (t.engine 1).reqs == [⟨5080, 4, none⟩]) = true ∧
    does (.jump 1) (wvr 1 [] fun e => { e with ent := pat 0 }) (fun t => (t.engine 1).first.isSome) = true ∧
    does (.jump 1) (wvr 3 [(Fd.ENG_IGNORED 1, 2 ^ 32 - 1)] id) (fun t => evs t == [0xB04] && t.get (Fd.ENG_IGNORED 1) == 2 ^ 32 - 1) =
      true := by decide +kernel
theorem wit_weaver_table : 2 ≤ (up [(Fd.WVR_SEQ_ADDR, 32762)]).get Fd.WVR_SEQ_ADDR % 8 ∧
    (up [(Fd.WVR_SEQ_ADDR, 32761)]).get Fd.WVR_SEQ_ADDR % 8 < 2 ∧
    does (.seqData none) (up [(Fd.WVR_SEQ_ADDR, 32767)]) (fun t => t.get Fd.WVR_SEQ_ADDR == 0) = true ∧
    does (.seqData (some 0xFFFFFFFF#32)) (up [(Fd.WVR_SEQ_ADDR, 32762)]) (fun t => seqWord t 32762 == 0x8FFFFFFF) = true ∧
    does (.seqData (some 0x03000010#32)) (up [(Fd.WVR_SEQ_ADDR, 32761)]) (fun t => seqWord t 32761 == 0x02000010) = true := by
  decide +kernel

/-- Engine 1 at the end of a pass of a pattern. -/
def atEnd (f : EngSt → EngSt) : State :=
  wvr 2 [] fun e => f { e with ent := pat 3, nxt := pat 9, cur := 4, b := 500, vec := 64, vt := 900, left := 1 }

theorem wit_weaver_first : ((wvr 2 [] fun e => { e with first := some 1000, ent := pat 3, cur := 4095 }).engine 1).first = some 1000 ∧
    tle 1000 (wvr 2 [] id).sys.next = true ∧ (pat 3).kind = (1 : Fin 2).val ∧ (wvr 2 [] id).on (Fd.PLL_STATUS_HOLD 3) = false ∧
    does (.firstPassStart 1) (wvr 2 [] fun e => { e with first := some 1000, ent := pat 3, cur := 4095 }) (fun t => evs t == [0xB01] &&
      (t.engine 1).left == 3 && (t.engine 1).b == 1000 && t.get (Fd.ENG_STATUS_ENTRY 1) == 4095) = true := by decide +kernel
theorem wit_weaver_passes : passEndAt (atEnd id) (1 : Fin 2).val = some 900 ∧ tle 900 (atEnd id).sys.next = true ∧
    ((atEnd id).engine 1).stop = none ∧ ((atEnd id).engine 1).jump = none ∧ ((atEnd id).engine 1).under = none ∧
    (atEnd id).on (Fd.PLL_STATUS_HOLD 3) = false ∧ ((atEnd id).engine 1).ent.forever = false ∧ 0 < ((atEnd id).engine 1).left ∧
    ((atEnd id).engine 1).ent.kind = (1 : Fin 2).val ∧ ((atEnd id).engine 1).nxt.kind = (1 : Fin 2).val ∧
    does (.passBoundary 1) (atEnd id) (fun t => (t.engine 1).b == 900 && (t.engine 1).left == 0 && (t.engine 1).cur == 4) = true ∧
    does (.passBoundary 1) (atEnd fun e => { e with left := 0 }) (fun t => (t.engine 1).left == 9 && (t.engine 1).cur == 5) = true ∧
    ((atEnd fun e => { e with jump := some (7, pat 8, false) }).engine 1).jump = some (7, pat 8, false) ∧
    does (.passBoundary 1) (atEnd fun e => { e with jump := some (7, pat 8, false) }) (fun t => evs t == [0xB03] &&
      (t.engine 1).left == 8 && (t.engine 1).cur == 7) = true ∧
    ((atEnd fun e => { e with left := 0, nxt := WvEntry.halt }).engine 1).nxt.kind = 2 ∧
    does (.passBoundary 1) (atEnd fun e => { e with left := 0, nxt := WvEntry.halt }) (fun t => evs t == [0xB02] && engState t 1 == 0) =
      true := by decide +kernel

/-- The wave engine resynchronised at 960. -/
def resynced : State :=
  let s := wvr 0 [] id
  { s with wvr := { s.wvr with eng := [(0, { EngSt.empty with resync := some 960 })] } }

theorem wit_weaver_underrun : engPlays (atEnd id) (1 : Fin 2).val = true ∧ ((atEnd id).engine 1).under = none ∧
    does (.weaverUnderrun 1) (atEnd id) (fun t => evs t == [0xB06] && (t.engine 1).under == some 900) = true ∧
    (resynced.engine 0).resync = some 960 ∧ (resynced.engine 1).under = none ∧ (resynced.engine 1).resync = none ∧
    does (.underrunResync 0) resynced (fun t => evs t == [0xB07] && t.get (Fd.ENG_UNDERRUNS 0) == 1) = true ∧
    ((atEnd fun e => { e with under := some 900, shift := 64 }).engine 1).under.isSome = true ∧
    0 < ((atEnd fun e => { e with under := some 900, shift := 64 }).engine 1).shift ∧
    does (.underrunResync 1) (atEnd fun e => { e with under := some 900, shift := 64 }) (fun t => evs t == [0xB07] &&
      (t.engine 1).under == none) = true := by decide +kernel

/-- Both DACs in use, with a SYSREF period of so many extended multiblocks. -/
def dacs (period : Nat) (l : List (Fld × Nat)) : State := ing ([(Fd.WVR_CTRL_DAC_EN, 3), (Fd.ING_SR_CFG_PERIOD, period)] ++ l)

theorem wit_weaver_link : (up [(Fd.WVR_CTRL_DAC_EN, 0)]).on Fd.WVR_CTRL_EN = false ∧ txLanes (up [(Fd.WVR_CTRL_DAC_EN, 0)]) = 0 ∧
    does (.weaverEnable 0xFFFF) (up [(Fd.WVR_CTRL_DAC_EN, 0)]) (fun t => t.on Fd.WVR_CTRL_EN && !t.wvr.linkDue) = true ∧
    (dacs 3 []).on Fd.WVR_CTRL_EN = false ∧ txLanes (dacs 3 []) ≠ 0 ∧ Nat.land (txLanes (dacs 3 [])) (0x100#16).toNat ≠ 0 ∧
    Nat.land (txLanes (dacs 3 [])) (0#16).toNat = 0 ∧ sysrefTicks (dacs 16 []) % txEmb (dacs 16 []) = 0 ∧
    sysrefTicks (dacs 1 [(Fd.ING_MODE, 4)]) % txEmb (dacs 1 [(Fd.ING_MODE, 4)]) ≠ 0 ∧
    does (.weaverEnable 0x100) (dacs 3 []) (fun t => evs t == [0xB08] && t.on Fd.WVR_STATUS_LINK_FAIL) = true ∧
    does (.weaverEnable 0) (dacs 16 []) (fun t => t.wvr.linkDue && evs t == []) = true ∧
    (dacs 16 [(Fd.ING_SR_STATUS_LEMC_SET, 1)]).ingEn = true ∧ (dacs 16 [(Fd.ING_SR_STATUS_LEMC_SET, 1)]).on Fd.ING_SR_STATUS_LEMC_SET = true ∧
    (let s := dacs 16 [(Fd.ING_SR_STATUS_LEMC_SET, 1)]
     does .linkStart { s with wvr := { s.wvr with linkDue := true } } (fun t => t.on Fd.WVR_STATUS_LINK_UP)) = true ∧
    engState (wvr 0 [(Fd.ENG_STATUS_STATE 0, 1)] id) 0 = 1 ∧ engState (wvr 0 [] id) 1 = 0 ∧ engState (wvr 0 [] id) 0 = 0 ∧
    does .weaverDisable (wvr 0 [] id) (fun t => !t.on Fd.WVR_CTRL_EN && evs t == []) = true ∧
    does .weaverDisable (wvr 0 [(Fd.ENG_STATUS_STATE 0, 1)] id) (fun t => evs t == [0xB02]) = true ∧
    does .linkStop (wvr 0 [(Fd.WVR_CTRL_EN, 0), (Fd.WVR_STATUS_LINK_UP, 1)] id) (fun t => !t.on Fd.WVR_STATUS_LINK_UP &&
      t.on Fd.WVR_STATUS_QUIESCENT) = true := by decide +kernel

/-! ### Tally -/

/-- Stream time at 5 with input 7 tallied into its queue, and what Tally remembers. -/
def tly (l : List (Fld × Nat)) (f : TlySt → TlySt) : State :=
  let s := flowing 5 ([(Fd.EV_CFG_EN 7, 1), (Fd.EV_CFG_QEN 7, 1), (Fd.EV_CFG_EN 8, 1), (Fd.WVR_JSRC_EVMASK, 0)] ++ l)
  { s with tly := f s.tly }

/-- Counts of 32 codes, one of them the only one hit often. -/
def counts : List Nat := 2 ^ 20 :: List.replicate 31 1

theorem wit_edges : (up []).run = false ∧ (tly [] id).run = true ∧ (tly [] id).on (Fd.EV_CFG_EN (7 : Fin 8).val) = true ∧
    edgeSel ((tly [] id).get (Fd.EV_CFG_EDGE 7)) true = true ∧ gateUse (tly [] id) 7 true = false ∧
    look 0 (tly [] id).tly.pre 7 % ((tly [] id).get (Fd.EV_CFG_PRE 7) + 1) = 0 ∧ (tly [] id).tly.last = [] ∧
    (tly [] id).on (Fd.EV_CFG_QEN 7) = true ∧
    ((tly [(Fd.EV_WR 7, 65535), (Fd.EV_RD 7, 1)] id).get (Fd.EV_WR 7) + 65536 - 1) % 65536 ≠ 65535 ∧ (tly [] id).tly.steps = [] ∧
    (tly [] id).on (Fd.PLL_STATUS_HOLD 1) = false ∧ (tly [] id).get Fd.TRG_CTRL_EN = 0 ∧ (tly [] id).get Fd.WVR_JSRC_EVMASK = 0 ∧
    (tly [] id).past = [] ∧
    does (.talliedEdge 7 true 31) (tly [(Fd.EV_WR 7, 65535), (Fd.EV_RD 7, 1), (Fd.EV_DESKEW 7, 65535), (Fd.EV_SEQ 7, 9)] fun x =>
      { x with tables := [(7, List.replicate 32 4095)] })
      (fun t => t.get (Fd.EV_WR 7) == 0 && t.get (Fd.EV_SEQ 7) == 10) = true ∧
    look 0 (tly [(Fd.EV_CFG_PRE 7, 63)] fun x => { x with pre := [(7, 63)] }).tly.pre 7 % (63 + 1) ≠ 0 ∧
    does (.talliedEdge 7 true 0) (tly [(Fd.EV_CFG_PRE 7, 63)] fun x => { x with pre := [(7, 63)] }) (fun t =>
      look 0 t.tly.pre 7 == 64 && t.get (Fd.EV_SEQ 7) == 0) = true ∧
    (tly [] fun x => { x with last := [(7, 1000)] }).tly.last.find? (fun e => e.1 == (7 : Fin 8).val) = some (7, 1000) ∧
    256 * (tly [] id).sys.next.toNat + calCentre (tly [] id) 7 0 < 1000 + 32 * 256 ∧ (tly [] id).sys.windows = [] ∧
    does (.talliedEdge 7 true 0) (tly [] fun x => { x with last := [(7, 1000)] }) (fun t => evs t == [0xC02] &&
      t.get (Fd.EV_OVERRUN 7) == 1) = true := by decide +kernel
theorem wit_frequency : gateUse (tly [] id) 8 true = true ∧ (∀ n, n < 8 → (tly [] id).get (Fd.FM_STATUS_STATE n) = 0) ∧
    does (.gateEdge 8 true 3) (tly [] id) (fun t => (look [] t.tly.gates 8).length == 1) = true ∧
    (tly [(Fd.FM_STATUS_STATE 4, 1)] id).get (Fd.FM_STATUS_STATE (4 : Fin 8).val) = 1 ∧ (tly [] id).on (Fd.FM_CTRL_GPOL 4) = false ∧
    ((tly [] id).fmUnit 4).armAt ≤ 0 ∧
    (fmGate 4 ⟨0, 0, true, false, false⟩ (tly [(Fd.FM_STATUS_STATE 4, 1)] id)).get (Fd.FM_STATUS_STATE 4) = 2 ∧
    (tly [] id).tly.gates = [] ∧ does (.fmArm 4) (tly [(Fd.SYS_ST_NOW_LO, 16)] id) (fun t => (t.fmUnit 4).armAt == 4096) = true ∧
    does (.fmStop 4) (tly [(Fd.FM_STATUS_STATE 4, 2)] id) (fun t => t.get (Fd.FM_STATUS_STATE 4) == 0) = true := by decide +kernel
theorem wit_calibration : (tly [] id).on (Fd.EV_CFG_EN (8 : Fin 9).val) = true ∧ tableOf [1, 2] = none ∧ (tableOf counts).isSome = true ∧
    (tly [(Fd.TLY_STATUS_UNCAL, 256)] id).onBit Fd.TLY_STATUS_UNCAL 8 = true ∧
    does (.tcalReq [(8, [1, 2])]) (tly [] id) (fun t => evs t == [0xC05]) = true ∧
    does (.tcalPeriod [(8, counts)]) (tly [(Fd.TLY_STATUS_UNCAL, 256)] id) (fun t => look [] t.tly.counts 8 == counts && evs t == []) =
      true := by decide +kernel

/-! ### Cykin -/

/-- Core 127 as it stands at an instruction at address 16383, in its fifth cycle. -/
def coreSt (f : CoreSt → CoreSt) : CoreSt :=
  f { CoreSt.init with
    cycle := 5
    a := [(0, 64), (1, 0xFFFFFFFF), (2, 0x80000044), (3, 33), (8, 96), (9, 3)]
    d := [(0, List.replicate 16 30000), (1, [1, -2, 3, -4, 5, -6, 7, -8, 9, -10, 11, -12, 13, -14, 15, -32768])]
    ac := [(0, List.replicate 16 549755813887)]
    sr := 0 }

/-- The same in a machine, with its instruction memory. -/
def core (i : Option CykInstr) (l : List (Fld × Nat)) (f : CoreSt → CoreSt) : State :=
  let s := flowing 100 ([(Fd.COR_STATUS_STATE 127, 2), (Fd.COR_PC 127, 16383)] ++ l)
  { s with
    cyk := { s.cyk with cores := [(127, coreSt f)] }
    mem := Memory.store [(0x010003F80040, 7), (0x010003F80062, 9)] (imBase 127 + 4 * 16383)
      (le 4 (match i with
        | some i => encodeCyk i
        | none => 0x88360000)) }

/-- The core of that machine as it issues, with nothing in flight. -/
def base : CoreSt := coreSt id

/-- Whether a command issues as `IssuesTo` says. -/
def goesOn (c : Instr) (i : CykInstr) (b : CoreSt) (ops : List (Nat × CoreWrite)) : Bool :=
  does c (core (some i) [] id) (fun t => t.core 127 == { ops.foldl (fun c o => c.push o.1 o.2) b with cycle := 6 } &&
    t.get (Fd.COR_PC 127) == 0 && t.rd64 0x1807F60 == 6 && coreState t 127 == 2)

theorem wit_issue : ∀ i ∈ [CykInstr.halt, .nop, .trap, .reti, .di, .ei, .br 5, .call 15 16383, .bz 1 7, .bnz 1 7, .bltz 1 7, .jr 2,
      .loop 4095 16383, .loopr 7 3, .mvi 3 0x8000, .mvih 3 1, .addi 1 0xFFFF, .alua .add 1 1 2, .alua .sub 1 1 2, .alua .and 1 1 2,
      .alua .or 1 1 2, .alua .xor 1 1 2, .alua .sll 1 1 3, .alua .srl 1 1 3, .alua .sra 1 2 3, .mvts 3 8, .mvfs 3 0, .mvda 4 1, .mvad 15 2,
      .cyc 2, .ld 3 ⟨0, some 0⟩, .ldr 3 ⟨0, none⟩, .lda 3 ⟨0, none⟩, .ld 3 ⟨2, none⟩, .st 1 ⟨0, some 1⟩, .sta 1 ⟨0, none⟩,
      .vop .add 3 0 1 0, .vop .sub 3 0 1 0, .vop .adds 3 0 1 0, .vop .subs 3 0 1 0, .vop .sra 3 0 0 15, .vop .conj 3 1 0 0, .vop .cmuls 3 0 1 0,
      .vop .mov 3 0 0 0, .vop .swap 3 1 0 0, .ldac 0 1 true false 31, .mac 0 1 1 true false, .clr 3, .ftap 0 0 0 3 1 true, .mv 3 0 31,
      .satmv 3 0 31, .pop 2 3, .free 3, .post 0, .tpost 7 0 true],
    Issues 127 i base (core (some i) [] id) := by
  unfold Issues
  decide +kernel
theorem wit_control : does (.halt 127) (core (some .halt) [] id) (fun t => evs t == [0xD01] && coreState t 127 == 1 &&
      t.get (Fd.COR_STATUS_CAUSE 127) == 1 && t.get (Fd.COR_PC 127) == 0) = true ∧
    goesOn (.nop 127) .nop (noSlot base) [] = true ∧
    goesOn (.trap 127) .trap { noSlot base with icause := 128, trap := true } [] = true ∧
    does (.reti 127) (core (some .reti) [] fun c => { c with isr := 0x13, ipc := 9 }) (fun t => t.get (Fd.COR_PC 127) == 9 &&
      (t.core 127).sr == 0x13) = true ∧
    goesOn (.di 127) .di (noSlot base) [(0, .ie false)] = true ∧ goesOn (.ei 127) .ei (noSlot base) [(0, .ie true)] = true ∧
    goesOn (.br 127) (.br 5) (inSlot base (some 5)) [] = true ∧
    goesOn (.call 127) (.call 15 16383) (inSlot base (some 16383)) [(0, .reg 15 1)] = true ∧
    goesOn (.bz 127) (.bz 1 7) (inSlot base none) [] = true ∧ goesOn (.bz 127) (.bz 7 7) (inSlot base (some 7)) [] = true ∧
    goesOn (.bnz 127) (.bnz 1 7) (inSlot base (some 7)) [] = true ∧ goesOn (.bltz 127) (.bltz 1 7) (inSlot base (some 7)) [] = true ∧
    goesOn (.bltz 127) (.bltz 0 7) (inSlot base none) [] = true ∧
    goesOn (.loop 127) (.loop 4095 16383) { inSlot base none with lc := 4096, lb := 1, le := 16383 } [] = true ∧
    goesOn (.loopr 127) (.loopr 1 3) { inSlot base none with lc := 131071, lb := 1, le := 3 } [] = true ∧
    goesOn (.jr 127) (.jr 2) (inSlot base (some 0x44)) [] = true := by decide +kernel
theorem wit_delay_slots : (coreSt id).cycle = 5 ∧ (coreSt fun c => { c with cycle := 1 }).cycle ≤ 1 ∧
    does (.nop 127) (core (some .nop) [] fun c => { c with cycle := 1, slot := true, target := some 77 }) (fun t =>
      t.get (Fd.COR_PC 127) == 77 && !(t.core 127).slot) = true ∧
    does (.br 127) (core (some (.br 5)) [] fun c => { c with cycle := 1, slot := true }) (fun t => evs t == [0xD01] &&
      t.get (Fd.COR_STATUS_CAUSE 127) == 2 && t.get (Fd.COR_PC 127) == 16383) = true ∧
    (coreSt fun c => { c with sr := 32, le := 9, lc := 2, lb := 4 }).atD.len = true ∧
    (loopStep (coreSt fun c => { c with sr := 32, le := 9, lc := 2, lb := 4 }) 9).2 = 4 ∧
    (loopStep (coreSt fun c => { c with sr := 32, le := 9, lc := 1, lb := 4 }) 9).2 = 10 ∧
    decodeCyk (imWord (core none [] id) 127 ((core none [] id).get (Fd.COR_PC 127))) = none ∧ irqDue base = false ∧
    does (.unassignedEncoding 127) (core none [] id) (fun t => t.get (Fd.COR_STATUS_CAUSE 127) == 2 && evs t == [0xD01]) = true := by
  decide +kernel
theorem wit_scalars : goesOn (.mvi 127) (.mvi 3 0x8000) base [(0, .reg 3 0xFFFF8000)] = true ∧
    goesOn (.mvih 127) (.mvih 3 1) base [(0, .reg 3 0x10021)] = true ∧ goesOn (.addi 127) (.addi 1 0xFFFF) base [(0, .reg 1 0xFFFFFFFE)] = true ∧
    goesOn (.aluaAdd 127) (.alua .add 1 1 2) base [(0, .reg 1 0x80000043)] = true ∧
    goesOn (.aluaSub 127) (.alua .sub 1 0 1) base [(0, .reg 1 65)] = true ∧
    goesOn (.aluaAnd 127) (.alua .and 1 1 2) base [(0, .reg 1 0x80000044)] = true ∧
    goesOn (.aluaOr 127) (.alua .or 1 0 3) base [(0, .reg 1 97)] = true ∧
    goesOn (.aluaXor 127) (.alua .xor 1 1 2) base [(0, .reg 1 0x7FFFFFBB)] = true ∧
    goesOn (.aluaSll 127) (.alua .sll 1 1 3) base [(0, .reg 1 0xFFFFFFFE)] = true ∧
    goesOn (.aluaSrl 127) (.alua .srl 1 1 3) base [(0, .reg 1 0x7FFFFFFF)] = true ∧
    goesOn (.aluaSra 127) (.alua .sra 1 2 3) base [(0, .reg 1 0xC0000022)] = true ∧
    goesOn (.mvts 127) (.mvts 3 8) base [(4, .facc 33)] = true ∧ goesOn (.mvfs 127) (.mvfs 3 0) base [(2, .reg 3 0)] = true ∧
    goesOn (.mvda 127) (.mvda 4 1) base [(2, .reg 4 0xFFFE0001)] = true ∧
    goesOn (.mvad 127) (.mvad 15 2) base [(3, .d 15 ((List.replicate 8 [0x44, -32768]).flatten))] = true ∧
    goesOn (.cyc 127) (.cyc 2) base [(2, .reg 2 5)] = true := by decide +kernel
theorem wit_memory_instructions : goesOn (.ld 127) (.ld 3 ⟨0, some 0⟩) base
      [(0, .reg 0 160), (2, .d 3 ([7] ++ List.replicate 15 0))] = true ∧
    base.atD.reg 0 < 2 ^ 31 ∧ 2 ^ 31 ≤ base.atD.reg 2 ∧ (base.atM.dv 1).length = 16 ∧
    goesOn (.ldr 127) (.ldr 3 ⟨0, none⟩) base [(2, .d 3 ((List.replicate 8 [7, 0]).flatten))] = true ∧
    goesOn (.lda 127) (.lda 3 ⟨0, none⟩) base [(2, .reg 3 7)] = true ∧
    goesOn (.ld 127) (.ld 3 ⟨2, none⟩) { base with far := some ⟨64, 0, 3⟩ } [] = true ∧
    does (.st 127) (core (some (.st 1 ⟨0, some 1⟩)) [] id) (fun t => t.load 0x010003F80040 4 == [1, 0, 0xFE, 0xFF] &&
      t.load 0x010003F8005E 3 == [0, 0x80, 0] && (t.core 127).pipe.length == 1) = true ∧
    does (.sta 127) (core (some (.sta 1 ⟨3, none⟩)) [] id) (fun t => t.load 0x010003F8001F 6 == [0, 255, 255, 255, 255, 0]) = true ∧
    ((core none [] fun c => { c with far := some ⟨64, 2, 3⟩ }).core (127 : Fin 128).val).far = some ⟨64, 2, 3⟩ ∧
    does (.farLoadReturn 127) { core none [] fun c => { c with far := some ⟨64, 2, 3⟩ } with mem := [(65, 1)] } (fun t =>
      (t.core 127).far == none && (t.core 127).pipe.map (fun o => o.w) == [.reg 3 256]) = true := by decide +kernel
theorem wit_vectors : goesOn (.vopAdd 127) (.vop .add 3 0 0 0) base [(3, .d 3 (List.replicate 16 (-5536)))] = true ∧
    goesOn (.vopAdds 127) (.vop .adds 3 0 0 0) base [(3, .d 3 (List.replicate 16 32767))] = true ∧
    goesOn (.vopConj 127) (.vop .conj 3 1 0 0) base
      [(3, .d 3 [1, 2, 3, 4, 5, 6, 7, 8, 9, 10, 11, 12, 13, 14, 15, -32768])] = true ∧
    goesOn (.vopSwap 127) (.vop .swap 3 1 0 0) base
      [(3, .d 3 [-2, 1, -4, 3, -6, 5, -8, 7, -10, 9, -12, 11, -14, 13, -32768, 15])] = true ∧
    goesOn (.vopSra 127) (.vop .sra 3 1 0 15) base [(3, .d 3 ((List.replicate 8 [0, -1]).flatten))] = true ∧
    goesOn (.vopCmuls 127) (.vop .cmuls 3 0 0 0) base [(3, .d 3 ((List.replicate 8 [0, 32767]).flatten))] = true ∧
    goesOn (.clr 127) (.clr 3) base [(3, .ac 3 (List.replicate 16 0))] = true ∧
    goesOn (.mac 127) (.mac 0 0 0 true false) base
      [(3, .ac 0 ((List.replicate 8 [-549755813889 + 1800000000, 549755813887]).flatten)), (3, .ov 0)] = true ∧
    goesOn (.satmv 127) (.satmv 3 0 31) base [(3, .d 3 (List.replicate 16 255))] = true ∧
    goesOn (.mv 127) (.mv 3 0 24) base [(3, .d 3 (List.replicate 16 32767))] = true ∧
    does (.ftap 127) (core (some (.ftap 0 0 0 3 1 true)) [] id) (fun t => t.loadN 0x010003F80040 4 == 0) = true := by decide +kernel
theorem wit_pipeline : base.pipe = [] ∧ (0xFFFFFFFF : Nat) < 2 ^ 32 ∧
    ({ base.push 2 (.reg 1 7) with cycle := 6 }).atD.reg 1 = 0xFFFFFFFF ∧ ({ base.push 2 (.reg 1 7) with cycle := 8 }).atD.reg 1 = 7 := by
  decide +kernel
theorem wit_words : (CykInstr.ftap 3 7 6 5 4 true).wf = true ∧ decodeCyk (encodeCyk (.ftap 3 7 6 5 4 true)) = some (.ftap 3 7 6 5 4 true) ∧
    decodeCyk 0x88760000 = none ∧ decodeCyk 0xFC000001 = none := by decide +kernel

/-! ### Cykin rings and interrupts -/

/-- Core 127 at an instruction with two slots of 64 bytes in ring 3, one item in them, and three output slots of 64 bytes. -/
def ringed (i : CykInstr) (l : List (Fld × Nat)) (r : RingSt) : State :=
  core (some i) ([(Fd.COR_IQ_SLOTS_SLOTS 127 3, 2), (Fd.COR_IQ_SLOTS_SLOT 127 3, 2), (Fd.COR_IQ_BASE 127 3, 0x100), (Fd.COR_OSLOTS 127, 3),
    (Fd.COR_OSLOT 127, 2)] ++ l) fun c => { c with rings := [(3, r)] }

theorem wit_pop : Issues 127 (.pop 2 3) (coreSt fun c => { c with rings := [(3, ⟨4, 3, 2, 0⟩)] }) (ringed (.pop 2 3) [] ⟨4, 3, 2, 0⟩) := by
  unfold Issues
  decide +kernel
theorem wit_rings : (ringed (.pop 2 3) [] ⟨4, 3, 2, 0⟩).get (Fd.COR_IQ_SLOTS_SLOTS (127 : Fin 128).val (3 : Fin 4).val) ≠ 0 ∧
    ((⟨4, 3, 2, 0⟩ : RingSt).popped < (⟨4, 3, 2, 0⟩ : RingSt).stored) ∧ ((⟨4, 4, 2, 0⟩ : RingSt).stored ≤ (⟨4, 4, 2, 0⟩ : RingSt).popped) ∧
    does (.pop 127) (ringed (.pop 2 3) [] ⟨4, 3, 2, 0⟩) (fun t => ((t.core 127).ring 3).popped == 4 &&
      (t.core 127).pipe.map (fun o => o.w) == [.reg 2 0x140, .faccOr 0]) = true ∧
    does (.pop 127) (ringed (.pop 2 3) [] ⟨4, 4, 2, 0⟩) (fun t => coreState t 127 == 3 && t.get (Fd.COR_PC 127) == 16383) = true ∧
    does (.free 127) (ringed (.free 3) [] ⟨4, 3, 2, 0⟩) (fun t => ((t.core 127).ring 3).freed == 3) = true ∧
    does (.free 127) (ringed (.free 3) [] ⟨4, 3, 3, 0⟩) (fun t => ((t.core 127).ring 3).freed == 3) = true ∧
    (postItem (ringed (.post 0) [] ⟨4, 3, 2, 0⟩) 127 (base.atD.reg 0) base.atM.facc base.atM.persist).2 = (0, false) ∧
    base.atM.facc % 128 = 0 ∧ ((ringed (.post 0) [] ⟨4, 3, 2, 0⟩).get (Fd.COR_OWR 127) + 3 - 0) % 3 ≠ 2 ∧
    does (.post 127) (ringed (.post 0) [(Fd.COR_OWR 127, 2), (Fd.COR_ORD 127, 1)] ⟨4, 3, 2, 0⟩) (fun t => t.get (Fd.COR_OWR 127) == 0 &&
      t.loadN 128 4 == 0x4F4B5943 && t.loadN 133 1 == 127 && t.loadN 136 2 == 7 && t.rd64 0x1807F60 == 7) = true ∧
    (core (some (.tpost 7 0 true)) [(Fd.CYK_TLINE_EN 7, 1), (Fd.CYK_TLINE_CORE 7, 127)] id).get (Fd.CYK_TLINE_CORE 7) = (127 : Fin 128).val ∧
    (core (some (.tpost 7 0 true)) [(Fd.CYK_TLINE_EN 7, 1), (Fd.CYK_TLINE_CORE 7, 127)] id).on (Fd.CYK_TLINE_EN 7) = true ∧
    does (.tpost 127) (core (some (.tpost 7 0 true)) [(Fd.CYK_TLINE_EN 7, 1), (Fd.CYK_TLINE_CORE 7, 127)] id) (fun t =>
      (t.src 0x3C).upto == some 7 && (t.src 0x3C).evs.map (fun e => e.t) == [7]) = true ∧
    (core (some (.tpost 7 0 true)) [] id).on (Fd.CYK_TLINE_EN 7) = false ∧
    does (.tpost 127) (core (some (.tpost 7 0 true)) [] id) (fun t => evs t == [0xD05] && t.get Fd.CYK_TPDISC == 1) = true := by
  decide +kernel

/-- A run of feed 9 that sends the triggers of unit 1 to ring 3 of core 127. -/
def feedRun : FeedRun := ⟨0, none, 2, 0, 1, 2, 1, 3, 0x80000000, 3, 0, 0, false⟩

/-- One such trigger, while core 127 waits for its item. -/
def fed (slots : Nat) (r : RingSt) : State :=
  let s := ringed (.pop 2 3) [(Fd.COR_STATUS_STATE 127, 3), (Fd.COR_IQ_SLOTS_SLOTS 127 3, slots)] r
  { s with
    cyk := { s.cyk with feeds := [(9, [feedRun])] }
    trg := { s.trg with trigs := [⟨1, 50, 50, 0x19, 0, 0, 0, 6⟩] } }

theorem wit_items : look [] (fed 2 ⟨3, 3, 2, 0⟩).cyk.feeds (9 : Fin 16).val = [feedRun] ∧
    (feedNext (fed 2 ⟨3, 3, 2, 0⟩) feedRun).any (fun x => x.1.t == 50 && x.2.taken == 1 && x.1.body.length == 32) = true ∧
    (fed 2 ⟨3, 3, 2, 0⟩).onBit Fd.PTB_CTRL_EN 4 = false ∧ (feedCores feedRun)[feedRun.k % max 1 (feedCores feedRun).length]? = some 127 ∧
    (3 - 2 < (fed 2 ⟨3, 3, 2, 0⟩).get (Fd.COR_IQ_SLOTS_SLOTS 127 feedRun.ring)) ∧
    64 ≤ 32 * (fed 2 ⟨3, 3, 2, 0⟩).get (Fd.COR_IQ_SLOTS_SLOT 127 feedRun.ring) ∧
    does (.itemDelivery 9) (fed 2 ⟨3, 3, 2, 0⟩) (fun t => ((t.core 127).ring 3).stored == 4 && coreState t 127 == 2 &&
      t.get (Fd.FD_ISEQ 9) == 1 && t.loadN (0x010003F80000 + 0x140) 8 == 50) = true ∧
    (fed 1 ⟨3, 3, 2, 0⟩).get (Fd.COR_IQ_SLOTS_SLOTS 127 feedRun.ring) ≤ 3 - 2 ∧
    does (.itemDelivery 9) (fed 1 ⟨3, 3, 2, 0⟩) (fun t => t.get (Fd.FD_LOST 9) == 1 && t.get (Fd.COR_ILOST 127) == 1 &&
      t.get (Fd.COR_STATUS_OLOSS 127) == 1) = true ∧
    look [] (up []).cyk.feeds (9 : Fin 16).val = [] := by decide +kernel
theorem wit_interrupts : irqDue (coreSt fun c => { c with trap := true }) = true ∧
    irqDue (coreSt fun c => { c with sr := 0x10, icause := 0x10, imask := 0x30 }) = true ∧
    coreState (core (some .nop) [] fun c => { c with trap := true }) (127 : Fin 128).val = 2 ∧ (coreSt id).slot = false ∧ (coreSt id).far = none ∧
    (coreSt id).stopping = false ∧
    does (.interruptEntry 127) (core (some .nop) [(Fd.COR_VEC 127, 8)] fun c => { c with trap := true, sr := 0x73 }) (fun t =>
      t.get (Fd.COR_PC 127) == 8 && (t.core 127).ipc == 16383 && (t.core 127).sr == 0x43 && (t.core 127).isr == 0x73) = true ∧
    coreState (up []) (127 : Fin 128).val < 2 ∧ does (.coreRun 127 true) (up []) (fun t => coreState t 127 == 2) = true ∧
    does (.coreRun 127 false) (core none [] id) (fun t => evs t == [0xD01] && coreState t 127 == 1) = true ∧
    (coreSt fun c => { c with slot := true }).slot = true ∧
    does (.coreRun 127 false) (core none [] fun c => { c with slot := true }) (fun t => (t.core 127).stopping && evs t == []) = true ∧
    does (.coreReset 127) (core none [] id) (fun t => t.core 127 == CoreSt.init && t.get (Fd.COR_PC 127) == 0) = true ∧
    does (.doorbell 127) (core none [] id) (fun t => (t.core 127).icause == 16) = true := by decide +kernel

/-! ### Host interface and Porter -/

/-- A command entry of the ring. -/
def cmd (opc cid : Nat) (rest : List Byte) : List Byte := le 2 opc ++ le 2 cid ++ zeros 4 ++ rest ++ zeros (56 - rest.length)

/-- A host interface with rings of eight entries in host memory and commands fetched. -/
def hostWith (l : List (Fld × Nat)) (f : HifSt → HifSt) : State :=
  let s := flowing 1000 ([(Fd.HIF_CMD_SIZE, 8), (Fd.HIF_CPL_SIZE, 8), (Fd.HIF_EVT_SIZE, 8), (Fd.HIF_CPL_TAIL, 7), (⟨0xE0010, 0, 32⟩, 0x1000),
    (⟨0xE0020, 0, 32⟩, 0x2000), (⟨0xE0030, 0, 32⟩, 0x3000), (⟨0xE0040, 0, 32⟩, 0x4000)] ++ l)
  { s with hif := f { s.hif with cplHead := 1 } }

/-- The same with a command in front of another. -/
def hosted (opc : Nat) (rest : List Byte) (l : List (Fld × Nat)) : State :=
  hostWith l fun h => { h with fetched := [cmd opc 0xABCD rest, cmd 0 1 []] }

theorem wit_commands : Decodes (cmd 0 0xABCD []) [cmd 0 1 []] (hosted 0 [] []) ∧ fieldAt (cmd 0 0xABCD []) 0 2 = 0 ∧
    fieldAt (cmd 5 0xABCD []) 0 2 ∉ [0, 1, 2, 3, 4, 0x10, 0x11] ∧ RingRoom (hostWith [] fun h => { h with fetched := [cmd 0 9 []], tail := 1 }) ∧
    (hostWith [] fun h => { h with fetched := [cmd 0 9 []], tail := 1 }).hif.tail = cmdNext (hosted 0 [] []) ∧
    does .cmdNop (hosted 0 [] []) (fun t => t.load (hostAddr 0x2070) 16 == zeros 8 ++ le 2 0xABCD ++ [0, 1] ++ le 2 1 ++ le 2 0xFFFF &&
      t.get Fd.HIF_CPL_TAIL == 0 && t.get Fd.HIF_CMD_HEAD == 1 && !t.hif.cplPhase) = true ∧
    does .cmdNop (hostWith [] fun h => { h with fetched := [cmd 0 9 []], tail := 1 }) (fun t => t.loadN (hostAddr 0x4010) 4 == 1) = true ∧
    does .badOpcode (hosted 5 [] []) (fun t => t.loadN (hostAddr 0x207A) 1 == 1) = true ∧
    does .time (hosted 4 [] [(Fd.SYS_ST_NOW_LO, 77)]) (fun t => t.loadN (hostAddr 0x2070) 8 == 77) = true := by
  unfold Decodes RingRoom
  decide +kernel
theorem wit_register_commands : fieldAt (le 4 0x1128) 0 4 % 2 ^ 26 / 4 * 4 = 0x1128 ∧
    (∀ u, busRead 0x128 u = (u.rd 0x128, u)) ∧ 0x128 ∉ [Fd.HIF_CMD_HEAD.off] ∧
    (RegMap.find 0x108).any (fun d => match d.1.pair with
      | .low _ => true
      | _ => false) = true ∧
    (RegMap.find 0x10C).any (fun d => match d.1.pair with
      | .high => true
      | _ => false) = true ∧
    regsGated (hosted 2 [] []) 0x108 = false ∧ regsGated (hosted 2 [] []) 0x10C = false ∧
    (∀ i, i < 2 → fieldAt (cmd 1 2 (le 8 2 ++ le 4 0x128 ++ le 4 5 ++ le 4 0x128 ++ le 4 9)) (0x10 + 8 * i) 4 = 0x128) ∧
    does .regRead (hosted 2 (le 4 0x128) [(Fd.SYS_STU_EXTEND, 99)]) (fun t => t.loadN (hostAddr 0x2070) 8 == 99) = true ∧
    does .regRead (hosted 2 (le 4 0x108 ++ [1]) [(Fd.SYS_EPOCH_LO, 99), (Fd.SYS_EPOCH_HI, 1)]) (fun t =>
      t.loadN (hostAddr 0x2070) 8 == 2 ^ 32 + 99) = true ∧
    does .regWrite (hosted 1 (le 8 2 ++ le 4 0x128 ++ le 4 5 ++ le 4 0x128 ++ le 4 9) []) (fun t => t.rd 0x128 == 9 &&
      t.loadN (hostAddr 0x2070) 8 == 2) = true :=
  ⟨by decide +kernel, fun _ => rfl, by decide +kernel⟩
theorem wit_overlay_command : (hosted 3 (le 8 63 ++ le 8 65536) [(Fd.CFG_OV_VALID 63, 1)]).on (Fd.CFG_OV_VALID 63) = true ∧
    (hosted 3 [] []).cfg.rst = none ∧ (hosted 3 [] []).run = true ∧ (hosted 3 [] []).cfg.applies.length < 64 ∧
    65536 % (hosted 3 [] []).interval = 0 ∧ (nextLanding (hosted 3 [] [])).toNat % (hosted 3 [] []).interval = 0 ∧
    (nextLanding (hosted 3 [] [])).toNat ≤ 131072 ∧ 131072 % (hosted 3 [] []).interval = 0 ∧
    131072 + 2 * (hosted 3 [] []).interval ≤ 2 ^ 64 ∧
    does .overlayApply (hosted 3 (le 8 63 ++ le 8 131072) [(Fd.CFG_OV_VALID 63, 1)]) (fun t => t.get (Fd.CFG_OV_PENDING 63) == 1 &&
      t.cfg.applies.map (fun a => (a.index, a.landing)) == [(63, 131072)] && t.loadN (hostAddr 0x2070) 8 == 131072) = true := by decide +kernel

/-- A copy of 64 bytes and a fence, as they stand in a queue. -/
def copy : PtrItem := ⟨3, 7, .ring, false, false, false, false, 4, 64, 0x100, 0x140, false, 0⟩
def fence : PtrItem := { copy with fence := true, count := 0 }

/-- Channel 31 enabled with a queue. -/
def queued (l : List (Fld × Nat)) (q : List PtrItem) (fs : List PtrItem) : State :=
  let s := hostWith ([(Fd.CH_CTRL_EN 31, 1)] ++ l) id
  { s with ptr := { s.ptr with queues := if q.isEmpty then [] else [(31, q)], fences := fs }, mem := [(0x100, 1), (0x13F, 2), (0x140, 9)] }

theorem wit_porter_queue : (hosted 0x10 [] [(Fd.CH_CTRL_EN 31, 1)]).on (Fd.CH_CTRL_EN 31) = true ∧
    ((hosted 0x10 [] []).ptrQ 31).length < 16 ∧
    does .ptrXfer (hosted 0x10 ([31, 1 + 4 * 3, 0, 0] ++ le 4 128 ++ le 8 (2 ^ 48 - 64) ++ le 8 (2 ^ 48 - 4)) [(Fd.CH_CTRL_EN 31, 1)]) (fun t =>
      (t.ptrQ 31).map (fun x => (x.count, x.fw, x.sfix, x.dfix)) == [(128, 64, true, false)] && t.hif.fetched.length == 1) = true ∧
    does .ptrFence (hosted 0x11 [31, 16] []) (fun t => (t.ptrQ 31).map (fun x => (x.fence, x.irq)) == [(true, true)]) = true ∧
    does .ptrFence (hosted 0x11 [32, 0] []) (fun t => t.ptr.fences.length == 1 && t.get Fd.PTR_STATUS_QUIESCENT == 0) = true := by
  decide +kernel
theorem wit_porter : RingRoom (queued [] [copy, fence] []) ∧ (queued [] [copy, fence] []).ptrQ (31 : Fin 32).val = copy :: [fence] ∧
    copy.src + copy.count ≤ copy.dst ∧ copy.dst + copy.count ≤ 0x17FE000000 ∧ (queued [] [copy] []).hbm.poison = [] ∧
    (queued [] [] []).onBit Fd.PTB_CTRL_EN 0 = false ∧ copy.fence = false ∧ fence.fence = true ∧ copy.from' = .ring ∧ copy.irq = false ∧
    does (.descriptorComplete 31 []) (queued [] [copy, fence] []) (fun t => t.mem.take 3 == [(0x100, 1), (0x13F, 2), (0x140, 1)] &&
      t.loadN 0x17F 1 == 2 && t.ptrQ 31 == [fence] && t.loadN (hostAddr 0x2070) 8 == 64 && t.rd64 0xF04E8 == 64) = true ∧
    does (.fenceComplete 31) (queued [] [fence] []) (fun t => t.ptrQ 31 == [] && t.loadN (hostAddr 0x207E) 2 == 31) = true ∧
    (queued [] [] [fence]).ptr.fences = fence :: [] ∧ (queued [] [] [fence]).ptr.queues = [] ∧
    does (.fenceComplete 32) (queued [] [] [fence]) (fun t => t.ptr.fences == [] && t.loadN (hostAddr 0x207E) 2 == 0xFFFF) = true ∧
    does (.porterAbort 31 0) (queued [] [copy] []) (fun t => t.ptrQ 31 == [] && t.loadN (hostAddr 0x207A) 1 == 4) = true ∧
    does (.porterDisable 31) (queued [] [copy, copy, fence] []) (fun t => t.ptrQ 31 == [copy, fence] && t.get (Fd.CH_CTRL_EN 31) == 0) =
      true := by
  unfold RingRoom
  decide +kernel

/-- A doorbell block of a state: tail, completion head, event head. -/
def doorbell (a b c : Nat) (s : State) : State := ((s.store (hostAddr 0x4000) (le 4 a)).store (hostAddr 0x4004) (le 4 b)).store (hostAddr 0x4008) (le 4 c)

/-- An event that waits. -/
def event : Event := ⟨0x111, 4, [.w4 5]⟩

theorem wit_polls : (doorbell 7 6 5 (hostWith [] id)).evq = [] ∧ (hostWith [] id).hif.lost = 0 ∧ (hostWith [] id).hif.due = [] ∧
    (hostWith [] id).hif.cplNew = false ∧ (hostWith [] id).hif.evtNew = false ∧ (hostWith [] id).hif.fetched = [] ∧
    (doorbell 7 6 5 (hostWith [] id)).loadN (hostAddr 0x4000) 4 = 7 ∧ 7 < (hostWith [] id).get Fd.HIF_CMD_SIZE ∧
    (doorbell 7 6 5 (hostWith [] id)).loadN (hostAddr 0x4004) 4 = 6 ∧ (doorbell 7 6 5 (hostWith [] id)).loadN (hostAddr 0x4008) 4 = 5 ∧
    (hostWith [] id).on Fd.HIF_CTRL_EN = true ∧ (hostWith [] id).get Fd.HIF_CPL_SIZE = 8 ∧ (hostWith [] id).get Fd.HIF_EVT_SIZE = 8 ∧
    does (.doorbellPoll [] 0) (doorbell 7 6 5 (hostWith [] id)) (fun t => t.hif.fetched.length == 7 && t.hif.cplHead == 6) = true ∧
    does (.doorbellPoll [] 1) (hostWith [] id) (fun t => t.get Fd.HIF_FETCH_ERR == 1 && evs t == [0xE01]) = true ∧
    ({ hostWith [] id with evq := [event] } : State).evq = [event] ∧ (0 + 1) % 8 ≠ (hostWith [] id).hif.evtHead ∧
    (evtFlush { hostWith [] id with evq := [event] }).loadN (hostAddr 0x3000) 2 = 0x111 ∧
    (hostWith [(Fd.HIF_EVT_TAIL, 7)] id).hif.evtHead = (7 + 1) % 8 ∧
    (evtFlush { hostWith [(Fd.HIF_EVT_TAIL, 7)] id with evq := [event] }).get Fd.HIF_EVT_LOST = 1 := by decide +kernel
theorem wit_host_link : (hostWith [(Fd.HIF_CTRL_EN, 0)] id).on Fd.HIF_CTRL_EN = false ∧
    does .hifEnable (hostWith [(Fd.HIF_CTRL_EN, 0)] id) (fun t => t.get Fd.HIF_CTRL_EN == 1 && t.get Fd.HIF_CPL_TAIL == 0) = true ∧
    does .hifDisable (hostWith [] id) (fun t => t.get Fd.HIF_CTRL_EN == 0 && t.get Fd.HIF_STATUS_QUIESCENT == 1) = true ∧
    (hostWith [] id).ptr.queues = [] ∧
    does (.hostLinkLost 0) (hostWith [(Fd.SYS_STU_EXTEND, 9)] id) (fun t => t.get Fd.HIF_CTRL_EN == 0 && t.hif.perst && t.rd 0x128 == 9 &&
      t.get Fd.HIF_EVT_LOST == 1 && t.get Fd.HIF_CPL_TAIL == 0) = true ∧
    (hostWith [] fun h => { h with perst := true }).hif.perst = true ∧
    (let s := hostWith [] id
     does (.hostLinkUp 4 5) { s with pwr := { s.pwr with rails := true } } (fun t => evs t == [0xE07] && t.get Fd.HIF_LINK_SPEED == 5)) = true ∧
    does .perstDeassert (hostWith [] fun h => { h with perst := true }) (fun t => !t.hif.perst) = true := by decide +kernel

/-! ### Byora -/

/-- Byora enabled as node 9 with port 7 in a state. -/
def byo (port : Nat) (l : List (Fld × Nat)) (f : ByoSt → ByoSt) : State :=
  let s := hostWith ([(Fd.BYO_CTRL_EN, 1), (Fd.BYO_CTRL_PORT_EN, 255), (Fd.BYO_STATUS_ID_VALID, 1), (Fd.BYO_STATUS_NODE_ID, 9),
    (Fd.BPORT_STATUS_STATE 7, port)] ++ l) id
  { s with byo := f s.byo }

theorem wit_ports : portEnabled (byo 1 [] id) (7 : Fin 8).val = true ∧ portState (byo 1 [] id) (7 : Fin 8).val ≤ 1 ∧
    portState (byo 2 [] id) (7 : Fin 8).val = 2 ∧ 79999 / 2 < 40000 ∧ 40000 ≤ 80000 / 2 ∧ (byo 2 [] id).onBit Fd.PTB_CTRL_EN 2 = false ∧
    portState (byo 3 [] id) (7 : Fin 8).val = 3 ∧ portState (byo 4 [] id) (7 : Fin 8).val = 4 ∧ portState (byo 4 [] id) (7 : Fin 8).val ≠ 3 ∧
    does (.portTrained 7 5) (byo 1 [] id) (fun t => portState t 7 == 2 && t.get (Fd.BPORT_STATUS_POL_INV 7) == 5) = true ∧
    does (.laneLockTimeout 7) (byo 1 [] id) (fun t => evs t == [0x1002] && portState t 7 == 4) = true ∧
    does (.portCalibrated 7 79999) (byo 2 [] id) (fun t => portState t 7 == 3 && t.get (Fd.BPORT_DELAY_PAD 7) == 1 && evs t == [0x1001]) =
      true ∧
    does (.portCalibrated 7 200000) (byo 2 [] id) (fun t => portState t 7 == 4 && t.get (Fd.BPORT_DELAY_MEAS 7) == 65535) = true ∧
    does (.portFailed 7 2) (byo 2 [] id) (fun t => t.get (Fd.BPORT_STATUS_REASON 7) == 2 && evs t == [0x1002]) = true ∧
    does (.portFailedRetry 7) (byo 4 [] id) (fun t => portState t 7 == 1) = true ∧
    does (.portRetrain 7) (byo 4 [] id) (fun t => portState t 7 == 1) = true := by decide +kernel
theorem wit_hellos : portState (byo 3 [] id) (7 : Fin 8).val = 3 ∧ (byo 3 [] id).onBit Fd.PTB_CTRL_EN 2 = false ∧
    (nbrOf (byo 3 [] id) 7).map Prod.fst = none ∧
    (nbrOf (byo 3 [] fun b => { b with nbrs := [(7, 40, 40, 0)] }) 7).map Prod.fst = some 40 ∧ 40 ≠ 41 ∧
    ownSerial + 1 ≠ ownSerial ∧ (∀ x, recOf (byo 3 [] id).byo.db (ownSerial + 1) = some x → x.ver < 0) ∧
    (∀ p : Fin 8, portState (byo 0 [] id) p.val ≠ 3) :=
  ⟨by decide +kernel, by decide +kernel, by decide +kernel, by decide +kernel, by decide +kernel, Nat.succ_ne_self _,
    fun x h => absurd (show (none : Option LinkRec) = some x from h) nofun, by decide +kernel⟩
theorem wit_ids : (byo 0 [] id).on Fd.BYO_CTRL_EN = true ∧ upPorts (byo 0 [] id) = [] ∧ (byo 0 [] id).byo.db = [] ∧
    ownId (byo 0 [(Fd.BYO_STATUS_ID_VALID, 0)] id) = none ∧ (byo 0 [] fun b => { b with dirty := true }).byo.dirty = true ∧
    (byo 0 [] id).byo.dirty = false ∧
    does (.idRelease 4095) (byo 0 [] fun b => { b with reserved := [4095, 3] }) (fun t => t.byo.reserved == [3]) = true ∧
    does .routeData (byo 0 [(Fd.BYO_ROUTE_ADDR, 4095)] fun b => { b with routes := [(4095, 3, 128)] }) (fun t =>
      t.get Fd.BYO_ROUTE_ADDR == 0) = true := by decide +kernel

/-- The message of node 4095 on line 15, and what the module has noted of it. -/
def message : PMsg := ⟨false, 3, 4095, 15, 1, 900, 7⟩
def noted (lseq : Nat) : LineRx := ⟨4095, 15, lseq, 800⟩

theorem wit_messages : message = ⟨false, (2 + 1) % 256, (4095 : Fin 4096).val, (15 : Fin 16).val, (1#7).toNat, 900, (7#32).toNat⟩ ∧
    copySeen (byo 3 [] id) message = false ∧ (byo 3 [] id).byo.taken.any (fun r => r.same message) = false ∧
    copySeen (byo 3 [] fun b => { b with copies := [noted 7] }) message = true ∧
    (∀ r, (byo 3 [] fun b => { b with copies := [noted 6] }).byo.copies.find? (fun r => r.origin == message.origin && r.line == message.line) =
      some r → (r.lseq + 1) % 2 ^ 32 = (7#32).toNat) ∧
    (byo 3 [] fun b => { b with copies := [noted 5] }).byo.copies.find? (fun r => r.origin == message.origin && r.line == message.line) =
      some (noted 5) ∧ ((noted 5).lseq + 1) % 2 ^ 32 ≠ (7#32).toNat ∧
    [(⟨4095, 15, 7, 900⟩ : LineRx)].any (fun r => r.same { message with hops := 0 }) = true ∧
    does (.pMessage 7 false false 2 4095 15 1 900 7 0) (byo 3 [] id) (fun t => t.get Fd.BYO_PLOST == 1) = true ∧
    (byo 3 [] id).onBit Fd.PTB_CTRL_EN 2 = false ∧
    (let s := byo 3 [] id
     ({ s with sys := { s.sys with msgDue := true } } : State).sys.msgDue) = true :=
  ⟨by decide +kernel, by decide +kernel, by decide +kernel, by decide +kernel,
    fun r h => by cases h; decide, by decide +kernel⟩

/-- Remote rings of eight entries at 0x5000 and 0x8000 with a doorbell block at 0x9000 and one command for node 4095. -/
def remote (tail : Nat) (l : List (Fld × Nat)) (f : ByoSt → ByoSt) : State :=
  let s := byo 3 ([(Fd.BYO_RCTRL_EN, 1), (Fd.BYO_RS_SIZE, 8), (Fd.BYO_RC_SIZE, 8), (Fd.BYO_RS_BASE_LO, 0x5000), (Fd.BYO_RC_BASE_LO, 0x8000),
    (Fd.BYO_RDB_BASE_LO, 0x9000)] ++ l) fun b => f { b with routes := [(4095, 3, 128)] }
  (s.store (hostAddr 0x9000) (le 4 tail ++ le 4 1)).store (hostAddr 0x5000) (le 2 4095 ++ le 2 77 ++ zeros 60 ++ cmd 0 0xABCD [])

/-- A remote command that has gone out. -/
def gone : RemoteOut := ⟨3, 4095, 77, 0xABCD, false, false⟩

theorem wit_remote : (byo 3 [(Fd.BYO_RCTRL_EN, 0)] id).on Fd.BYO_RCTRL_EN = false ∧ (remote 0 [] id).on Fd.BYO_RCTRL_EN = true ∧
    (remote 0 [] id).byo.rcDue = [] ∧ (remote 0 [] id).loadN (hostAddr 0x9000) 4 = (remote 0 [] id).byo.rsHead ∧
    (remote 1 [] id).loadN (hostAddr 0x9000) 4 = 1 ∧ 1 < (remote 1 [] id).get Fd.BYO_RS_SIZE ∧
    (1 + 8 - (remote 1 [] id).byo.rsHead) % 8 = 1 ∧ (remote 1 [] id).loadN (hostAddr 0x9004) 4 = 1 ∧
    1 < (remote 1 [] fun b => { b with rcTail := 7 }).get Fd.BYO_RC_SIZE ∧
    ((remote 1 [] fun b => { b with rcTail := 7 }).byo.rcTail + 1) % max 1 ((remote 1 [] id).get Fd.BYO_RC_SIZE) ≠ 1 ∧
    fieldAt ((remote 1 [] id).load (hostAddr 0x5000) 128) 0 2 = 4095 ∧ ownId (remote 1 [] id) = some 9 ∧
    (remote 1 [] id).byo.routes.any (fun r => r.1 == 4095) = true ∧
    does .rctrlEnable (byo 3 [(Fd.BYO_RCTRL_EN, 0)] fun b => { b with rsHead := 5 }) (fun t => t.byo.rsHead == 0 && t.on Fd.BYO_RCTRL_EN) =
      true ∧
    does (.remoteDoorbellPoll [] 0) (remote 0 [] id) (fun t => t.byo.rcHead == 1 && t.byo.sent == []) = true ∧
    does (.remoteDoorbellPoll [] 0) (remote 1 [] fun b => { b with rcTail := 7 }) (fun t =>
      t.byo.sent == [.command 4095 0 (cmd 0 0xABCD [])] && t.byo.rsHead == 1 && t.loadN (hostAddr 0x9008) 4 == 1) = true := by
  decide +kernel
theorem wit_remote_target : (ownId (byo 3 [] id)).isSome = true ∧ (byo 3 [] id).hif.remote.length < 256 ∧
    (byo 3 [(Fd.HIF_FWD_EN, 128)] id).onBit Fd.HIF_FWD_EN (7 : Fin 8).val = true ∧ (byo 3 [(Fd.HIF_FWD_EN, 0)] id).onBit Fd.HIF_FWD_EN 7 = false ∧
    does (.remoteCommand 7 4095 3 (cmd 0 0xABCD [])) (byo 3 [(Fd.HIF_FWD_EN, 128)] id) (fun t =>
      t.hif.remote == [(.remote 7 4095 3, cmd 0 0xABCD [])]) = true ∧
    does (.remoteCommand 7 4095 3 (cmd 0 0xABCD [])) (byo 3 [(Fd.HIF_FWD_EN, 0)] id) (fun t => t.get Fd.HIF_FWD_REFUSED == 1 &&
      t.byo.sent == [.completion 4095 3 1 0 0xABCD 0 false 0]) = true ∧
    (let s := byo 3 [] id
     does .cmdNop { s with hif := { s.hif with remote := [(.remote 7 4095 3, cmd 0 0xABCD [])] } } (fun t =>
      t.byo.sent == [.completion 4095 3 0 0 0xABCD 0 false 0] && t.hif.remote == [])) = true := by decide +kernel
theorem wit_remote_end : (remote 0 [] fun b => { b with out := [gone] }).byo.out.find? (fun x => x.rseq == (3#32).toNat) = some gone ∧
    (remote 0 [] fun b => { b with out := [gone] }).byo.out.find? (fun x => x.rseq == (3#32).toNat && !x.timedOut) = some gone ∧
    rcRoom (remote 0 [] fun b => { b with out := [gone], rcHead := 2 }) = true ∧ gone.evt = false ∧
    does (.remoteCompletion 3 0 5 0xABCD 2 true 9) (remote 0 [] fun b => { b with out := [gone], rcHead := 2 }) (fun t => t.byo.out == [] &&
      t.loadN (hostAddr 0x8000) 8 == 5 && t.loadN (hostAddr 0x8008) 4 == 0xABCD + 2 * 2 ^ 16 + 3 * 2 ^ 24 && t.byo.rcTail == 1) = true ∧
    does (.remoteTimeout 3) (remote 0 [] fun b => { b with out := [gone], rcHead := 2 }) (fun t => evs t == [0x100A] &&
      t.get Fd.BYO_RTIMEOUTS == 1 && t.loadN (hostAddr 0x8010) 1 == 3) = true := by decide +kernel

/-- A run of export 7 that sends the triggers of unit 1 to ring 2 of node 4095, with one trigger. -/
def exporting : State :=
  let s := byo 3 [] fun b => { b with xp := [(7, [⟨0, none, 3, 0, 2, 4095, 2, 100, 0⟩])] }
  { s with trg := { s.trg with trigs := [⟨1, 50, 50, 0x19, 0, 0, 0, 6⟩] } }

theorem wit_exports : xpTrim exporting (look [] exporting.byo.xp (7 : Fin 8).val) = ⟨0, none, 3, 0, 2, 4095, 2, 100, 0⟩ :: [] ∧
    (xpNext exporting ⟨0, none, 3, 0, 2, 4095, 2, 100, 0⟩).any (fun x => x.2 == 1 && x.1.fl == 0) = true ∧ ownId exporting = some 9 ∧
    does (.exportElement 7 true) exporting (fun t => t.get (Fd.XP_XSEQ 7) == 1 && t.byo.sent.length == 1) = true ∧
    does (.exportElement 7 false) exporting (fun t => t.get (Fd.XP_LOST 7) == 1 && t.byo.xpLoss == [7] && t.byo.sent == []) = true ∧
    (byo 3 [(Fd.RX_CTRL_EN 0, 1)] id).on (Fd.RX_CTRL_EN (0 : Fin 8).val) = true ∧ (byo 3 [(Fd.RX_CTRL_FILTER 0, 0)] id).on (Fd.RX_CTRL_FILTER 0) = false ∧
    tle (tadd 990 10) (byo 3 [] id).tRel = false ∧
    ((byo 3 [(Fd.RX_SLOTS 0, 2), (Fd.RX_WR 0, 1), (Fd.RX_RD 0, 1)] id).get (Fd.RX_WR 0) + 2 - 1) % 2 ≠ 2 - 1 ∧
    does (.receiveElement 0 7 3 1 false false 4095 3 900 990 10 [1, 2, 3])
      (byo 3 [(Fd.RX_CTRL_EN 0, 1), (Fd.RX_CTRL_FILTER 0, 0), (Fd.RX_SLOTS 0, 2), (Fd.RX_WR 0, 1), (Fd.RX_RD 0, 1), (Fd.RX_BASE_LO 0, 0x10000)] id)
      (fun t => t.get (Fd.RX_WR 0) == 0 && t.loadN (0x10000 + 8320) 4 == 0x58464259 && t.loadN (0x10000 + 8320 + 64) 3 == 0x030201) = true ∧
    (byo 3 [(Fd.RX_CTRL_FILTER 0, 1)] id).on (Fd.RX_CTRL_FILTER 0) = true ∧ (byo 3 [] id).get (Fd.RX_CTRL_SRC_NODE 0) ≠ (4095 : Fin 4096).val ∧
    does (.receiveElement 0 7 3 1 false false 4095 3 900 990 10 [1, 2, 3]) (byo 3 [(Fd.RX_CTRL_EN 0, 1), (Fd.RX_CTRL_FILTER 0, 1)] id)
      (fun t => evs t == [0x100D] && t.get (Fd.RX_REJECTED 0) == 1) = true := by decide +kernel

/-! ### Clocks -/

/-- A state with another clock part. -/
def clkP (l : List (Fld × Nat)) (f : ClkSt → ClkSt) : State :=
  let s := up l
  { s with clk := f s.clk }

/-- A move of the core PLL from the TRO to the OCXO at a divider exponent. -/
def moving (l : List (Fld × Nat)) (exp : Nat) (locked : Bool) : State :=
  clkP ((Fd.CLK_STATUS_OCXO_RDY, 1) :: l) fun c => { c with move := some ⟨0, 1, 2, exp, locked⟩ }

theorem wit_sources : (up []).on Fd.CLK_STATUS_OCXO_RDY = false ∧ (up []).run = false ∧
    (running 0 [(Fd.CLK_SRC_SEL, 1), (Fd.CLK_SRC_ACT, 0)]).on Fd.CLK_STATUS_OCXO_RDY = false ∧ (running 0 []).run = true ∧
    (moveDue ((running 0 [(Fd.CLK_SRC_SEL, 1), (Fd.CLK_SRC_ACT, 0)]).set Fd.CLK_STATUS_OCXO_RDY 1)).isSome = true ∧
    (running 0 [(Fd.CLK_SRC_SEL, 1), (Fd.CLK_SRC_ACT, 0)]).clk.waited = false ∧
    (up [(Fd.CLK_STATUS_OCXO_RDY, 1), (Fd.CLK_SRC_ACT, 1)]).on Fd.CLK_STATUS_OCXO_RDY = true ∧
    (up [(Fd.CLK_STATUS_OCXO_RDY, 1), (Fd.CLK_SRC_ACT, 1)]).get Fd.CLK_SRC_ACT = 1 ∧
    refWindow (clkP [] fun c => { c with goodWindows := 99, goodFreq := 1 }) 0 100002000 = some 1 ∧
    (clkP [] fun c => { c with goodWindows := 99, goodFreq := 1 }).clk.goodWindows = 99 ∧
    (clkP [] fun c => { c with goodWindows := 99, goodFreq := 1 }).clk.goodFreq = 1 ∧
    (clkP [] fun c => { c with goodWindows := 99, goodFreq := 1 }).on Fd.CLK_STATUS_EXT_OK = false ∧
    refWindow (up [(Fd.CLK_STATUS_EXT_OK, 1)]) (-1) 10000000 = none ∧ (up [(Fd.CLK_STATUS_EXT_OK, 1)]).on Fd.CLK_STATUS_EXT_OK = true ∧
    refWindow (up [(Fd.CLK_STATUS_OCXO_RDY, 1)]) 0 9999800 = some 0 ∧ refWindow (up [(Fd.CLK_STATUS_OCXO_RDY, 1)]) 0 9999799 = none ∧
    does .ocxoReady (up []) (fun t => t.get Fd.CLK_STATUS_OCXO_RDY == 1 && evs t == [0x0102]) = true ∧
    does .ocxoReady (running 0 [(Fd.CLK_SRC_SEL, 1), (Fd.CLK_SRC_ACT, 0)]) (fun t => evs t == [0x0102, 0x0107] && t.clk.waited) = true ∧
    does .ocxoLost (up [(Fd.CLK_STATUS_OCXO_RDY, 1), (Fd.CLK_SRC_ACT, 1)]) (fun t => evs t == [0x0104]) = true ∧
    does (.refWindow 0 100002000) (clkP [] fun c => { c with goodWindows := 99, goodFreq := 1 }) (fun t =>
      t.get Fd.CLK_STATUS_EXT_OK == 1 && t.get Fd.CLK_STATUS_EXT_FREQ == 1 && evs t == [0x0103]) = true ∧
    does (.refWindow (-1) 10000000) (up [(Fd.CLK_STATUS_EXT_OK, 1)]) (fun t => t.get Fd.CLK_STATUS_EXT_OK == 0 && evs t == [0x0104]) =
      true := by decide +kernel
theorem wit_source_move : (up [(Fd.CLK_STATUS_OCXO_RDY, 1), (Fd.CLK_SRC_SEL, 1)]).run = false ∧
    (up [(Fd.CLK_STATUS_OCXO_RDY, 1), (Fd.CLK_SRC_SEL, 1)]).clk.move = none ∧
    moveDue (up [(Fd.CLK_STATUS_OCXO_RDY, 1), (Fd.CLK_SRC_SEL, 1)]) = some 1 ∧
    (moving [] 5 false).clk.move = some ⟨0, 1, 2, 5, false⟩ ∧ (moving [] 6 false).clk.move = some ⟨0, 1, 2, 6, false⟩ ∧
    (moving [] 7 false).clk.move = some ⟨0, 1, 2, 7, false⟩ ∧ (moving [] 7 false).on (Fd.PLL_STATUS_HOLD 0) = false ∧
    (moving [] 2 true).clk.move = some ⟨0, 1, 2, 2, true⟩ ∧ (moving [] 1 true).clk.move = some ⟨0, 1, 2, 1, true⟩ ∧
    (moving [] 1 true).run = false ∧ srcAvailable (moving [] 7 false) 1 = true ∧
    srcAvailable (moving [(Fd.CLK_STATUS_OCXO_RDY, 0)] 7 false) 1 = false ∧
    does .sourceMove (up [(Fd.CLK_STATUS_OCXO_RDY, 1), (Fd.CLK_SRC_SEL, 1)]) (fun t => t.get Fd.CLK_SRC_SWITCHING == 1 &&
      t.get Fd.CLK_STATUS_RAMPING == 1) = true ∧
    does (.tread none) (moving [] 6 false) (fun t => t.get (Fd.PLL_STATUS_LOCK 0) == 0) = true ∧
    does (.pllRelock 9) (moving [] 7 false) (fun t => t.get Fd.CLK_SRC_ACT == 1 && evs t == [0x0101] &&
      t.get (Fd.PLL_DIV_N 0) == 160) = true ∧
    does (.pllRelock 9) (moving [(Fd.CLK_STATUS_OCXO_RDY, 0)] 7 false) (fun t => t.get Fd.CLK_SRC_ACT == 0) = true ∧
    does (.tread none) (moving [(Fd.CLK_SRC_SWITCHING, 1)] 1 true) (fun t => t.clk.move == none && t.get Fd.CLK_SRC_SWITCHING == 0) =
      true := by decide +kernel
theorem wit_pll_loss : (up [(Fd.PLL_STATUS_LOCK 2, 1)]).on (Fd.PLL_STATUS_LOCK (2 : Fin 4).val) = true ∧ (2 : Fin 4) ≠ 3 ∧
    (up [(Fd.PLL_STATUS_HOLD 1, 1)]).on (Fd.PLL_STATUS_HOLD (1 : Fin 4).val) = true ∧
    (up []).on (Fd.PLL_STATUS_HOLD (0 : Fin 4).val) = false ∧
    (up [(Fd.PLL_STATUS_LOCK 0, 0)]).on (Fd.PLL_STATUS_LOCK (0 : Fin 4).val) = false ∧
    (1 : Fin 4).val ∉ (up [(Fd.PLL_STATUS_HOLD 1, 1)]).clk.limited ∧ (3 : Fin 4) ≠ 1 ∧
    does (.pllLoss 1 true) (running 8192 []) (fun t => evs t == [0x0105] && t.get (Fd.PLL_HOLDS 1) == 1 &&
      t.sys.spans == ⟨Df.hld, 15, 8192, none⟩ :: (running 8192 []).sys.spans) = true ∧
    does (.pllLoss 2 false) (up [(Fd.PLL_STATUS_LOCK 2, 1)]) (fun t => t.get (Fd.PLL_STATUS_REF_PRESENT 2) == 0) = true ∧
    does (.pllLock 1 9) (up [(Fd.PLL_STATUS_HOLD 1, 1)]) (fun t => evs t == [0x0106] && t.get (Fd.PLL_STATUS_LOCK 1) == 1) = true ∧
    does (.pllLock 0 9) (up [(Fd.PLL_STATUS_LOCK 0, 0)]) (fun t => evs t == [] && t.get (Fd.PLL_FOUT_KHZ 0) == 8000000) = true ∧
    does (.holdLimit 1) (up [(Fd.PLL_STATUS_HOLD 1, 1)]) (fun t => evs t == [0x010A] && t.clk.limited == [1]) = true ∧
    does (.pllPhaseStep 3) (up [(Fd.PLL_PHASE 3, 2)]) (fun t => t.get (Fd.PLL_PHASE_ACT 3) == 1) = true ∧
    does (.freqMeasure 97000) (up []) (fun t => t.get Fd.CLK_FREQ_KHZ == 97000) = true := by decide +kernel

/-- Domain 97, whose unit is Byora, or domain 45, whose unit is the Scrivener, with a gate. -/
def gated (d : Nat) (g : GateSt) (l : List (Fld × Nat)) : State := clkP l fun c => { c with gates := [(d, g), (7, ⟨true, 0, false⟩)] }

theorem wit_gates : gateKind (97 : Fin 104).val = 1 ∧ gateKind (45 : Fin 104).val = 2 ∧ gateKind (8 : Fin 104).val = 0 ∧
    (up []).gate (97 : Fin 104).val = none ∧ (gated 97 ⟨false, 0, false⟩ []).gate (97 : Fin 104).val = some ⟨false, 0, false⟩ ∧
    unitIdle (gated 97 ⟨false, 0, false⟩ [(Fd.BYO_STATUS_QUIESCENT, 1)]) (domainUnit (97 : Fin 104).val) = true ∧
    unitIdle (gated 45 ⟨false, 0, false⟩ []) (domainUnit (45 : Fin 104).val) = true ∧
    unitIdle (gated 45 ⟨false, 0, false⟩ [(Fd.SCR_STATUS_QUIESCENT, 0)]) (domainUnit (45 : Fin 104).val) = false ∧
    (gated 45 ⟨true, 5, false⟩ []).gate (45 : Fin 104).val = some ⟨true, 5, false⟩ ∧
    (gated 45 ⟨true, 6, false⟩ []).gate (45 : Fin 104).val = some ⟨true, 6, false⟩ ∧
    (gated 45 ⟨true, 1, true⟩ []).gate (45 : Fin 104).val = some ⟨true, 1, true⟩ ∧
    (gated 45 ⟨true, 2, true⟩ []).gate (45 : Fin 104).val = some ⟨true, 2, true⟩ ∧
    does (.gateRequest 97) (up []) (fun t => t.get (Fd.CLK_GATE 3) == 2) = true ∧
    does (.idleAck 97) (gated 97 ⟨false, 0, false⟩ [(Fd.BYO_STATUS_QUIESCENT, 1)]) (fun t => t.onBit (Fd.CLK_GSTAT 3) 1 && domainGated t 97 && domainGated t 7) = true ∧
    does (.idleAck 45) (gated 45 ⟨false, 0, false⟩ []) (fun t => t.gate 45 == some ⟨true, 1, false⟩ && t.get Fd.CLK_STATUS_RAMPING == 1) =
      true ∧
    does (.tread (some 45)) (gated 45 ⟨true, 6, false⟩ []) (fun t => t.onBit (Fd.CLK_GSTAT 1) 13 && t.get Fd.CLK_STATUS_RAMPING == 0) =
      true ∧
    does (.tread (some 45)) (gated 45 ⟨true, 1, true⟩ []) (fun t => t.gate 45 == none) = true ∧
    does (.gateTimeout 97) (gated 97 ⟨false, 0, false⟩ [(Fd.CLK_GATE 3, 2)]) (fun t => t.gate 97 == none && evs t == [0x0108] &&
      t.get (Fd.CLK_GATE 3) == 0) = true ∧
    does (.ungate 45) (gated 45 ⟨true, 5, false⟩ []) (fun t => t.gate 45 == some ⟨true, 5, true⟩ && !domainGated t 45) = true ∧
    does (.ungate 97) (gated 97 ⟨true, 0, false⟩ [(Fd.CLK_GSTAT 3, 2)]) (fun t => t.gate 97 == none && t.get (Fd.CLK_GSTAT 3) == 0) =
      true := by decide +kernel

/-! ### Start-up and health -/

/-- A module with its rails on at a stage of start-up. -/
def boot (stage : Nat) (l : List (Fld × Nat)) (f : CfgSt → CfgSt) : State :=
  let s := st ((Fd.HIF_CTRL_EN, 1) :: l)
  { s with pwr := { s.pwr with rails := true, accepted := true }, cfg := f { s.cfg with stage := stage } }

/-- A base image without entries. -/
def baseImage (flags gen epoch : Nat) : List Byte :=
  withCrc (le 4 0x42474643 ++ le 2 1 ++ [0, BitVec.ofNat 8 flags] ++ le 4 gen ++ le 4 0 ++ le 8 epoch ++ zeros 8)

/-- Two copies of the base image, the second one newer and with an epoch. -/
def twoCopies : State := ((boot 2 [] id).flashStore (baseCopyAt 0) (baseImage 0 5 0)).flashStore (baseCopyAt 1) (baseImage 3 7 0x123456789)

theorem wit_start_up : (boot 0 [] id).pwr.rails = true ∧ (boot 0 [] id).cfg.stage = 0 ∧ chooseCopy id (some 3) (some 4) = some (1, 4) ∧
    (boot 1 [] id).cfg.stage = 1 ∧ (boot 3 [] id).cfg.stage = 3 ∧ (boot 4 [(Fd.CLK_SRC_ACT, 2)] id).get Fd.CLK_SRC_ACT ≠ 0 ∧
    (boot 4 [(Fd.CLK_SRC_ACT, 2)] id).cfg.epochAuto = false ∧ (boot 4 [] id).get Fd.CLK_SRC_ACT = 0 ∧
    (boot 5 [(Fd.SYS_ST_STATUS_RUN, 1)] id).run = true ∧ asyStartUpDone (boot 6 [] id) = true ∧ (st []).pwr.rails = false ∧
    does (.startUpPhase true none none) (boot 0 [] id) (fun t => t.get Fd.CFG_STATUS_PHASE == 1 && t.get (Fd.PLL_STATUS_LOCK 0) == 1) = true ∧
    does (.startUpPhase false none none) (boot 0 [] id) (fun t => t.pwr.startFail && t.pwr.latched && !t.pwr.rails) = true ∧
    does (.startUpPhase true none none) (boot 1 [] id) (fun t => t.get Fd.CFG_STATUS_PHASE == 8 && evs t == [0x1301, 0x1307]) = true ∧
    does (.startUpPhase true none none) (boot 3 [] id) (fun t => t.get Fd.CFG_STATUS_PHASE == 4) = true ∧
    does (.startUpPhase true none none) (boot 4 [(Fd.CLK_SRC_ACT, 2)] id) (fun t => t.get Fd.CFG_STATUS_PHASE == 5) = true ∧
    does (.startUpPhase true none none) (boot 5 [(Fd.SYS_ST_STATUS_RUN, 1)] id) (fun t => t.get Fd.CFG_STATUS_PHASE == 6) = true ∧
    does (.startUpPhase true none none) (boot 6 [] id) (fun t => t.get Fd.CFG_STATUS_PHASE == 7) = true := by decide +kernel

/-- Empty flash holds no image. -/
theorem wit_no_base : ∀ k, k < 2 → flashImage (boot 2 [] id) none (baseCopyAt k) = none := by decide +kernel
theorem wit_no_overlay : ∀ i, i < 64 → ∀ k, k < 2 → flashImage (boot 2 [] id) (some i) (overlayCopyAt i k) = none := by decide +kernel
theorem wit_base_image : flashImage twoCopies none (baseCopyAt 0) = some ⟨0, 0, 5, 0, []⟩ ∧
    flashImage twoCopies none (baseCopyAt 1) = some ⟨0, 3, 7, 0x123456789, []⟩ ∧
    chooseCopy Image.gen (some ⟨0, 0, 5, 0, []⟩) (some ⟨0, 3, 7, 0x123456789, []⟩) = some (1, ⟨0, 3, 7, 0x123456789, []⟩) ∧
    bit 3 0 = true ∧ bit 3 1 = true ∧ (applyBase twoCopies).get Fd.CFG_STATUS_BASE_COPY = 1 ∧ (applyBase twoCopies).get Fd.CFG_BASE_GEN = 7 ∧
    (applyBase twoCopies).rd64 0x108 = 0x123456789 := by decide +kernel
theorem wit_reset_times : 89 < 90 ∧ 100 ≤ 100 ∧ 90 ≤ 99 ∧ 99 < 100 ∧ 15 < 16 ∧ 0x17FE000000 < 2 ^ 47 ∧ keptByModuleReset 0x120018 = false ∧
    0x120018 ∉ [Fd.CLK_STATUS_OCXO_RDY.off, Fd.CFG_LAST_RESET_CAUSE.off, Fd.CFG_STATUS_PHASE.off, Fd.HIF_EVT_LOST.off, 0x20004, 0x20008,
      0x20018] ∧
    does (.mreset 89) (up []) (fun t => t == up []) = true ∧
    does (.mreset 100) (up [(Fd.SYS_STU_EXTEND, 9)]) (fun t => t.get Fd.CFG_LAST_RESET_CAUSE == 3 && t.get Fd.CFG_STATUS_PHASE == 1 &&
      t.get Fd.SYS_STU_EXTEND == State.reset.get Fd.SYS_STU_EXTEND) = true := by decide +kernel

/-- A reset waiting for its drain. -/
def resetting (kind : Nat) : State := boot 2 [(Fd.BYO_STATUS_QUIESCENT, 1)] fun c => { c with rst := some kind, rstDrain := true }

/-- Programming of a target. -/
def programming (target : Nat) (bytes : List Byte) (good : Bool) : State :=
  boot 7 [(Fd.CFG_PROG_BUSY, 1)] fun c => { c with prog := some (target, bytes, good) }

theorem wit_resets : (boot 7 [] id).cfg.rst = none ∧ (programming 65 [] true).cfg.rst = none ∧ (programming 65 [] true).cfg.prog.isSome = true ∧
    (boot 7 [] id).cfg.prog = none ∧ (resetting 1).cfg.rst.isSome = true ∧ (resetting 2).cfg.rst = some 2 ∧ (resetting 2).cfg.rstDrain = true ∧
    notQuiescent true (resetting 2) = 0 ∧ (resetting 1).cfg.rst = some 1 ∧ notQuiescent false (resetting 1) = 0 ∧
    (resetting 1).flash = (boot 2 [] id).flash ∧
    does .engineReset (programming 65 [] true) (fun t => t.cfg.rst == some 1 && !t.cfg.rstDrain) = true ∧
    does (.resetComplete false) (resetting 2) (fun t => t.get Fd.CFG_LAST_RESET_CAUSE == 4) = true := by
  decide +kernel
theorem wit_programming : (boot 7 [] id).on Fd.CFG_PROG_BUSY = false ∧ (boot 7 [] id).get Fd.CFG_STATUS_PHASE ≠ 8 ∧
    (programming 0 [] true).on Fd.CFG_PROG_BUSY = true ∧ (programming 65 [1, 2] true).cfg.prog = some (65, [1, 2], true) ∧
    (programming 0 (baseImage 0 0 0) true).cfg.prog = some (0, baseImage 0 0 0, true) ∧
    (programming 64 [] false).cfg.prog = some (64, [], false) ∧ (64 : Nat) ≠ 65 ∧
    does .progStart (boot 7 [(Fd.CFG_PROG_TARGET, 64)] id) (fun t => t.cfg.prog == some (64, zeros 36, false) &&
      t.get Fd.CFG_STATUS_QUIESCENT == 0) = true ∧
    does (.programmingComplete true true) (programming 65 [1, 2] true) (fun t => evs t == [0x1308] &&
      t.flash == [(0x00400000, 1), (0x00400001, 2)]) = true ∧
    does (.programmingComplete true true) (programming 0 (baseImage 0 0 0) true) (fun t => t.get Fd.CFG_PROG_RESULT == 0 &&
      flashImage t none (baseCopyAt 0) == some ⟨0, 0, 1, 0, []⟩) = true ∧
    does (.programmingComplete true true) (programming 64 [] false) (fun t => t.get Fd.CFG_PROG_RESULT == 1 && t.flash == []) = true := by
  decide +kernel
theorem wit_standby : (up []).run = false ∧ (up []).get Fd.CFG_STATUS_PHASE = 7 ∧ (running 0 []).run = true ∧
    (boot 9 [(Fd.CFG_STATUS_STANDBY_ACT, 1)] fun c => { c with standbyPrev := 5 }).on Fd.CFG_STATUS_STANDBY_ACT = true ∧
    (boot 9 [(Fd.CFG_STATUS_STANDBY_ACT, 1)] fun c => { c with standbyPrev := 5 }).cfg.standbyGated = [] ∧
    does .standbyEnter (running 0 []) (fun t => evs t == [0x1309] && t.get Fd.CFG_STATUS_PHASE == 7) = true ∧
    does .standbyLeave (boot 9 [(Fd.CFG_STATUS_STANDBY_ACT, 1)] fun c => { c with standbyPrev := 5 }) (fun t =>
      t.get Fd.CFG_STATUS_PHASE == 5 && evs t == [0x1307, 0x1309]) = true := by decide +kernel

/-- A thermal level and a command rate at which it is in effect. -/
def warm (level : Nat) (l : List (Fld × Nat)) : State :=
  let s := up ([(Fd.AGE_STATUS_THROTTLE, level)] ++ l)
  { s with age := { s.age with level := level } }

/-- A replan that finds nothing. -/
def plan : PlanIn := ⟨[], 5, false, true, []⟩

/-- CHS covers channel 3 in a phase. -/
def covered (ph : TakePhase) : State :=
  let s := running 8192 [(Fd.ASY_STATUS_CHS_OWNER, 2), (Fd.AGE_STATUS_COVERED, 8), (Fd.AGE_OFFSET 3, 8192)]
  { s with age := { s.age with takeovers := [⟨3, 8192, 4096, ph, false⟩] } }

theorem wit_health : (up [(Fd.AGE_CTRL_AUTO, 1)]).on Fd.AGE_CTRL_AUTO = true ∧ (up []).age.replan = none ∧ plan.chsOk = true ∧
    (up []).on Fd.AGE_STATUS_CHS_FAIL = false ∧ (covered .covered).age.takeovers ≠ [] ∧ (covered .covered).age.replan = none ∧
    (up [(Fd.AGE_CTRL_AUTO, 0)]).on Fd.AGE_CTRL_AUTO = false ∧ 1000 ≤ (1000#16).toInt ∧ (1049#16).toInt < 1050 ∧
    (up []).get Fd.AGE_STATUS_THROTTLE = max (up []).age.level (up []).pwr.coreLevel ∧
    1050 ≤ (1050#16).toInt ∧ (1099#16).toInt < 1100 ∧ (warm 6 []).get Fd.AGE_STATUS_THROTTLE = (warm 6 []).age.level ∧
    0 < (warm 6 []).age.level ∧ (warm 6 []).age.level < 7 ∧ (warm 6 []).pwr.coreLevel < (warm 6 []).age.level ∧ (999#16).toInt < 1000 ∧
    1 < (warm 6 []).age.level ∧ 1100 ≤ (1100#16).toInt ∧ (1149#16).toInt < 1150 ∧ (warm 7 []).on Fd.AGE_STATUS_HOT = false ∧
    (warm 7 []).age.level = 7 ∧ (warm 7 []).get Fd.AGE_STATUS_THROTTLE = 7 ∧ (warm 7 []).pwr.coreLevel ≤ 7 ∧ 1150 ≤ (1150#16).toInt ∧
    (up []).pwr.shut = none ∧
    does (.monitorSample ((List.range 64).map (BitVec.ofNat 32))) (up []) (fun t => t.get (Fd.AGE_MON 63) == 63 && t.sys.seconds == 1) = true ∧
    does (.thermalCheck 1049#16) (up [(Fd.AGE_STATUS_HOT, 1)]) (fun t => t.get Fd.AGE_STATUS_HOT == 0) = true ∧
    does (.thermalCheck 1050#16) (warm 6 []) (fun t => t.age.level == 7 && evs t == [0x1101]) = true ∧
    does (.thermalCheck 999#16) (warm 6 []) (fun t => t.get Fd.AGE_STATUS_THROTTLE == 5) = true ∧
    does (.thermalCheck 1100#16) (warm 7 []) (fun t => t.get Fd.AGE_STATUS_HOT == 1 && evs t == [0x1102]) = true := by decide +kernel
theorem wit_ordered_shutdown :
    ({ (up [(Fd.BYO_STATUS_QUIESCENT, 1)]) with pwr := { PwrSt.init with shut := some 2 } } : State).pwr.shut = some 2 ∧
    ({ (up [(Fd.BYO_STATUS_QUIESCENT, 1)]) with pwr := { PwrSt.init with shut := some 2 } } : State).pwr.shutTimedOut = false ∧
    notQuiescent true ({ (up [(Fd.BYO_STATUS_QUIESCENT, 1)]) with pwr := { PwrSt.init with shut := some 2 } } : State) = 0 ∧
    does .shdnTimeout { (up [(Fd.SCR_STATUS_QUIESCENT, 0)]) with pwr := { PwrSt.init with shut := some 2 } } (fun t =>
      t.pwr.shutTimedOut && evs t == [0x1111]) = true := by decide +kernel
theorem wit_takeover : (3 : Fin 5).val < 4 ∧ (running 8192 []).age.takeovers = [] ∧ (running 8192 []).on Fd.AGE_STATUS_CHS_FAIL = false ∧
    (running 8192 []).asy.run = none ∧ (∀ k, k < 4 → (running 8192 []).onBit Fd.ASY_STATUS_QUEUED k = false) ∧
    (covered .covered).age.takeovers ≠ [] ∧
    (covered (.staged 7)).age.takeovers.find? (fun t => t.ch == (3 : Fin 4).val) = some ⟨3, 8192, 4096, .staged 7, false⟩ ∧
    does (.frontEndFault 3 100) (running 8192 []) (fun t => t.age.takeovers.map (fun x => (x.ch, x.o, x.tx)) == [(3, 12288, 8191)]) = true ∧
    does (.frontEndFault 2 100) (covered .covered) (fun t => t.age.uncovered == [2]) = true ∧
    does (.catchUpEnd 3) (covered (.staged 7)) (fun t => t.age.takeovers == [] && evs t == [0x1122] && t.get (Fd.AGE_OFFSET 3) == 0) =
      true := by decide +kernel

/-! ### Commands that cannot come -/

theorem test_wf_register_write : (Instr.registerWrite 0x128 []).wf = false ∧ (Instr.registerWrite 0x128 [1]).wf = true := by decide +kernel
theorem test_wf_bar2 : (Instr.bar2Access 0 (some []) 0).wf = false ∧ (Instr.bar2Access 0 none 0).wf = false ∧
    (Instr.bar2Access 0xFFFFFFF (some [1, 2]) 0).wf = false ∧ (Instr.bar2Access 0xFFFFFFE none 3).wf = false ∧
    (Instr.bar2Access 0xFFFFFFE none 2).wf = true := by decide +kernel
theorem test_wf_memory_request : (Instr.memoryRequest 0 0x3F (some [1, 2]) 0).wf = false ∧ (Instr.memoryRequest 0 0x3F (some []) 0).wf = false ∧
    (Instr.memoryRequest 0 0x3E (some [1, 2]) 0).wf = true := by decide +kernel
theorem test_wf_beat : (Instr.beatRelease (List.replicate 3 (List.replicate 16 (0, 0)))).wf = false ∧
    (Instr.beatRelease (List.replicate 4 (List.replicate 15 (0, 0)))).wf = false ∧
    (Instr.beatRelease (List.replicate 4 (List.replicate 16 (0, 0)))).wf = true := by decide +kernel
theorem test_wf_hot_window : (Instr.hotWindow (List.replicate 127 1) (List.replicate 10 1)).wf = false ∧
    (Instr.hotWindow (List.replicate 128 1) (List.replicate 11 1)).wf = false ∧
    (Instr.hotWindow (List.replicate 128 1) (List.replicate 10 1)).wf = true := by decide +kernel
theorem test_wf_remote_command : (Instr.remoteCommand 0 1 2 (zeros 63)).wf = false ∧ (Instr.remoteCommand 0 1 2 (zeros 64)).wf = true := by
  decide +kernel
theorem test_wf_link_speed : (Instr.hostLinkUp 4 0).wf = false ∧ (Instr.hostLinkUp 4 5).wf = true := by decide +kernel
theorem test_wf_monitors : (Instr.monitorSample (List.replicate 65 0)).wf = false ∧ (Instr.monitorSample (List.replicate 64 0)).wf = true := by
  decide +kernel
theorem test_wf_element (l : List Byte) (h : l.length = 8257) (k : List Byte) (hk : k.length = 8256) :
    (Instr.receiveElement 0 7 3 1 false false 4095 3 900 990 10 l).wf = false ∧
    (Instr.receiveElement 0 7 3 1 false false 4095 3 900 990 10 k).wf = true := by
  unfold Instr.wf
  exact ⟨decide_eq_false (by omega), decide_eq_true (by omega)⟩

/-! ### Words of Cykin -/

/-- Words of chapter 16, written out field by field from the formats of R430 and the opcodes of R431. -/
theorem test_cykin_words : decodeCyk 0b00011000000000000001001000110100 = some (.br 0x1234) ∧
    decodeCyk 0b00011110110000000000000001000110 = some (.call 11 0x46) ∧
    decodeCyk 0b01001001010000001111111111111111 = some (.addi 5 0xFFFF) ∧
    decodeCyk 0b01001100011010001111100000000000 = some (.alua .sra 1 10 3) ∧
    decodeCyk 0b01010010010011000000000000000000 = some (.mvts 9 3) ∧
    decodeCyk 0b01011101010110000000000000000000 = some (.mvad 5 6) ∧
    decodeCyk 0b10010001111001011000000000000000 = some (.sta 7 ⟨4, some 5⟩) ∧
    decodeCyk 0b11000000010010000001000000001001 = some (.vop .sra 1 2 0 9) ∧
    decodeCyk 0b11100010001111000101000000000000 = some (.mac 2 15 1 false true) ∧
    decodeCyk 0b11011101000011000010000000010000 = some (.ldac 1 3 true false 16) ∧
    decodeCyk 0b11110101100000000000000000000010 = some (.pop 6 2) ∧
    decodeCyk 0b10111001110000000000010100000001 = some (.tpost 5 7 true) ∧
    decodeCyk 0b11111101110000000000000000000000 = some (.post 7) := by decide +kernel

end Sys2Proof.Tests
end

/-! ## Reads of 64-bit pairs (R14, R15) -/

namespace Sys2Proof.Machine

/-- The pair whose low word stands at `off` latches its high word into its read shadow (R14). -/
def latchHigh (off : Nat) (s : State) : State :=
  { s with rsh := Assoc.put 0#32 s.rsh (off + 4) (BitVec.ofNat 32 (s.rd (off + 4))) }

theorem get_rsh_latchHigh_same (off : Nat) (s : State) :
    Assoc.get 0#32 (latchHigh off s).rsh (off + 4) = BitVec.ofNat 32 (s.rd (off + 4)) :=
  Assoc.get_put_same _ _ _ _

theorem get_rsh_latchHigh_ne {off k : Nat} (s : State) (h : k ≠ off + 4) :
    Assoc.get 0#32 (latchHigh off s).rsh k = Assoc.get 0#32 s.rsh k :=
  Assoc.get_put_ne _ _ _ _ h

theorem busRead_of_low {s : State} {off : Nat} {d : RegDesc} {ij : Nat × Nat} {l : Legal}
    (hfind : RegMap.find off = some (d, ij)) (hlow : d.pair = .low l) (hgate : regsGated s off = false) :
    busRead off s = (s.rd off, latchHigh off s) := by
  simp [busRead, hfind, hgate, hlow, latchHigh]

theorem busRead_of_high {s : State} {off : Nat} {d : RegDesc} {ij : Nat × Nat}
    (hfind : RegMap.find off = some (d, ij)) (hhigh : d.pair = .high) (hgate : regsGated s off = false) :
    busRead off s = ((Assoc.get 0#32 s.rsh off).toNat, s) := by
  simp [busRead, hfind, hgate, hhigh]

theorem exec_lowWordRead (off : BitVec 26) (s : State) : exec (.lowWordRead off) s = execLowWordRead off s := rfl

/-- LOW_WORD_READ at an aligned offset is the bus read of that offset, returned to the host without poison. -/
theorem exec_lowWordRead_of_aligned {off : BitVec 26} (s : State) (halign : off.toNat % 4 = 0) :
    exec (.lowWordRead off) s =
      .next (returned (le 4 (busRead off.toNat s).1) false (busRead off.toNat s).2) := by
  have hfloor : floorTo 4 off.toNat = off.toNat := Nat.div_mul_cancel (Nat.dvd_of_mod_eq_zero halign)
  rw [exec_lowWordRead, execLowWordRead, hfloor]

end Sys2Proof.Machine

namespace Sys2Proof.Safety

open Sys2Proof.Machine

/-- A latch keeps every frame that lists the shadows. -/
theorem Frame.latchHigh {fs : List Fld} {parts : List Part} {evs : List (Nat × List EvItem)} {s t : State} (off : Nat)
    (h : Frame fs parts evs s t) (hm : Part.shadows ∈ parts := by simp) :
    Frame fs parts evs s (latchHigh off t) :=
  h.upd rfl rfl rfl rfl rfl fun u hu => by
    cases u with
    | shadows => exact absurd hm hu
    | _ => rfl

/-- What a read returns to the host keeps every frame that lists the host interface. -/
theorem Frame.returned {fs : List Fld} {parts : List Part} {evs : List (Nat × List EvItem)} {s t : State}
    (bs : List Byte) (poison : Bool) (h : Frame fs parts evs s t) (hm : Part.hif ∈ parts := by simp) :
    Frame fs parts evs s (returned bs poison t) :=
  h.hif _ hm

theorem exec_lowWordRead_of_low {s : State} {off : BitVec 26} {d : RegDesc} {ij : Nat × Nat} {l : Legal}
    (halign : off.toNat % 4 = 0) (hfind : RegMap.find off.toNat = some (d, ij)) (hlow : d.pair = .low l)
    (hgate : regsGated s off.toNat = false) :
    exec (.lowWordRead off) s = .next (returned (le 4 (s.rd off.toNat)) false (latchHigh off.toNat s)) := by
  rw [exec_lowWordRead_of_aligned s halign, busRead_of_low hfind hlow hgate]

/-- Settles O4: the low-word read is one latch and one return to the host, each with its own frame lemma; the high-word
read is the shadow alone. -/
theorem pairReadsGoThroughOneShadow : Obligations.PairReadsGoThroughOneShadow := by
  refine ⟨fun s off d i j l halign hfind hlow hgate => ?low, fun s off d i j hfind hhigh hgate => ?high⟩
  case low =>
    exact ⟨_, exec_lowWordRead_of_low halign hfind hlow hgate, rfl, get_rsh_latchHigh_same _ s,
      fun _ hk => get_rsh_latchHigh_ne s hk, ((Frame.refl _ _ s).latchHigh _).returned _ _⟩
  case high => exact busRead_of_high hfind hhigh hgate

end Sys2Proof.Safety

/-! ## Arming an epoch (R29, R30) -/

namespace Sys2Proof.Machine

/-- While stream time runs, or with an epoch committed at a capture, an arm only raises its event (R30). -/
theorem epochArm_of_run_or_committed {s : State} (src : Nat) (h : s.run = true ∨ s.sys.committed.isSome = true) :
    epochArm src s = s.raise 0x0011 := by
  have hrefused : (s.run || s.sys.committed.isSome) = true := (Bool.or_eq_true _ _).mpr h
  rw [epochArm, if_pos hrefused]

/-- With stream time stopped and no epoch committed, an arm is taken (R29). -/
theorem epochArm_of_not_run_of_not_committed {s : State} (src : Nat) (hrun : s.run = false)
    (hcommitted : s.sys.committed = none) :
    epochArm src s =
      { s with sys := { s.sys with armed := true, armSrc := src, armWait := 0, armValue := none } } := by
  simp [epochArm, hrun, hcommitted]

theorem exec_epochArm (s : State) : exec .epochArm s = .next (epochArm 1 s) := rfl

end Sys2Proof.Machine

namespace Sys2Proof.Safety

open Sys2Proof.Machine

/-- Settles O7: a refused arm is one raise on the state as it was; an arm that is taken changes the stream time part
alone. -/
theorem epochArmIsRefusedOrTaken : Obligations.EpochArmIsRefusedOrTaken := by
  refine ⟨fun s hrefused => ⟨epochArm 1 s, exec_epochArm s, ?refused⟩,
    fun s hrun hcommitted => ⟨epochArm 1 s, exec_epochArm s, ?taken⟩⟩
  case refused =>
    rw [epochArm_of_run_or_committed 1 hrefused]
    exact ⟨State.raise_sys s 0x0011 [], (Frame.refl [] [] s).raise 0x0011 []⟩
  case taken =>
    rw [epochArm_of_not_run_of_not_committed 1 hrun hcommitted]
    exact ⟨rfl, (Frame.refl [] [.sys] s).sys _⟩

end Sys2Proof.Safety

/-! ## Host writes of one word to a single register (R6, R12) -/

namespace Sys2Proof.Machine

theorem floorTo_of_aligned {m x : Nat} (halign : x % m = 0) : floorTo m x = x :=
  Nat.div_mul_cancel (Nat.dvd_of_mod_eq_zero halign)

theorem wordsOf_four_of_aligned {off : Nat} (halign : off % 4 = 0) : wordsOf off 4 = [off] := by
  simp [wordsOf, halign, floorTo_of_aligned halign]

/-- Four bytes at an aligned offset are the word that the access writes there. -/
theorem wordOfAccess_le_four (off : Nat) (w : Word) : wordOfAccess off (le 4 w.toNat) off = w.toNat := by
  have hbytes : (List.range 4).map (fun b => if off ≤ off + b ∧ off + b < off + (le 4 w.toNat).length
      then (le 4 w.toNat).getD (off + b - off) 0#8 else 0#8) = le 4 w.toNat := by
    simp [List.range, List.range.loop, le]
  rw [wordOfAccess, hbytes, ofLe_le 4 _ w.isLt]

theorem exec_registerWrite (off : BitVec 26) (data : List Byte) (s : State) :
    exec (.registerWrite off data) s = execRegisterWrite off data s := rfl

/-- REGISTER_WRITE of four bytes at an aligned offset is one 32-bit write (R6). -/
theorem exec_registerWrite_word {off : BitVec 26} (w : Word) (s : State) (halign : off.toNat % 4 = 0) :
    exec (.registerWrite off (le 4 w.toNat)) s = .next (regWrite off.toNat w.toNat s) := by
  rw [exec_registerWrite, execRegisterWrite, le_length, wordsOf_four_of_aligned halign]
  simp [State.each, wordOfAccess_le_four, Nat.mod_eq_of_lt off.isLt]

/-- From PHASE 4 to 7 no write is discarded by the phase (R562). -/
theorem phaseBlocks_of_phase {s : State} (off : Nat) (hlo : 4 ≤ s.get Fd.CFG_STATUS_PHASE)
    (hhi : s.get Fd.CFG_STATUS_PHASE ≤ 7) : phaseBlocks s off = false := by
  have hphase : ¬s.get Fd.CFG_STATUS_PHASE < 4 ∧ s.get Fd.CFG_STATUS_PHASE ≠ 8 := by omega
  simp [phaseBlocks, hphase]

theorem protNow_of_none {s : State} {p : Prot} (off i j w : Nat) (h : p = .none) : protNow s p off i j w = false := by
  rw [h]; rfl

theorem land_word_mask {v : Nat} (hv : v < 2 ^ 32) : Nat.land v (2 ^ 32 - 1) = v :=
  (Nat.and_two_pow_sub_one_eq_mod v 32).trans (Nat.mod_eq_of_lt hv)

theorem land_no_mask (v : Nat) : Nat.land v (Nat.xor (2 ^ 32 - 1) (2 ^ 32 - 1)) = 0 := by
  have hmask : Nat.xor (2 ^ 32 - 1) (2 ^ 32 - 1) = 0 := Nat.xor_self _
  rw [hmask]
  exact Nat.and_zero v

/-- A host write of a whole word to a single register that nothing withholds: each field takes its part, then the unit
acts. -/
theorem busWriteMasked_host_of_single {s : State} {off v : Nat} {d : RegDesc} {ij : Nat × Nat}
    (hfind : RegMap.find off = some (d, ij)) (hgate : regsGated s off = false) (hphase : phaseBlocks s off = false)
    (hspecial : specialWrite d.off off ij.1 ij.2 v v s = none) (hprot : ∀ f ∈ d.fields, f.prot = .none)
    (hpair : d.pair = .single) (hv : v < 2 ^ 32) :
    busWriteMasked .host off (2 ^ 32 - 1) v s =
      (afterWrite d.off off ij.1 ij.2 v s (s.each d.fields (applyField .host d.off off ij.1 ij.2 (2 ^ 32 - 1) v)),
        false) := by
  have hclosed : d.fields.filter (fun f => Nat.land (2 ^ 32 - 1) f.mask != 0 && protNow s f.prot off ij.1 ij.2 v) = [] := by
    refine List.filter_eq_nil_iff.2 fun f hf => ?_
    rw [protNow_of_none off ij.1 ij.2 v (hprot f hf), Bool.and_false]
    exact Bool.false_ne_true
  simp only [busWriteMasked, hfind, hgate, hphase, hpair, land_word_mask hv, land_no_mask, Nat.add_zero, hspecial,
    hclosed]
  simp

/-- Nothing of such a write is discarded, so it goes on to what it does to the module as a whole. -/
theorem regWrite_of_single {s : State} {off v : Nat} {d : RegDesc} {ij : Nat × Nat}
    (hfind : RegMap.find off = some (d, ij)) (hgate : regsGated s off = false) (hphase : phaseBlocks s off = false)
    (hspecial : specialWrite d.off off ij.1 ij.2 v v s = none) (hprot : ∀ f ∈ d.fields, f.prot = .none)
    (hpair : d.pair = .single) (hv : v < 2 ^ 32) :
    regWrite off v s = topWrite off v s
      (afterWrite d.off off ij.1 ij.2 v s (s.each d.fields (applyField .host d.off off ij.1 ij.2 (2 ^ 32 - 1) v))) := by
  rw [regWrite, Nat.mod_eq_of_lt hv, busWriteMasked_host_of_single hfind hgate hphase hspecial hprot hpair hv]
  exact if_neg Bool.false_ne_true

/-! ### Fields of a single register -/

/-- A read-only field takes nothing from a write. -/
theorem applyField_of_ro {f : FieldDesc} (m : WrMode) (reg off i j mask w : Nat) (s : State) (hacc : f.acc = .ro) :
    applyField m reg off i j mask w f s = s := by
  simp [applyField, hacc]

/-- A read-write field that every value of its width fits, and that depends on no other field, takes its part of the
written word; no clamp is counted. -/
theorem applyField_of_rw_any {f : FieldDesc} {m : WrMode} {reg off i j mask w : Nat} {s : State} (hacc : f.acc = .rw)
    (hlegal : f.legal = .any) (hmask : Nat.land mask f.mask ≠ 0) (hreg : reg ∉ [0xD0100, 0x2000C, 0x100100])
    (hdep : ∀ v, dependLegal s reg i j f.lo w v = v) :
    applyField m reg off i j mask w f s = (s.set (f.at' off) ((f.at' off).get w)).clamped 0 := by
  simp only [List.mem_cons, List.not_mem_nil, or_false, not_or] at hreg
  simp only [applyField, hacc, hlegal, hmask, hreg, hdep, Legal.take, Legal.changed, b2n]
  simp

/-- Counting clamps changes no register but SYS.CLAMP_COUNT. -/
theorem State.get_clamped (s : State) (n : Nat) (f : Fld) (h : Fd.SYS_CLAMP_COUNT.apart f = true) :
    (s.clamped n).get f = s.get f :=
  s.get_set_apart _ f _ (by decide) h

@[simp] theorem State.get_withHk (s : State) (x : HkSt) (f : Fld) : State.get { s with hk := x } f = s.get f := rfl

@[simp] theorem State.clamped_hk (s : State) (n : Nat) : (s.clamped n).hk = s.hk := by
  rw [State.clamped, State.bump, State.set_hk]

end Sys2Proof.Machine

/-! ## HK.CTRL and the reference buffer (R82, R83) -/

namespace Sys2Proof.Machine

/-- HK.CTRL in the register map (R83): REF_RDY, REF_EN, RUN. -/
def hkCtrl : RegDesc :=
  ⟨0x120100, 1, 1, 1, 1, .single,
    [⟨2, 2, .ro, .any, 0, .none⟩, ⟨1, 1, .rw, .any, 0, .none⟩, ⟨0, 0, .rw, .any, 0, .none⟩], fun _ _ => 0⟩

theorem hkCtrl_off : hkCtrl.off = 0x120100 := rfl

theorem find_hkCtrl : RegMap.find 0x120100 = some (hkCtrl, 0, 0) := rfl

/-- HK.CTRL once REF_EN and RUN have taken their bits of a written word. -/
def hkCtrlStored (w : Nat) (s : State) : State :=
  (((s.set Fd.HK_CTRL_REF_EN (Fd.HK_CTRL_REF_EN.get w)).clamped 0).set Fd.HK_CTRL_RUN (Fd.HK_CTRL_RUN.get w)).clamped 0

theorem each_applyField_hkCtrl (w : Nat) (s : State) :
    s.each hkCtrl.fields (applyField .host 0x120100 0x120100 0 0 (2 ^ 32 - 1) w) = hkCtrlStored w s := by
  simp only [State.each, hkCtrl, List.foldl_cons, List.foldl_nil]
  rw [applyField_of_ro (f := ⟨2, 2, .ro, .any, 0, .none⟩) _ _ _ _ _ _ _ _ rfl,
    applyField_of_rw_any rfl rfl (by decide) (by decide) (fun _ => rfl),
    applyField_of_rw_any rfl rfl (by decide) (by decide) (fun _ => rfl)]
  rfl

@[simp] theorem hkCtrlStored_hk (w : Nat) (s : State) : (hkCtrlStored w s).hk = s.hk := by
  rw [hkCtrlStored, State.clamped_hk, State.set_hk, State.clamped_hk, State.set_hk]

@[simp] theorem hkCtrlStored_get_refRdy (w : Nat) (s : State) :
    (hkCtrlStored w s).get Fd.HK_CTRL_REF_RDY = s.get Fd.HK_CTRL_REF_RDY := by
  rw [hkCtrlStored, State.get_clamped _ _ _ (by decide), State.get_set_apart _ _ _ _ (by decide) (by decide),
    State.get_clamped _ _ _ (by decide), State.get_set_apart _ _ _ _ (by decide) (by decide)]

theorem hkCtrlStored_get_refEn (w : Nat) (s : State) :
    (hkCtrlStored w s).get Fd.HK_CTRL_REF_EN = Fd.HK_CTRL_REF_EN.get w := by
  rw [hkCtrlStored, State.get_clamped _ _ _ (by decide), State.get_set_apart _ _ _ _ (by decide) (by decide),
    State.get_clamped _ _ _ (by decide), State.get_set_same _ _ _ (by decide)]
  exact Nat.mod_mod _ _

theorem hkCtrlStored_on_refEn (w : Nat) (s : State) :
    (hkCtrlStored w s).on Fd.HK_CTRL_REF_EN = (Fd.HK_CTRL_REF_EN.get w != 0) := by
  rw [State.on, hkCtrlStored_get_refEn]

/-! ### What the write does in the unit -/

/-- Ending the running scan touches no register. -/
@[simp] theorem hkRunWrite_get (s : State) (f : Fld) : (hkRunWrite s).get f = s.get f := by
  unfold hkRunWrite
  split <;> rfl

/-- Ending the running scan leaves the count of R82 alone. -/
@[simp] theorem hkRunWrite_refCount (s : State) : (hkRunWrite s).hk.refCount = s.hk.refCount := by
  unfold hkRunWrite
  split <;> rfl

@[simp] theorem hkRunWrite_on (s : State) (f : Fld) : (hkRunWrite s).on f = s.on f := by
  rw [State.on, hkRunWrite_get, State.on]

/-- A rise of REF_EN starts the count and leaves REF_RDY alone. -/
theorem hkRefWrite_of_rise {s : State} (hen : s.on Fd.HK_CTRL_REF_EN = true) :
    (hkRefWrite s false).hk.refCount = true ∧
      (hkRefWrite s false).get Fd.HK_CTRL_REF_RDY = s.get Fd.HK_CTRL_REF_RDY := by
  simp [hkRefWrite, hen]

/-- With REF_EN at 0 the count is over and REF_RDY is clear. -/
theorem hkRefWrite_of_off {s : State} (old : Bool) (hen : s.on Fd.HK_CTRL_REF_EN = false) :
    (hkRefWrite s old).hk.refCount = false ∧ (hkRefWrite s old).get Fd.HK_CTRL_REF_RDY = 0 := by
  have hwrite : hkRefWrite s old = { s with hk := { s.hk with refCount := false } }.set Fd.HK_CTRL_REF_RDY 0 := by
    simp [hkRefWrite, hen]
  rw [hwrite]
  exact ⟨rfl, State.get_set_same _ _ _ (by decide)⟩

theorem afterWrite_hkCtrl (i j w : Nat) (old s : State) : afterWrite 0x120100 0x120100 i j w old s =
    if (hkRunWrite s).on Fd.HK_CTRL_REF_EN != old.on Fd.HK_CTRL_REF_EN
    then hkRefWrite (hkRunWrite s) (old.on Fd.HK_CTRL_REF_EN) else hkRunWrite s := rfl

/-- No write of HK.CTRL acts on the module as a whole. -/
theorem topWrite_hkCtrl (v : Nat) (old s : State) : topWrite 0x120100 v old s = s := rfl

/-- A host write of HK.CTRL from PHASE 4 to 7: REF_EN and RUN take their bits, and a change of REF_EN acts on the
reference buffer. -/
theorem regWrite_hkCtrl {s : State} (w : Word) (hlo : 4 ≤ s.get Fd.CFG_STATUS_PHASE)
    (hhi : s.get Fd.CFG_STATUS_PHASE ≤ 7) :
    regWrite 0x120100 w.toNat s =
      if (Fd.HK_CTRL_REF_EN.get w.toNat != 0) != s.on Fd.HK_CTRL_REF_EN
      then hkRefWrite (hkRunWrite (hkCtrlStored w.toNat s)) (s.on Fd.HK_CTRL_REF_EN)
      else hkRunWrite (hkCtrlStored w.toNat s) := by
  rw [regWrite_of_single find_hkCtrl rfl (phaseBlocks_of_phase _ hlo hhi) rfl (by decide) rfl w.isLt, hkCtrl_off,
    topWrite_hkCtrl, each_applyField_hkCtrl, afterWrite_hkCtrl, hkRunWrite_on, hkCtrlStored_on_refEn]

/-- A write that leaves REF_EN as it is changes neither the count nor REF_RDY. -/
theorem regWrite_hkCtrl_of_same {s : State} {w : Word} (hlo : 4 ≤ s.get Fd.CFG_STATUS_PHASE)
    (hhi : s.get Fd.CFG_STATUS_PHASE ≤ 7) (hsame : (Fd.HK_CTRL_REF_EN.get w.toNat != 0) = s.on Fd.HK_CTRL_REF_EN) :
    (regWrite 0x120100 w.toNat s).hk.refCount = s.hk.refCount ∧
      (regWrite 0x120100 w.toNat s).get Fd.HK_CTRL_REF_RDY = s.get Fd.HK_CTRL_REF_RDY := by
  rw [regWrite_hkCtrl w hlo hhi, hsame, bne_self_eq_false, if_neg Bool.false_ne_true]
  simp

/-- A write that takes REF_EN from 0 to 1 starts the count. -/
theorem regWrite_hkCtrl_of_rise {s : State} {w : Word} (hlo : 4 ≤ s.get Fd.CFG_STATUS_PHASE)
    (hhi : s.get Fd.CFG_STATUS_PHASE ≤ 7) (hold : s.on Fd.HK_CTRL_REF_EN = false)
    (hnew : (Fd.HK_CTRL_REF_EN.get w.toNat != 0) = true) :
    (regWrite 0x120100 w.toNat s).hk.refCount = true ∧
      (regWrite 0x120100 w.toNat s).get Fd.HK_CTRL_REF_RDY = s.get Fd.HK_CTRL_REF_RDY := by
  have hen : (hkRunWrite (hkCtrlStored w.toNat s)).on Fd.HK_CTRL_REF_EN = true := by
    rw [hkRunWrite_on, hkCtrlStored_on_refEn, hnew]
  rw [regWrite_hkCtrl w hlo hhi, hold, hnew, if_pos (by rfl)]
  simpa using hkRefWrite_of_rise hen

/-- A write that takes REF_EN from 1 to 0 ends the count and clears REF_RDY. -/
theorem regWrite_hkCtrl_of_fall {s : State} {w : Word} (hlo : 4 ≤ s.get Fd.CFG_STATUS_PHASE)
    (hhi : s.get Fd.CFG_STATUS_PHASE ≤ 7) (hold : s.on Fd.HK_CTRL_REF_EN = true)
    (hnew : (Fd.HK_CTRL_REF_EN.get w.toNat != 0) = false) :
    (regWrite 0x120100 w.toNat s).hk.refCount = false ∧
      (regWrite 0x120100 w.toNat s).get Fd.HK_CTRL_REF_RDY = 0 := by
  have hen : (hkRunWrite (hkCtrlStored w.toNat s)).on Fd.HK_CTRL_REF_EN = false := by
    rw [hkRunWrite_on, hkCtrlStored_on_refEn, hnew]
  rw [regWrite_hkCtrl w hlo hhi, hold, hnew, if_pos (by rfl)]
  exact hkRefWrite_of_off true hen

/-- REGISTER_WRITE of a word to HK.CTRL is that one write. -/
theorem exec_registerWrite_hkCtrl (w : Word) (s : State) :
    exec (.registerWrite 0x120100#26 (le 4 w.toNat)) s = .next (regWrite 0x120100 w.toNat s) :=
  exec_registerWrite_word w s rfl

theorem exec_hkRefReady (s : State) : exec .hkRefReady s = execHkRefReady s := rfl

theorem exec_hkRefReady_of_counting {s : State} (hcount : s.hk.refCount = true) :
    exec .hkRefReady s = .next ({ s with hk := { s.hk with refCount := false } }.set Fd.HK_CTRL_REF_RDY 1) := by
  rw [exec_hkRefReady, execHkRefReady, if_pos hcount]

end Sys2Proof.Machine

namespace Sys2Proof.Safety

open Sys2Proof.Machine

/-- The end of the count sets REF_RDY (R82). -/
theorem does_hkRefReady {s : State} (hcount : s.hk.refCount = true) : Does .hkRefReady s (fun t =>
    t.get Fd.HK_CTRL_REF_RDY = 1 ∧ t.hk.refCount = false ∧ Frame [Fd.HK_CTRL_REF_RDY] [.hk] [] s t) :=
  ⟨_, exec_hkRefReady_of_counting hcount, State.get_set_same _ _ _ (by decide), rfl,
    ((Frame.refl _ _ s).hk _).set _ _⟩

/-- Settles O14: a write of HK.CTRL stores its bits, and only a change of REF_EN acts on the count and on REF_RDY. -/
theorem referenceBufferBecomesReady : Obligations.ReferenceBufferBecomesReady := by
  refine ⟨fun s => does_hkRefReady, fun s w hlo hhi => ⟨fun hold hnew => ?stays, fun hold hnew => ?rises,
    fun hold hnew => ?falls⟩⟩
  case stays =>
    have hsame : (Fd.HK_CTRL_REF_EN.get w.toNat != 0) = s.on Fd.HK_CTRL_REF_EN := by simp [hnew, hold]
    exact ⟨_, exec_registerWrite_hkCtrl w s, regWrite_hkCtrl_of_same hlo hhi hsame⟩
  case rises => exact ⟨_, exec_registerWrite_hkCtrl w s, regWrite_hkCtrl_of_rise hlo hhi hold (by simp [hnew])⟩
  case falls => exact ⟨_, exec_registerWrite_hkCtrl w s, regWrite_hkCtrl_of_fall hlo hhi hold (by simp [hnew])⟩

end Sys2Proof.Safety
